-- ==== Sys2Proof/Word.lean ====
section
/-! DEFINITION. The word types of the device and the plain shape of its sparse tables. -/

namespace Sys2Proof

/-- A byte. -/
abbrev Byte := BitVec 8

/-- A register, an address or a message word: 64 bits (R4). -/
abbrev Word := BitVec 64

/-- A 64-byte line, byte 0 in the lowest eight bits. -/
abbrev Line := BitVec 512

/-- A 256-bit key (R311). -/
abbrev Key := BitVec 256

/-- A 56-bit MAC (R318). -/
abbrev Mac := BitVec 56

/-- A sparse table: pairs of a key and a value, keys strictly rising. -/
abbrev SMap (α : Type) := List (Nat × α)

end Sys2Proof
end

