-- ==== Sys2Proof/Syntax.lean ====
section
/-! DEFINITION. The commands of the device: one constructor for each row of the opcode table, with its operands.
A row's operands are what the sender, the board or the media gives the device when the row's event comes about; the
spec's table gives them no bits. -/

namespace Sys2Proof

/-- Index ranges of the spec's index names (00_scope). -/
abbrev Wing := Fin 8
abbrev Cellar := Fin 32
abbrev Pkg := Fin 8
abbrev StairCh := Fin 256
abbrev Mon := Fin 32
abbrev Sensor := Fin 104
abbrev Requester := Fin 4096
abbrev RoomNo := Fin 4096
abbrev RingNo := Fin 64
abbrev Source := Fin 2048
abbrev MediaLineNo := Fin 16

/-- The meta value a CXL.mem request carries (R271). -/
inductive Meta where
  | i | s | a
  deriving DecidableEq, Repr

/-- What the checks of a Pantry slice find when a read hits in it (R150): nothing, one bit of a word, more than one bit,
or the parity of a tag. -/
inductive PantryCheck where
  | clean | oneBit | manyBits | tagParity
  deriving DecidableEq, Repr

/-- A CXL.mem or UIO request as it reaches the port: its source ID, host address, sender's tag, whether the IDE check of
R71 step 1 passed, and what a Pantry hit of it meets. -/
structure HostReq where
  requester : Requester
  hpa : Word
  tag : Nat
  ideOk : Bool
  pantry : PantryCheck
  deriving DecidableEq, Repr

/-- The header of a received Landing message (R414), with the transport it came by and the state of its SPDM session. -/
structure Hdr where
  version : Byte
  poolId : BitVec 32
  term : Word
  src : Nat
  dst : Nat
  seq : BitVec 32
  last : Bool := false
  i3c : Bool := false
  deriving DecidableEq, Repr

/-- Who sends a mailbox command: a requester over BAR0, or a Landing CCI message (R100). -/
structure Sender where
  requester : Requester
  landing : Bool
  deriving DecidableEq, Repr

/-- What the board and the dies answer while BOOT runs (R48, R196, R212, R533, R535). -/
structure BootEnv where
  /-- the flash answers reads of slot A, of slot B and of the log -/
  flashA : Bool
  flashB : Bool
  /-- SFDP advertises 8D-8D-8D, and its highest frequency in MHz (R25) -/
  sfdp8d : Bool
  sfdpMHz : Nat
  /-- MISR signatures the Hall and each wing produce: LBIST, then MBIST (R533) -/
  hallMisr : Word × Word
  wingMisr : List (Word × Word)
  /-- failed checkers of R535, in the bits of BST_ECC [62:0] -/
  checkers : BitVec 63
  /-- for each cellar, the packages that answered IDENT as their profile says (R196) -/
  ident : List (BitVec 8)
  /-- for each cellar, the packages with a valid format record (R212) -/
  formatted : List (BitVec 8)
  /-- for each wing, whether its Larder channel trained (R158) -/
  trained : BitVec 8
  deriving DecidableEq, Repr

/-- What the media decoder says of one read of a media line (R202). -/
inductive Decoded where
  | clean | corrected (bits : Nat) | failed (zerosOverOnes : Int) | noStrobe | busCrc
  deriving DecidableEq, Repr

/-- One host line as a media line carries it: ciphertext, MAC and POISON flag (R201). -/
structure StoredLine where
  ct : Line
  mac : Mac
  poison : Bool
  deriving DecidableEq, Repr

/-- What a Larder burst's code says of it (R157, R162). -/
inductive BurstOutcome where
  | clean | corrected (device : Nat) | uncorrectable
  deriving DecidableEq, Repr

/-- What a Larder read fetched (R162). -/
inductive LarderItem where
  | data | mapEntry | counterBlock | treeNode (level : Nat) | directory
  deriving DecidableEq, Repr

/-- The link partner's offer at training (R63). -/
structure Partner where
  rate : Nat      -- 1 32 GT/s, 2 64 GT/s, 3 128 GT/s
  width : Nat     -- 1 x4, 2 x8, 3 x16
  flit256 : Bool
  cxl : Bool
  pbr : Bool
  lopt : Bool
  deriving DecidableEq, Repr

/-- How a register access arrives: at a BAR of the host port (R92), or at the Porch's I3C target (R467). -/
inductive Path where
  | bar0 | bar2 | bar4 | i3c
  deriving DecidableEq, Repr

/-- A unit the service rules name (R357). -/
inductive UnitId where
  | package (c : Cellar) (p : Pkg) | cellar (c : Cellar) | larder (w : Wing) | wing (w : Wing)
  deriving DecidableEq, Repr

/-- How the media bus failed to answer (R197). -/
inductive TimeoutKind where
  | readStrobe | tempOrStatus | completion | transferCrc | identAfterReset
  deriving DecidableEq, Repr

/-- A Corridor module: the hub's module to a wing, or the ring segment from a wing to its higher neighbour. -/
inductive Module where
  | hall (w : Wing) | ring (w : Wing)
  deriving DecidableEq, Repr

/-- An error record's operands as a detecting block gives them (R482). -/
structure EventIn where
  source : Source
  access : Nat := 0
  masterKind : Nat := 0
  masterId : Nat := 0
  addrKind : Nat := 0
  address : Nat := 0
  forced : Bool := false
  deriving DecidableEq, Repr

/-- The words of a key-slot message (R313, R425). -/
structure EscrowRecord where
  origin : Nat
  floor : Nat
  high : Nat
  wrapped : BitVec 320
  deriving DecidableEq, Repr

/-- A manager-state delta carried by MIRROR (R423, R424). -/
inductive Delta where
  | quota (requester : Requester) (bytes : Nat)
  | room (device room size : Nat) (class_ step target : Nat) (acl : List Nat)
  | roomGone (device room : Nat)
  | escrow (slot : Nat) (record : EscrowRecord)
  | member (index : Nat)
  | full
  deriving DecidableEq, Repr

/-- A 256-bit Stair base entry (R398) and the operands of one instruction come as 128-bit words. -/
abbrev StairWord := BitVec 128

/-- The commands. One constructor for each row of the opcode table, in the table's order; LAWS.json maps each to its
row's mnemonic. -/
inductive Instr where
  -- power states and sequencing (14, 20)
  | vstbyRise
  | vstbyLoss
  | strapSample (straps : BitVec 8)
  | minimumOffTimeExpiry
  | onRequest
  | offRequest
  | offReqWrite
  | monitorConversion (mon : Mon) (reading : BitVec 12)
  | monitorQualified (mon : Mon)
  | railFault (mon : Mon)
  | stepDelayExpiry
  | stepTimeout
  | powerDownStepDelay
  | seqFaultRetry
  | lrefLoss
  | groupSwitchDone (group : Fin 46)
  -- boot (02, 05, 09)
  | floorPlanLoad (env : BootEnv)
  | pantryInitDone (w : Wing)
  | recovery
  | servingEntry (waited2s : Bool)
  -- Porch inputs, slumber and wake (15)
  | vinSample (reading : BitVec 12)
  | inputFailure
  | reservoirExhausted
  | vinGood
  | wakeN
  | wakeWrite
  | wakeBeat
  | slumberReq
  -- the reservoir (09)
  | resSenseSample (millivolts : Nat)
  | reservoirReady
  | chgLimitExpiry
  | reservoirAbsent
  | resNtcSample (ohms : Nat)
  | chargeTestStart
  | chargeTestFallEnd (drop10mV : Nat) (ms : Nat)
  | chargeTestRiseEnd (ms : Nat)
  | chargeTestRiseTimeout
  | testNow
  -- thermal (15)
  | sensorConversion (ts : Sensor) (count : BitVec 16)
  | stageStep
  -- rack time and the calendar (07)
  | rbeatEdge (interval10ns : Nat)
  | missingBeat
  | checkpoint
  | descriptorRewrite (c : Cellar) (p : Pkg) (line : Nat) (copy : Fin 2)
  | cupboardAnchor
  | atticFlush
  | healthSample
  | bucketLeak
  | sketchDecay (w : Wing)
  | scrubPassStart (w : Wing)
  | ageUnitTick
  | counterSnapshot
  | cadenceFrame (w : Wing)
  -- media and Larder (05, 06, 07)
  | programSlot (c : Cellar) (macFails : BitVec 4) (readOk : Bool)
  | writeBackSelection (w : Wing)
  | mediaReadData (c : Cellar) (p : Pkg) (frame : Nat) (ml : MediaLineNo) (reads : List Decoded)
      (arrived : Option (List StoredLine))
  | doneNLow (c : Cellar)
  | statusRecord (c : Cellar) (p : Pkg) (done verifyFail crcFail : BitVec 64) (flags : Byte) (crcOk : Bool)
  | suspendOp (c : Cellar) (tag : Fin 64)
  | bankSuspended (c : Cellar) (tag : Fin 64)
  | tempRead (c : Cellar) (p : Pkg) (temp : Option (BitVec 16))
  | alertN (c : Cellar)
  | mediaTimeout (c : Cellar) (p : Pkg) (kind : TimeoutKind)
  | frameMigrationSwitch (room : RoomNo) (page : Nat)
  | promotionDone (room : RoomNo) (page : Nat)
  | larderReadData (room : RoomNo) (page : Nat) (line : Fin 64) (item : LarderItem) (outcome : BurstOutcome)
      (mirrorOutcome : BurstOutcome) (arrived : Option StoredLine)
  | larderPatrolScrub (w : Wing) (burst : Nat) (outcome : BurstOutcome) (eccCounts : Nat)
  | larderTempRead (w : Wing) (device : Nat) (celsius4 : Int)
  | pacedWriteAdmit (w : Wing)
  | logEntryApply (w : Wing)
  | corridorPacket (m : Module) (crcOk : Bool)
  | laneRepair (m : Module)
  -- the host link (03)
  | linkTraining (partner : Partner)
  | trainingRetry
  | linkRecovery
  | linkL0
  | flitReplay (n : Nat)
  | dlDown
  | perstN
  | retrain
  | viral
  -- host requests (03, 08)
  | memRd (q : HostReq) (mv : Meta)
  | memRdData (q : HostReq)
  | memWr (q : HostReq) (mv : Meta) (data : Line) (poison : Bool)
  | memWrPtl (q : HostReq) (mv : Meta) (data : Line) (enables : BitVec 64) (poison : Bool)
  | memInv (q : HostReq) (mv : Meta)
  | memInvNt (q : HostReq) (mv : Meta)
  | uioRead (q : HostReq) (length : Nat)
  | uioWrite (q : HostReq) (bytes : List Byte)
  | biRsp (requester : Requester) (room : RoomNo) (page : Nat) (line : Fin 64)
  | bisnpResend (requester : Requester) (room : RoomNo) (page : Nat) (line : Fin 64)
  | requesterFailed (requester : Requester)
  | globalPersistentFlush (phase : Fin 2)
  | atomicDescriptor (requester : Requester) (room : RoomNo) (slot : Fin 32) (data : Line)
  | refillRound
  | ideKeyProgram (stream : Fin 5)
  | spdmGetMeasurements (index : Nat)
  | msixDestValid (v : Source)
  | msixUnmask (v : Source)
  -- mailbox commands (03, 04, 16)
  | identify (from_ : Sender)
  | getEventRecords (from_ : Sender) (log : Fin 3)
  | clearEventRecords (from_ : Sender) (log : Fin 3)
  | getEventInterruptPolicy (from_ : Sender)
  | setEventInterruptPolicy (from_ : Sender) (policy : Word)
  | getFwInfo (from_ : Sender)
  | transferFw (from_ : Sender)
  | activateFw (from_ : Sender)
  | getTimestamp (from_ : Sender)
  | setTimestamp (from_ : Sender)
  | getSupportedLogs (from_ : Sender)
  | getLog (from_ : Sender)
  | identifyMemoryDevice (from_ : Sender)
  | getPartitionInfo (from_ : Sender)
  | getHealthInfo (from_ : Sender)
  | getAlertConfiguration (from_ : Sender)
  | setAlertConfiguration (from_ : Sender) (spare wear temp : BitVec 16)
  | getPoisonList (from_ : Sender) (room : RoomNo)
  | injectPoison (from_ : Sender) (room : RoomNo) (offset : Nat)
  | clearPoison (from_ : Sender) (room : RoomNo) (offset : Nat) (data : Line)
  | sanitize (from_ : Sender)
  | secureErase (from_ : Sender)
  | getDcConfiguration (from_ : Sender)
  | getDcExtentList (from_ : Sender)
  | addDcResponse (requester : Requester) (room : RoomNo) (region : Fin 8) (base size : Nat)
  | releaseDc (requester : Requester) (room : RoomNo) (region : Fin 8) (base size : Nat)
  | imageBegin (from_ : Sender) (slot : Byte)
  | imageWrite (from_ : Sender) (offset : Nat) (bytes : List Byte)
  | imageCheck (from_ : Sender)
  | setDecoder (from_ : Sender) (requester : Requester) (region : Fin 8) (hpaBase size : Nat) (ways granularity : Nat)
      (way : Nat) (dpaBase : Nat)
  | restoreRequester (from_ : Sender) (requester : Requester)
  | getRoomStatus (from_ : Sender) (room : RoomNo)
  | setManagementRequesters (from_ : Sender) (list : Word)
  | poolStatus (from_ : Sender)
  | poolHealth (from_ : Sender)
  | deliverAmendment (from_ : Sender) (member : Nat) (bytes : List Byte)
  | setQuota (from_ : Sender) (requester : Requester) (bytes : Nat)
  | migrateRoom (from_ : Sender) (room : RoomNo) (source target : Nat)
  | evacuate (from_ : Sender) (member : Nat)
  | poolSnapshot (from_ : Sender) (beat : Word)
  | atticRead (from_ : Sender) (part : Fin 11) (slot : Nat) (count : Nat)
  | atticClear (from_ : Sender) (part : Fin 11) (nonce : BitVec 128) (member : Nat) (term : Word) (signatureOk : Bool)
  | mailboxUnsupported (from_ : Sender) (opcode : BitVec 16)
  | registerWrite (path : Path) (requester : Requester) (offset : Nat) (width : Nat) (value : Word)
  -- the host map buffer and amendments (02, 04)
  | hmbEnable (requester : Requester) (owner : Requester)
  | hmbWithdrawal (requester : Requester)
  | hmbFetchData (room : RoomNo) (page : Nat) (macOk : Bool) (error : Bool)
  | hmbFetchTimeout (room : RoomNo) (page : Nat)
  | amendment (h : Hdr) (offset : Nat) (bytes : List Byte)
  | amdResult (h : Hdr) (cause : Byte) (amdSeq : Word)
  | roomRemovalDone (room : RoomNo)
  -- units in and out of service (11)
  | unitFenced (u : UnitId)
  | unitRebuilt (u : UnitId)
  | unitLoss (u : UnitId)
  | actingHomeServe (w : Wing)
  | remirrorDone (w : Wing)
  | parityDelta (w : Wing)
  | parityRecompute (w : Wing)
  | watchdogExpiry (core : Fin 64)
  -- rings and Stair channels (12)
  | sqTail (requester : Requester) (page : Requester) (ring : RingNo) (tail : BitVec 32)
  | cqHead (requester : Requester) (page : Requester) (ring : RingNo) (head : BitVec 32)
  | ringStart (requester : Requester) (page : Requester) (ring : RingNo)
  | ringStop (requester : Requester) (page : Requester) (ring : RingNo)
  | ringResume (requester : Requester) (page : Requester) (ring : RingNo)
  | ringReset (requester : Requester) (page : Requester) (ring : RingNo)
  | semAdd (requester : Requester) (page : Requester) (ring : RingNo) (value : Word)
  | eventSet (requester : Requester) (page : Requester) (ring : RingNo) (flags : Word)
  | context (requester : Requester) (page : Requester) (ring : RingNo) (data : Line)
  | dispatch (fetched : Option Line)
  | copy (ch : StairCh) (source : List Byte)
  | zero (ch : StairCh)
  | release (ch : StairCh)
  | secureRelease (ch : StairCh)
  | prefetch (ch : StairCh)
  | pin (ch : StairCh)
  | unpin (ch : StairCh)
  | persistBarrier (ch : StairCh)
  | migrateOut (ch : StairCh)
  | migrateIn (ch : StairCh)
  | run (ch : StairCh) (header : List StairWord) (program : List StairWord)
  | move (ch : StairCh) (source : List Byte)
  | move2d (ch : StairCh) (source : List Byte)
  | fill (ch : StairCh)
  | loop (ch : StairCh)
  | waitInstr (ch : StairCh)
  | beatWaitEnd (ch : StairCh)
  | waitTimeout (ch : StairCh)
  | signal (ch : StairCh)
  | persist (ch : StairCh)
  | commandComplete (ch : StairCh)
  | lineRequestTimeout (ch : StairCh)
  | coalesceTimer (requester : Requester) (ring : RingNo)
  | pause (ch : StairCh) (on : Bool)
  | abort (ch : StairCh)
  -- the Landing protocol (13)
  | heartbeatSend
  | heartbeat (h : Hdr) (manager : Bool) (e p : Word) (managerIndex standby : Nat) (health : List Word)
  | heartbeatMissed (peer : Nat)
  | takeover (h : Hdr)
  | termResponse (h : Hdr) (higher : Word) (manager : Nat)
  | landingRetry (peer : Nat) (seq : BitVec 32)
  | generate (h : Hdr) (slot : Fin 4096)
  | importKey (h : Hdr) (slot : Fin 4096) (record : EscrowRecord)
  | exportKey (h : Hdr) (slot : Fin 4096)
  | destroy (h : Hdr) (slot : Fin 4096)
  | escrowKey (h : Hdr) (key : Key)
  | nonceRequest (h : Hdr)
  | clearToken (h : Hdr) (part : Fin 11) (nonce : BitVec 128) (member : Nat) (tokenTerm : Word) (signatureOk : Bool)
  | snapshotMsg (h : Hdr) (beat : Word)
  | migrateBegin (h : Hdr) (room : RoomNo) (source target : Nat)
  | migrateCutover (h : Hdr) (room : RoomNo) (close : Bool)
  | migrationRoundEnd (sendBytesPerMs : Nat) (writtenBytes : Nat)
  | freezeTimeout
  | pageRelease (h : Hdr) (room : RoomNo) (pages : List (Nat × Bool))
  | mirrorMsg (h : Hdr) (delta : Delta)
  -- faults, the Attic and the Cupboard (16, 17)
  | event (external : Option EventIn)
  | collectorFault
  | rearm
  | trapDone (wing : Option Wing)
  | force (source : Source) (on : Bool)
  | bucketEnClear (source : Source)
  | fltEvq (queue : Option Wing) (requester : Requester)
  | evqStallLimit (queue : Option Wing)
  | atcWin (i : Fin 128) (requester : Requester) (fetchOk : Bool)
  | cpbData (i : Fin 8) (requester : Requester)
  | cupboardWriteDone (matches_ : Bool)
  -- counters, sampling and self-test (18)
  | pmcFreeze (on : Bool)
  | snapNow
  | arm
  | disarm
  | pmcWin (block : Option Wing) (i : Fin 128) (value : BitVec 48)
  | counterWrap (counter : Fin 6656)
  | pmcSmpWin (w : Wing) (i : Fin 8) (requester : Requester) (fetchOk : Bool)
  | pmcSmpPtr (w : Wing) (next : BitVec 20)
  | lbist (target : Fin 16)
  | mbist (target : Fin 16)
  | lbistAndMbist (target : Fin 16)
  | bistDone (target : Fin 9) (lbistMisr mbistMisr : Word)
  -- the rows the table lists last
  | hotReset
  | registerRead (path : Path) (requester : Requester) (offset : Nat) (width : Nat) (within1us fetchOk : Bool)
  | spdmSessionSetup (peer : Nat) (authenticated : Bool) (rootOk : Bool) (fuseHashesEqual : Bool)
  | larderTrainingDone (w : Wing) (ok : Bool)
  | blockResetDone (source : Source) (ident : BitVec 8)
  | groupSwitchTimeout (group : Fin 46)
  | backgroundCommandDone
  deriving DecidableEq, Repr

end Sys2Proof
end

