-- ==== Sys2Proof/WellFormed.lean ====
section
/-! DEFINITION. Which commands are well formed: the bounds the spec sets on operands that their types do not. -/

namespace Sys2Proof

/-- A room page number fits the largest window, 2^36 pages (R106, R107). -/
def pageOk (page : Nat) : Bool := page < 2 ^ 36

/-- A frame number fits the map entry's field (R117). -/
def frameOk (frame : Nat) : Bool := frame < 2 ^ 26

/-- A media line carries at most four host lines (R201). -/
def storedOk (x : Option (List StoredLine)) : Bool :=
  match x with
  | some ls => ls.length == 4
  | none => true

/-- A register access is of 1 to 8 bytes and lies in its BAR (R92), or carries a 4-byte offset over I3C (R559). -/
def accessOk (path : Path) (offset width : Nat) : Bool :=
  1 ≤ width && width ≤ 8 &&
  (match path with
    | .bar0 => offset < 2 ^ 28
    | .bar2 => offset < 2 ^ 30
    | .bar4 => offset < 2 ^ 25
    | .i3c => offset < 2 ^ 32)

/-- A UIO request carries 1 to 4,096 bytes (R87). -/
def uioOk (length : Nat) : Bool := 1 ≤ length && length ≤ 4096

/-- A device index of a pool is 0 to 4,095 (R22). -/
def memberOk (n : Nat) : Bool := n < 4096

/-- The header of a Landing message names members of a pool (R414). -/
def Hdr.ok (h : Hdr) : Bool := memberOk h.src

/-- A well-formed command. -/
def Instr.wellFormed : Instr → Bool
  | .descriptorRewrite _ _ line _ => line < 2 ^ 27
  | .mediaReadData _ _ frame _ reads arrived => frameOk frame && !reads.isEmpty && storedOk arrived
  | .frameMigrationSwitch _ page | .promotionDone _ page | .larderReadData _ page _ _ _ _ _ => pageOk page
  | .uioRead _ length => uioOk length
  | .uioWrite _ bytes => uioOk bytes.length
  | .biRsp _ _ page _ | .bisnpResend _ _ page _ => pageOk page
  | .hmbFetchData _ page _ _ | .hmbFetchTimeout _ page => pageOk page
  | .registerWrite path _ offset width _ => accessOk path offset width
  | .registerRead path _ offset width _ _ => accessOk path offset width
  | .amendment h _ _ | .amdResult h _ _ | .heartbeat h _ _ _ _ _ _ | .takeover h | .termResponse h _ _ | .generate h _
  | .importKey h _ _ | .exportKey h _ | .destroy h _ | .escrowKey h _ | .nonceRequest h | .clearToken h _ _ _ _ _
  | .snapshotMsg h _ | .migrateBegin h _ _ _ | .migrateCutover h _ _ | .mirrorMsg h _ => h.ok
  | .pageRelease h _ pages => h.ok && pages.all fun p => pageOk p.1
  | .heartbeatMissed peer | .landingRetry peer _ | .spdmSessionSetup peer _ _ _ => memberOk peer
  | .vstbyRise | .vstbyLoss | .strapSample _ | .minimumOffTimeExpiry | .onRequest | .offRequest | .offReqWrite
  | .monitorConversion _ _ | .monitorQualified _ | .railFault _ | .stepDelayExpiry | .stepTimeout
  | .powerDownStepDelay | .seqFaultRetry | .lrefLoss | .groupSwitchDone _ | .floorPlanLoad _ | .pantryInitDone _
  | .recovery | .servingEntry _ | .vinSample _ | .inputFailure | .reservoirExhausted | .vinGood | .wakeN
  | .wakeWrite | .wakeBeat | .slumberReq | .resSenseSample _ | .reservoirReady | .chgLimitExpiry | .reservoirAbsent
  | .resNtcSample _ | .chargeTestStart | .chargeTestFallEnd _ _ | .chargeTestRiseEnd _ | .chargeTestRiseTimeout
  | .testNow | .sensorConversion _ _ | .stageStep | .rbeatEdge _ | .missingBeat | .checkpoint | .cupboardAnchor
  | .atticFlush | .healthSample | .bucketLeak | .sketchDecay _ | .scrubPassStart _ | .ageUnitTick | .counterSnapshot
  | .cadenceFrame _ | .programSlot _ _ _ | .writeBackSelection _ | .doneNLow _ | .statusRecord _ _ _ _ _ _ _
  | .suspendOp _ _ | .bankSuspended _ _ | .tempRead _ _ _ | .alertN _ | .mediaTimeout _ _ _
  | .larderPatrolScrub _ _ _ _ | .larderTempRead _ _ _ | .pacedWriteAdmit _ | .logEntryApply _ | .corridorPacket _ _
  | .laneRepair _ | .linkTraining _ | .trainingRetry | .linkRecovery | .linkL0 | .flitReplay _ | .dlDown | .perstN
  | .retrain | .viral | .memRd _ _ | .memRdData _ | .memWr _ _ _ _ | .memWrPtl _ _ _ _ _ | .memInv _ _
  | .memInvNt _ _ | .requesterFailed _ | .globalPersistentFlush _ | .atomicDescriptor _ _ _ _ | .refillRound
  | .ideKeyProgram _ | .spdmGetMeasurements _ | .msixDestValid _ | .msixUnmask _ | .identify _
  | .getEventRecords _ _ | .clearEventRecords _ _ | .getEventInterruptPolicy _ | .setEventInterruptPolicy _ _
  | .getFwInfo _ | .transferFw _ | .activateFw _ | .getTimestamp _ | .setTimestamp _ | .getSupportedLogs _
  | .getLog _ | .identifyMemoryDevice _ | .getPartitionInfo _ | .getHealthInfo _ | .getAlertConfiguration _
  | .setAlertConfiguration _ _ _ _ | .getPoisonList _ _ | .injectPoison _ _ _ | .clearPoison _ _ _ _ | .sanitize _
  | .secureErase _ | .getDcConfiguration _ | .getDcExtentList _ | .addDcResponse _ _ _ _ _ | .releaseDc _ _ _ _ _
  | .imageBegin _ _ | .imageWrite _ _ _ | .imageCheck _ | .setDecoder _ _ _ _ _ _ _ _ _ | .restoreRequester _ _
  | .getRoomStatus _ _ | .setManagementRequesters _ _ | .poolStatus _ | .poolHealth _ | .deliverAmendment _ _ _
  | .setQuota _ _ _ | .migrateRoom _ _ _ _ | .evacuate _ _ | .poolSnapshot _ _ | .atticRead _ _ _ _
  | .atticClear _ _ _ _ _ _ | .mailboxUnsupported _ _ | .hmbEnable _ _ | .hmbWithdrawal _ | .roomRemovalDone _
  | .unitFenced _ | .unitRebuilt _ | .unitLoss _ | .actingHomeServe _ | .remirrorDone _ | .parityDelta _
  | .parityRecompute _ | .watchdogExpiry _ | .sqTail _ _ _ _ | .cqHead _ _ _ _ | .ringStart _ _ _ | .ringStop _ _ _
  | .ringResume _ _ _ | .ringReset _ _ _ | .semAdd _ _ _ _ | .eventSet _ _ _ _ | .context _ _ _ _ | .dispatch _
  | .copy _ _ | .zero _ | .release _ | .secureRelease _ | .prefetch _ | .pin _ | .unpin _ | .persistBarrier _
  | .migrateOut _ | .migrateIn _ | .run _ _ _ | .move _ _ | .move2d _ _ | .fill _ | .loop _ | .waitInstr _
  | .beatWaitEnd _ | .waitTimeout _ | .signal _ | .persist _ | .commandComplete _ | .lineRequestTimeout _
  | .coalesceTimer _ _ | .pause _ _ | .abort _ | .heartbeatSend | .migrationRoundEnd _ _ | .freezeTimeout | .event _
  | .collectorFault | .rearm | .trapDone _ | .force _ _ | .bucketEnClear _ | .fltEvq _ _ | .evqStallLimit _
  | .atcWin _ _ _ | .cpbData _ _ | .cupboardWriteDone _ | .pmcFreeze _ | .snapNow | .arm | .disarm | .pmcWin _ _ _
  | .counterWrap _ | .pmcSmpWin _ _ _ _ | .pmcSmpPtr _ _ | .lbist _ | .mbist _ | .lbistAndMbist _ | .bistDone _ _ _
  | .hotReset | .larderTrainingDone _ _ | .blockResetDone _ _ | .groupSwitchTimeout _ | .backgroundCommandDone => true

end Sys2Proof
end

