-- ==== Sys2Proof/Decode.lean ====
section
/-! DEFINITION. The command a table word spells. The opcode table gives no row any bits, so no word spells one. -/

namespace Sys2Proof

/-- The command of the word `w` of `nbits` bits: none, since no row of the table has bits. -/
def decodeTableWord (_nbits _w : Nat) : Option Instr := none

end Sys2Proof
end

