-- ==== Sys2Proof/Machine/Maps.lean ====
section
/-! DEFINITION. The operations on sparse tables, small list operations and the byte and checksum helpers. -/

namespace Sys2Proof.Machine

/-- The value at a key. -/
def look {α : Type} : SMap α → Nat → Option α
  | [], _ => none
  | (k', v) :: m, k => if k = k' then some v else look m k

/-- The table with a key set; keys stay strictly rising. -/
def put {α : Type} : SMap α → Nat → α → SMap α
  | [], k, v => [(k, v)]
  | (k', v') :: m, k, v =>
    if k < k' then (k, v) :: (k', v') :: m
    else if k = k' then (k, v) :: m
    else (k', v') :: put m k v

/-- The table with a key removed. -/
def del {α : Type} : SMap α → Nat → SMap α
  | [], _ => []
  | (k', v') :: m, k => if k = k' then m else (k', v') :: del m k

/-- The keys of a table are strictly rising: its canonical form. -/
def SortedKeys {α : Type} : SMap α → Prop
  | [] => True
  | (k, _) :: m => (∀ p ∈ m, k < p.1) ∧ SortedKeys m

/-- The value at a key, or a default. -/
def lookD {α : Type} (m : SMap α) (k : Nat) (d : α) : α := (look m k).getD d

/-- Changes the value at a key, if it is there. -/
def adjust {α : Type} (m : SMap α) (k : Nat) (f : α → α) : SMap α :=
  match look m k with
  | some v => put m k (f v)
  | none => m

/-- The table with every value changed; the keys stay. -/
def mapAll {α : Type} (m : SMap α) (f : Nat → α → α) : SMap α := m.map fun x => (x.1, f x.1 x.2)

/-- Adds without passing the largest value of a width. -/
def satAdd (width v n : Nat) : Nat := min (2 ^ width - 1) (v + n)

/-- The 64-bit word at byte offset `8 * i` of a little-endian block. -/
def wordAt {n : Nat} (b : BitVec n) (i : Nat) : Word := b.extractLsb' (64 * i) 64

/-- A natural number from little-endian bytes. -/
def ofBytes : List Byte → Nat
  | [] => 0
  | b :: bs => b.toNat + 256 * ofBytes bs

/-- `n` little-endian bytes of a number. -/
def toBytes : Nat → Nat → List Byte
  | 0, _ => []
  | n + 1, v => BitVec.ofNat 8 v :: toBytes n (v / 256)

/-- Bytes `first` to `first + n - 1` of a block. -/
def bytesOf {w : Nat} (b : BitVec w) (first n : Nat) : List Byte :=
  (List.range n).map fun i => b.extractLsb' (8 * (first + i)) 8

/-- A line from its bytes, byte 0 lowest; missing bytes are zero. -/
def lineOf (bs : List Byte) : Line := BitVec.ofNat 512 (ofBytes (bs.take 64))

/-- A line with the bytes of a mask taken from another. -/
def mergeLine (old new : Line) (mask : BitVec 64) : Line :=
  let full : Line := BitVec.ofNat 512
    (ofBytes ((List.range 64).map fun i => if mask.getLsbD i then (255 : Byte) else 0))
  (old &&& ~~~full) ||| (new &&& full)

/-- Whether a mask writes every byte of a line. -/
def fullMask (mask : BitVec 64) : Bool := mask == BitVec.allOnes 64

/-- One step of CRC-32 (IEEE 802.3, reflected) over a byte. -/
def crc32Byte (crc : BitVec 32) (b : Byte) : BitVec 32 :=
  (List.range 8).foldl
    (fun c _ => if c.getLsbD 0 then (c >>> 1) ^^^ 0xEDB88320#32 else c >>> 1)
    (crc ^^^ b.setWidth 32)

/-- CRC-32 of a list of bytes (R28, R51, R512). -/
def crc32 (bs : List Byte) : BitVec 32 := ~~~(bs.foldl crc32Byte 0xFFFFFFFF#32)

/-- One step of CRC-16 with polynomial 0x1021 over a byte (R117, R187). -/
def crc16Byte (crc : BitVec 16) (b : Byte) : BitVec 16 :=
  (List.range 8).foldl
    (fun c _ => if c.getLsbD 15 then (c <<< 1) ^^^ 0x1021#16 else c <<< 1)
    (crc ^^^ (b.setWidth 16 <<< 8))

/-- CRC-16 with initial value 0 (R117). -/
def crc16 (bs : List Byte) : BitVec 16 := bs.foldl crc16Byte 0#16

/-- A 16-bit field as a signed number (temperatures and offsets in 0.25 °C). -/
def signed16 (n : Nat) : Int := (BitVec.ofNat 16 n).toInt

/-- A signed number as a field of `w` bits. -/
def unsignedOf (w : Nat) (i : Int) : Nat := (BitVec.ofInt w i).toNat

/-- The bits set in a vector, lowest first. -/
def bitsOf {n : Nat} (b : BitVec n) : List Nat := (List.range n).filter fun i => b.getLsbD i

/-- The first element of a list that passes a test, with the rest of the list. -/
def takeFirst {α : Type} (p : α → Bool) : List α → Option (α × List α)
  | [] => none
  | x :: xs => if p x then some (x, xs) else (takeFirst p xs).map fun (y, ys) => (y, x :: ys)

/-- The element that makes a measure least, the first on ties. -/
def leastBy {α : Type} (f : α → Nat) : List α → Option α
  | [] => none
  | x :: xs =>
    match leastBy f xs with
    | none => some x
    | some y => if f y < f x then some y else some x

/-- Puts an element behind those whose measure is not above its own. -/
def insertBy {α : Type} (f : α → Nat) (x : α) : List α → List α
  | [] => [x]
  | y :: ys => if f x < f y then x :: y :: ys else y :: insertBy f x ys

/-- A list in rising order of a measure, ties in the order they came. -/
def sortBy {α : Type} (f : α → Nat) (l : List α) : List α := l.foldl (fun acc x => insertBy f x acc) []

/-- The floor of the binary logarithm, 0 for 0. -/
def log2 (n : Nat) : Nat := Nat.log2 n

end Sys2Proof.Machine
end

