-- ==== Sys2Proof/Config.lean ====
section
/-! DEFINITION. What one part or its board fixes and the spec leaves open: free values, as constants with no body.
Nothing here can be evaluated; a statement that holds of the model holds whatever these are. Log entries 3 and 4. -/

namespace Sys2Proof.Config

/-- AES-256 keystream of one line (R317): key, room, line number in the room, major, minor. -/
opaque keystream : Key → Nat → Nat → Nat → Nat → Line

/-- The 56-bit GMAC of one line's ciphertext (R318): key, room, line number, major, minor, ciphertext. -/
opaque mac : Key → Nat → Nat → Nat → Nat → Line → Mac

/-- The `n`th key the Hall random-number generator gives (R311). -/
opaque randomKey : Nat → Key

/-- The `n`th random line a secure overwrite programs (R131). -/
opaque randomLine : Nat → Line

/-- The `n`th 16-byte nonce (R426). -/
opaque nonce : Nat → BitVec 128

/-- AES key wrap of a key under a wrapping key (R311, R425). -/
opaque wrap : Key → Key → BitVec 320

/-- The inverse of `wrap`; none when the integrity check of the wrap fails. -/
opaque unwrap : Key → BitVec 320 → Option Key

/-- SHA-384 (R29). -/
opaque sha384 : List Byte → BitVec 384

/-- ECDSA P-384 verification of a digest by a 97-byte public key and a 96-byte signature (R29). -/
opaque ecdsaVerify : List Byte → List Byte → BitVec 384 → Bool

/-- The Kamfel public key in the Hall ROM (R45). -/
opaque kamfelKey : List Byte

/-- The fuse key hashes, one for each slot; none where the slot is not programmed (R29, R62). -/
opaque fuseKeyHash : Nat → Option (BitVec 384)

/-- The fuse revocation bit of each slot (R62). -/
opaque fuseRevoked : Nat → Bool

/-- The 256-bit device root key and the wrap and metadata keys it gives (R311). -/
opaque wrapKey : Key
opaque metadataKey : Key

/-- The fuse trim counts of a thermal sensor at 25 °C and at 105 °C (R468). -/
opaque trim25 : Nat → Nat
opaque trim105 : Nat → Nat

/-- The temperature, in 0.25 °C, that the beta equation gives for a resistance in ohms, with NTC_B, NTC_NOM (R461). -/
opaque ntcTemp : Nat → Nat → Nat → Int

/-- Fuse windows of MON0 to MON3 in the fixed Hall sequence: low and high threshold in 2 mV steps. -/
opaque fuseWindow : Nat → Nat × Nat

/-- The enables of the DRAM rails and of DDR5 RESET_n, which the Porch holds in SLUMBER (R441); the spec does not number
them. -/
opaque dramEnables : BitVec 48

/-- The hash that picks a Larder set for a room and a wing-local index, and the sketch entry (R159, R164). -/
opaque setHash : Nat → Nat → Nat

/-- The hashes that pick a Pantry set (R146) and a directory set (R265): room, page and sector; room, wing-local index and
line. -/
opaque pantryHash : Nat → Nat → Nat → Nat
opaque dirHash : Nat → Nat → Nat → Nat

/-- A value the spec leaves open, fresh at each use: the argument is the state's counter of uses. -/
opaque freeValue : Nat → Word

/-- The 64 bytes that a read of poison carries, which the spec does not give: fresh at each use. -/
opaque poisonData : Nat → Line

/-- The content of a Cupboard record page whose layout the spec does not give (R517): page, use. -/
opaque recordPage : Nat → Nat → BitVec 512

/-- The PBR ID by which a pool device reaches another one, by pool index, and the address at which a room's window on
that device decodes for this one (R73, R384, R429): pool index, room. -/
opaque peerId : Nat → Nat
opaque peerBase : Nat → Nat → Nat

/-- The `n`th amendment the pool manager forms itself, for a migration (R429, R432, R433). -/
opaque poolAmendment : Nat → List Byte

/-- Whether a slot of the Attic area lies in a stripe that some lost wings make unreadable (R502): the lost wings, the
partition, the slot. -/
opaque atticLost : List Nat → Nat → Nat → Bool

/-- The root reference shown in ROOM_ROOT, whose format the spec leaves open (R144). -/
opaque rootRef : Nat → Nat → Word

/-- The part's Kamfel identity words: PCI vendor ID and part number (R101). -/
opaque vendorId : BitVec 16
opaque partNumber : Nat → Word

/-- A measurement block SPDM reports (R341), as a digest of the words it covers. -/
opaque measurement : Nat → List Word → BitVec 384

/-- The signature the identity key gives over a digest (R341). -/
opaque sign : BitVec 384 → BitVec 768

end Sys2Proof.Config
end

