-- ==== Sys2Proof/Machine/Fields.lean ====
section
/-! DEFINITION. The register fields of the device: one constructor for each field the register tables of the
spec list (02 to 19), its place, width, type and reset (R4 to R7, R552), and the registers each block holds. -/

namespace Sys2Proof.Machine

/-- The field types of R6. -/
inductive FldType where
  | ro | rw | rwf | wo | rs
  deriving DecidableEq, Repr

/-- Where a field's value after reset comes from (R552). -/
inductive ResetKind where
  | num (n : Nat) | floorPlan | porch | cupboard | checkpoint | fuse | poolRecord | slotTable | source
  deriving DecidableEq, Repr

/-- A field's lowest bit, width, type and reset. -/
structure FldDesc where
  lo : Nat
  width : Nat
  type : FldType
  reset : ResetKind
  deriving DecidableEq, Repr

/-- The register blocks of R540 and R541, with the room table window (R144) and the MSI-X destination window (R542). -/
inductive Block where
  | hallFp | hallHp | hallQos | msixDest | roomWin | hallHmb | pan | lar | hallDirty | cel | hallMedia | prcRt | wing | home | prcRes | hallDrain | lks | lksW | hallSvc | str | ring | lnd | hallState | fbx | prcIn | chm | flt | fltW | atc | cpb | pmc | pmcW | bst | cor | corW
  deriving DecidableEq, Repr

/-- One constructor for each register field of the spec, named REGISTER_FIELD. A field of a register that exists
several times is one constructor; its instances are told apart by an index. -/
inductive Fld where
  | HALL_FP_STATUS_ACTIVE | HALL_FP_STATUS_A_CAUSE | HALL_FP_STATUS_B_CAUSE | HALL_FP_STATUS_REPLAY_STOPPED
  | HALL_FP_STATUS_LOG_ERASING | HALL_FP_SEQ_IMAGE_SEQ | HALL_FP_ID0_ID_LO | HALL_FP_ID1_ID_HI | HALL_AMD_SEQ
  | HALL_AMD_STATUS_BUSY | HALL_AMD_STATUS_RESULT | HALL_AMD_STATUS_CAUSE | HALL_AMD_STATUS_LAST_SEQ
  | HALL_AMD_LOG_USED | HALL_AMD_LOG_ENTRIES | HALL_FP_KEYS_SLOT_VALID | HALL_FP_KEYS_SLOT_REVOKED
  | HALL_FP_KEYS_KEY_USED | HALL_FLASH_CTRL_SINGLE_ONLY | HALL_FLASH_CTRL_CLK_DIV | HALL_FLASH_CTRL_MODE
  | HALL_FLASH_CTRL_WP_ACTIVE | HALL_HP_LINK_UP | HALL_HP_LINK_RATE | HALL_HP_LINK_WIDTH | HALL_HP_LINK_LOPT
  | HALL_HP_LINK_PBR | HALL_HP_LINK_IDE_MEM | HALL_HP_LINK_IDE_IO | HALL_HP_LINK_VIRAL_IN | HALL_HP_LINK_VIRAL_OUT
  | HALL_HP_CTRL_MAX_RATE | HALL_HP_CTRL_RETRAIN | HALL_HP_CTRL_CONTAIN | HALL_HP_CTRL_MPS | HALL_HP_MGMT_REQ0
  | HALL_HP_MGMT_REQ1 | HALL_HP_MGMT_REQ2 | HALL_HP_MGMT_REQ3 | HALL_HP_MGMT_VALID0 | HALL_HP_MGMT_VALID1
  | HALL_HP_MGMT_VALID2 | HALL_HP_MGMT_VALID3 | HALL_HP_ERR_REPLAYS | HALL_HP_ERR_LINK_DOWNS | HALL_HP_ERR_REFUSED
  | HALL_HP_ERR_BI_FAILED | HALL_QOS_CTRL_ROUND | HALL_QOS_CTRL_TOKEN_SCALE | HALL_MSIX_DEST_DPID
  | HALL_MSIX_DEST_VALID | ROOM_CFG_CLASS | ROOM_CFG_ATTR | ROOM_CFG_TIER | ROOM_CFG_KEY_SLOT | ROOM_CFG_DC_REGION
  | ROOM_CFG_WEIGHT | ROOM_BASE | ROOM_SIZE | ROOM_CREDITS_LIMIT | ROOM_CREDITS_IN_USE | ROOM_STATE
  | ROOM_STATE_DEGRADED | ROOM_STATE_READ_ONLY | ROOM_STATE_LEVELS | ROOM_STATE_HOLDERS | ROOM_ROOT
  | ROOM_PAGES_COUNT | ROOM_POISON_COUNT | ROOM_DIRTY_COUNT | ROOM_LARDER_COUNT | ROOM_RELEASES_PLAIN
  | ROOM_RELEASES_SECURE | ROOM_FAULTS_ALLOC_FAIL | ROOM_FAULTS_HMB_LEAVES | ROOM_FAULTS_DEFERRED | ROOM_HOLD
  | ROOM_ACL | HALL_HMB_CTRL_ENABLE | HALL_HMB_CTRL_OWNER | HALL_HMB_BASE_ADDR | HALL_HMB_SIZE_SLOTS
  | HALL_HMB_STATUS_ACTIVE | HALL_HMB_STATUS_WITHDRAWN | HALL_HMB_STATUS_FAILED | HALL_HMB_STATUS_LEAVES
  | HALL_HMB_STATUS_FAILS | PAN_CFG_MODE | PAN_CFG_WAYS | PAN_CFG_META_MIN_WAYS | PAN_CFG_SECTOR_FILL
  | PAN_STATUS_INIT_DONE | PAN_STATUS_DIRTY_HELD | PAN_STATUS_FAILED | PAN_ERR_CORRECTED | PAN_ERR_REFETCHED
  | PAN_ERR_DIRTY_LOST | PAN_ERR_TAG_PARITY | PAN_ERR_LOC_SET | PAN_ERR_LOC_WAY | PAN_ERR_LOC_LINE
  | PAN_ERR_LOC_KIND | PAN_TIER_PROMOTE_READS | PAN_TIER_PROMOTE_WRITES | PAN_TIER_DEMOTE_MAX | PAN_TIER_DECAY
  | PAN_TIER_FREE_LOW | PAN_TIER_ENABLE | PAN_TIER_STAT_PROMOTIONS | PAN_TIER_STAT_DEMOTIONS | LAR_CFG_SPEED
  | LAR_CFG_RANKS | LAR_CFG_DENSITY | LAR_CFG_TOPO | LAR_CFG_CAPACITY | LAR_CFG_META_SHARE | LAR_CFG_DIR_SHARE
  | LAR_CTRL_SCRUB_HOURS | LAR_CTRL_WB_HIGH | LAR_CTRL_WB_AGE | LAR_STATUS_TRAINED | LAR_STATUS_FAST_TRAIN
  | LAR_STATUS_HOT_REFRESH | LAR_STATUS_SELF_REFRESH | LAR_STATUS_OUT_OF_SERVICE | LAR_STATUS_PIN_SHORT
  | LAR_SLOTS | LAR_DIRTY_OWN | LAR_SLOTS_FREE | LAR_DIRTY_MIRROR | LAR_ERR_CORRECTED | LAR_ERR_UNCORR_CLEAN
  | LAR_ERR_UNCORR_DIRTY | LAR_ERR_POISONED | LAR_ERR_LOC_BURST | LAR_ERR_LOC_SUBCH | LAR_ERR_LOC_DEVICE
  | LAR_ERR_LOC_RANK | LAR_ERR_LOC_KIND | HALL_DIRTY_AMOUNT_PAGES | HALL_DIRTY_BUDGET_EFFECTIVE
  | HALL_DIRTY_BUDGET_LIMITED_BY | HALL_DIRTY_PACE_PACING | HALL_DIRTY_PACE_WAITING | HALL_DIRTY_PACE_PACED
  | CEL_CTRL_BG_ERASE | CEL_CTRL_PROG_SLOTS | CEL_CTRL_SUSPEND_EN | CEL_CTRL_MIG_SLOTS | CEL_CTRL_TEMP_PERIOD
  | CEL_STATUS_READY | CEL_STATUS_PRESENT | CEL_STATUS_FAILED | CEL_STATUS_OUT_OF_SERVICE | CEL_STATUS_WRITE_HOLD
  | CEL_STATUS_ALERT | CEL_STATUS_BUS_FAULT | CEL_FRAMES0_IN_USE | CEL_FRAMES1_SPARE | CEL_FRAMES0_FREE
  | CEL_FRAMES1_RETIRED | CEL_WEAR_MAX | CEL_WEAR_MEAN | CEL_ERR0_CORRECTED | CEL_ERR0_RETRIED | CEL_ERR0_UNCORR
  | CEL_ERR1_PROG_FAIL | CEL_ERR1_ERASE_FAIL | CEL_ERR1_BUS_CRC | CEL_ERR1_TIMEOUT | CEL_ERR_LOC_FRAME
  | CEL_ERR_LOC_PKG | CEL_ERR_LOC_LINE | CEL_ERR_LOC_KIND | CEL_ERR_LOC_BITS | CEL_TEMP0 | CEL_TEMP0_TEMP1
  | CEL_TEMP0_TEMP2 | CEL_TEMP0_TEMP3 | CEL_TEMP1_TEMP4 | CEL_TEMP1_TEMP5 | CEL_TEMP1_TEMP6 | CEL_TEMP1_TEMP7
  | CEL_HIST_COUNT | CEL_ID_VENDOR | CEL_ID_DEVICE | CEL_ID_SERIAL | HALL_MEDIA_SPARE_SPARES
  | HALL_MEDIA_SPARE_FLOOR | HALL_MEDIA_STATE_READ_ONLY | HALL_MEDIA_STATE_NO_SPARE | HALL_MEDIA_STATE_TARGET
  | HALL_MEDIA_WEAR_MEAN | HALL_MEDIA_WEAR_MAX | HALL_MEDIA_RETIRED | HALL_JUNCTION_HIST_COUNT | PRC_RT_BEAT
  | PRC_RT_FRAC | PRC_RT_FRAC_PERIOD | PRC_RT_STATE | PRC_RT_STATE_MISSING | PRC_RT_STATE_CORR_USED
  | PRC_RT_STATE_STEPS | PRC_RT_STATE_GLITCHES | PRC_RT_EPOCH_LAST_E | PRC_RT_PHASE | PRC_RT_CORR_A_FIRST
  | PRC_RT_CORR_A_LAST | PRC_RT_CORR_B_SHIFT | PRC_RT_CORR_B_SPREAD | WING_CAL_SCRUB_PERIOD | WING_CAL_CADENCE_DIV
  | WING_CAL_REFRESH_SLOTS | WING_CAL_PROG_MA | WING_DRIFT_SEARCHES | WING_DRIFT_SPAN_READS | WING_DRIFT_SETTLES
  | WING_DRIFT_SEARCH_FAIL | WING_REFRESH_QUEUED | WING_REFRESH_DONE | WING_SCRUB_PROGRESS | WING_SCRUB_SCRUB_LATE
  | HOME_CTRL_OWNED_EN | HOME_CTRL_QUEUE_LIMIT | HOME_STATUS_TRACKERS | HOME_STATUS_QUEUED | HOME_STATUS_DIR_LOST
  | HOME_DIR_ENTRIES | HOME_DIR_COARSE | HOME_DIR_STAT_EVICTIONS | HOME_DIR_STAT_CHECK_FAIL | HOME_BISNP_SENT
  | HOME_BISNP_FORWARDS | HOME_ATOMIC_EXECUTED | HOME_ATOMIC_FAILED | HOME_ATOMIC_REFUSED | HOME_HOLDERS_HOLD
  | PRC_RES_CFG0_ICHG | PRC_RES_CFG0_V_MIN | PRC_RES_CFG0_DRAIN_W | PRC_RES_CFG0_TEST_DROP | PRC_RES_CFG0_LOCK
  | PRC_RES_CFG1_SENSE_GAIN | PRC_RES_CFG1_CT_PERIOD | PRC_RES_CFG1_TEST_NOW | PRC_RES_CFG1_CHG_LIMIT
  | PRC_RES_STATUS_STATE | PRC_RES_STATUS_CHG_EN | PRC_RES_STATUS_VOLTS | PRC_RES_STATUS_TEMP
  | PRC_RES_STATUS_FAIL_CAUSE | PRC_RES_STATUS_INCONCLUSIVE | PRC_RES_MEAS_CAP | PRC_RES_MEAS_ENERGY
  | PRC_RES_TEST_LAST_BEAT | PRC_RES_TEST_TESTS | HALL_DIRTY_CALC_COMPUTED | HALL_DIRTY_CALC_WRITE_THROUGH
  | HALL_DIRTY_CALC_FLOOR | HALL_DIRTY_CALC_LOG_PENDING | HALL_DRAIN_STATUS_STEP | HALL_DRAIN_STATUS_LAST_KIND
  | HALL_DRAIN_STATUS_LAST_STOP | HALL_DRAIN_STATUS_DIRTY_STOPS | HALL_DRAIN_LAST_SKIPPED
  | HALL_DRAIN_LAST_DRAIN_MS | HALL_DRAIN_RECOVERY_POISONED | HALL_DRAIN_RECOVERY_RECOVERY_MS
  | LKS_STATUS_EPH_READY | LKS_STATUS_LOCKDOWN | LKS_STATUS_TREE_LOST | LKS_STATUS_SLOTS_LOADED | LKS_ANCHOR_A
  | LKS_CKPT_LAST_BEAT | LKS_LOCK_LOC_ROOM | LKS_LOCK_LOC_INDEX | LKS_LOCK_LOC_LINE | LKS_LOCK_LOC_KIND
  | LKS_LOCK_LOC_WING | LKS_CTR_STAT_REENCRYPT | LKS_CTR_STAT_SEALED | LKS_CTR_STAT_SKIPS | LKS_SLOT_LOADED
  | LKS_TREE_COPY_USED | LKS_TREE_REWRITTEN | LKS_TREE_LOST | LKS_TREE_LOC_ROOM | LKS_TREE_LOC_INDEX
  | LKS_TREE_LOC_LEVEL | HALL_SVC_STATE | HALL_SVC_STALLED | HALL_SVC_REMIRROR | HALL_SVC_CAUSE
  | HALL_SVC_PROGRESS | HALL_SVC_STRIPES | WING_BRACE_REBUILD_SLOTS | WING_BRACE_ACTING | WING_BRACE_TAKEOVER_DIR
  | WING_BRACE_RECOMPUTE | WING_BRACE_STAT_RECONSTRUCTED | WING_BRACE_STAT_UNSETTLED | WING_BRACE_STAT_DOUBLE
  | STR_CTRL_PAUSE | STR_CTRL_ABORT | STR_CTRL_MAX_INFLIGHT | STR_STATUS_STATE | STR_STATUS_REQUESTER
  | STR_STATUS_RING | STR_STATUS_ROOM | STR_STATUS_INFLIGHT | STR_PC | STR_PC_WAITING | STR_STAT_BYTES
  | STR_STAT_ERRORS | RING_SEL_REQUESTER | RING_SEL_RING | RING_ERR_DB_IGNORED | RING_ERR_BAD_CONTEXT
  | RING_ERR_FOREIGN | RING_CTX_WORD | LND_STATE_ROLE | LND_STATE_INDEX | LND_STATE_MANAGER_SEEN
  | LND_STATE_STANDBY_SEEN | LND_STATE_MIRROR_STALE | LND_STATE_EVACUATING | LND_TERM | LND_CTRL_RETRY_MS
  | LND_CTRL_FREEZE_MS | LND_CTRL_MAX_ROUNDS | LND_CTRL_EVAC_AUTO | LND_MIG_ROOM | LND_MIG_STEP | LND_MIG_SOURCE
  | LND_MIG_ROUND | LND_MIG_PEER | LND_ERR_RETRIES | LND_ERR_DUPLICATES | LND_ERR_TERM_REJECTS | LND_ERR_MISSED
  | HALL_STATE | HALL_STATE_HALT_CAUSE | HALL_STATE_PREVIOUS | HALL_STATE_UNCLEAN_RAIL | FBX_CTRL_OFF_REQ
  | FBX_SEQ_STEP | FBX_SEQ_HALL | FBX_SEQ_PHASE | FBX_SEQ_RETRIES_LEFT | FBX_SEQ_OFF_LATCHED | FBX_SEQ_ON_LATCHED
  | FBX_SEQ_FAULT_MON | FBX_SEQ_FAULT_KIND | FBX_SNAP_TIME_BEAT | FBX_SNAP_TIME_VALID | FBX_PD_ON
  | FBX_PD_SWITCHING | FBX_MON_READING | FBX_MON_STATE | FBX_MON_OUTSIDE | FBX_MON_LOW | FBX_MON_HIGH
  | FBX_MON_GLITCH | FBX_MON_QUAL | FBX_SNAP_READING | FBX_SNAP_OUTSIDE | FBX_RAILCNT_LOW_FAULTS
  | FBX_RAILCNT_HIGH_FAULTS | FBX_RAILCNT_SEQ_TIMEOUTS | PRC_IN_CFG_VIN_FAIL | PRC_IN_CFG_VIN_OK
  | PRC_IN_CFG_FAIL_TIME | PRC_IN_CFG_HOLDOFF_MS | PRC_IN_STATUS_VIN | PRC_IN_STATUS_VIN_GOOD
  | PRC_IN_STATUS_WAKE_N | PRC_IN_STATUS_SR_BROKEN | PRC_IN_STATUS_VSTBY | PRC_IN_STATUS_DIPS
  | PRC_IN_STATUS_FAILS | PRC_SLUMBER_SLUMBER_REQ | PRC_SLUMBER_WAKE | PRC_SLUMBER_WAKE_ARM | PRC_SLUMBER_REFUSED
  | PRC_WAKE_BEAT | PRC_NTC_NTC_B | PRC_NTC_NTC_NOM | PRC_NTC_NTC_PULL | CHM_LEVELS_WARN | CHM_LEVELS_THROTTLE
  | CHM_LEVELS_SHUTDOWN | CHM_LEVELS_HYST | CHM_WIN0_MEDIA_LO | CHM_WIN0_MEDIA_HI | CHM_WIN0_DRAIN_LO
  | CHM_WIN0_DRAIN_HI | CHM_WIN1_CHG_LO | CHM_WIN1_CHG_HI | CHM_STATUS_WARN | CHM_STATUS_THROTTLE
  | CHM_STATUS_SHUTDOWN | CHM_STATUS_LATCH | CHM_STATUS_STAGE | CHM_STATUS_HOTTEST | CHM_STATUS_TEMP
  | CHM_CTRL_STAGE_MS | CHM_CTRL_MAX_STAGE | CHM_TS_TEMP | CHM_TS_VALID | CHM_TS_FAST | CHM_TS_COUNT
  | FLT_CTRL_REARM | FLT_CTRL_TRAP_DONE | FLT_STATUS_FIRST_VALID | FLT_STATUS_ERR_N | FLT_STATUS_TRAP_PENDING
  | FLT_STATUS_ACTIVE | FLT_FIRST_WORD | FLT_LAST_WORD | FLT_CNT_EVENTS | FLT_CNT_MERGED | FLT_EVQ_ITEM
  | FLT_EVQ_CFG_LIMIT | FLT_EVQ_CFG_DEPTH_USED | FLT_EVQ_CFG_LOST | FLT_SRC_STATUS | FLT_SRC_FORCE
  | FLT_SRC_BUCKET_EN | FLT_SRC_FIXED | FLT_SRC_REACTION | FLT_SRC_ERR_N | FLT_SRC_LEVEL | FLT_SRC_COUNT
  | FLT_SRC_DEPTH | FLT_SRC_LEAK | FLT_SRC_SEVERITY | FLT_WCTRL_TRAP_CORE | FLT_WCTRL_TRAP_DONE
  | FLT_WCTRL_TRAP_PENDING | ATC_STATUS_BUF_BYTES | ATC_STATUS_FLUSHING | ATC_STATUS_AREA_LOST
  | ATC_STATUS_FLUSHES | ATC_SEL_PART | ATC_SEL_SLOT | ATC_PART_SLOTS | ATC_PART_USED | ATC_PART_DROPPED
  | ATC_PART_CLEARS | ATC_WIN_WORD | CPB_STATUS_BUSY | CPB_STATUS_QUEUED | CPB_STATUS_WORN | CPB_STATUS_SATURATED
  | CPB_STATUS_MAP_LOST | CPB_SEL_PAGE | CPB_WEAR_WRITE_FAILS | CPB_WEAR_WORN_PAGES | CPB_DATA_WORD
  | CPB_CNT_VALUE | PMC_CTRL_FREEZE | PMC_CTRL_SNAP_NOW | PMC_CTRL_ARM | PMC_CTRL_DISARM | PMC_CTRL_FREEZE_AT_SNAP
  | PMC_SNAP_BEAT | PMC_SNAP_STATUS_ARMED | PMC_SNAP_STATUS_LATE | PMC_SNAP_STATUS_SKIPPED | PMC_SNAP_STATUS_BEAT
  | PMC_SEL_BANK | PMC_SEL_SHADOW | PMC_OVF_MSG_REQUESTER | PMC_OVF_MSG_VALID | PMC_OVF_MSG_DATA | PMC_OVF_ADDR
  | PMC_PENDING | PMC_SMP_CFG_ENABLE | PMC_SMP_CFG_RATE_LOG2 | PMC_SMP_CFG_WRAP | PMC_SMP_CFG_ON_OVF
  | PMC_SMP_CFG_ROOM | PMC_SMP_CFG_ROOM_ONLY | PMC_SMP_CFG_OVF_SRC | PMC_OVF_EN | PMC_OVF | PMC_WIN_VALUE
  | PMC_SMP_PTR_NEXT | PMC_SMP_PTR_FULL | PMC_SMP_PTR_SKIPPED | PMC_SMP_SEL_RECORD | PMC_SMP_WIN_WORD
  | BST_CMD_TARGET | BST_CMD_KIND | BST_STATUS_STATE | BST_STATUS_KIND | BST_STATUS_REFUSE | BST_MISR
  | BST_ECC_PANTRY | BST_ECC_LARDER | BST_ECC_CELLAR | BST_ECC_MAC | BST_ECC_CORRIDOR | BST_ECC_CUPBOARD
  | BST_ECC_FIXED | BST_ECC_DONE | COR_LINK_UP | COR_LINK_LANES | COR_LINK_REPAIRED | COR_LINK_REPLAYS
  | COR_LINK_TAKEDOWNS
  deriving DecidableEq, Repr

/-- Lowest bit, width, type and reset of each field, from the register tables. -/
def Fld.desc : Fld → FldDesc
  | .HALL_FP_STATUS_ACTIVE => ⟨0, 2, .ro, .num 0⟩
  | .HALL_FP_STATUS_A_CAUSE => ⟨8, 8, .ro, .num 0⟩
  | .HALL_FP_STATUS_B_CAUSE => ⟨16, 8, .ro, .num 0⟩
  | .HALL_FP_STATUS_REPLAY_STOPPED => ⟨24, 1, .ro, .num 0⟩
  | .HALL_FP_STATUS_LOG_ERASING => ⟨25, 1, .ro, .num 0⟩
  | .HALL_FP_SEQ_IMAGE_SEQ => ⟨0, 64, .ro, .num 0⟩
  | .HALL_FP_ID0_ID_LO => ⟨0, 64, .ro, .num 0⟩
  | .HALL_FP_ID1_ID_HI => ⟨0, 64, .ro, .num 0⟩
  | .HALL_AMD_SEQ => ⟨0, 64, .ro, .num 0⟩
  | .HALL_AMD_STATUS_BUSY => ⟨0, 1, .ro, .num 0⟩
  | .HALL_AMD_STATUS_RESULT => ⟨1, 2, .ro, .num 0⟩
  | .HALL_AMD_STATUS_CAUSE => ⟨8, 8, .ro, .num 0⟩
  | .HALL_AMD_STATUS_LAST_SEQ => ⟨16, 48, .ro, .num 0⟩
  | .HALL_AMD_LOG_USED => ⟨0, 32, .ro, .num 0⟩
  | .HALL_AMD_LOG_ENTRIES => ⟨32, 13, .ro, .num 0⟩
  | .HALL_FP_KEYS_SLOT_VALID => ⟨0, 4, .ro, .fuse⟩
  | .HALL_FP_KEYS_SLOT_REVOKED => ⟨4, 4, .ro, .fuse⟩
  | .HALL_FP_KEYS_KEY_USED => ⟨8, 2, .ro, .num 0⟩
  | .HALL_FLASH_CTRL_SINGLE_ONLY => ⟨0, 1, .rw, .num 0⟩
  | .HALL_FLASH_CTRL_CLK_DIV => ⟨8, 8, .rw, .num 64⟩
  | .HALL_FLASH_CTRL_MODE => ⟨16, 2, .ro, .num 0⟩
  | .HALL_FLASH_CTRL_WP_ACTIVE => ⟨18, 1, .ro, .num 1⟩
  | .HALL_HP_LINK_UP => ⟨0, 1, .ro, .num 0⟩
  | .HALL_HP_LINK_RATE => ⟨1, 2, .ro, .num 0⟩
  | .HALL_HP_LINK_WIDTH => ⟨3, 2, .ro, .num 0⟩
  | .HALL_HP_LINK_LOPT => ⟨5, 1, .ro, .num 0⟩
  | .HALL_HP_LINK_PBR => ⟨6, 1, .ro, .num 0⟩
  | .HALL_HP_LINK_IDE_MEM => ⟨7, 1, .ro, .num 0⟩
  | .HALL_HP_LINK_IDE_IO => ⟨8, 4, .ro, .num 0⟩
  | .HALL_HP_LINK_VIRAL_IN => ⟨12, 1, .ro, .num 0⟩
  | .HALL_HP_LINK_VIRAL_OUT => ⟨13, 1, .ro, .num 0⟩
  | .HALL_HP_CTRL_MAX_RATE => ⟨0, 2, .rw, .num 3⟩
  | .HALL_HP_CTRL_RETRAIN => ⟨2, 1, .wo, .num 0⟩
  | .HALL_HP_CTRL_CONTAIN => ⟨3, 1, .rw, .num 0⟩
  | .HALL_HP_CTRL_MPS => ⟨8, 8, .rw, .num 2⟩
  | .HALL_HP_MGMT_REQ0 => ⟨0, 12, .ro, .floorPlan⟩
  | .HALL_HP_MGMT_REQ1 => ⟨16, 12, .ro, .floorPlan⟩
  | .HALL_HP_MGMT_REQ2 => ⟨32, 12, .ro, .floorPlan⟩
  | .HALL_HP_MGMT_REQ3 => ⟨48, 12, .ro, .floorPlan⟩
  | .HALL_HP_MGMT_VALID0 => ⟨12, 4, .ro, .floorPlan⟩
  | .HALL_HP_MGMT_VALID1 => ⟨28, 4, .ro, .floorPlan⟩
  | .HALL_HP_MGMT_VALID2 => ⟨44, 4, .ro, .floorPlan⟩
  | .HALL_HP_MGMT_VALID3 => ⟨60, 4, .ro, .floorPlan⟩
  | .HALL_HP_ERR_REPLAYS => ⟨0, 24, .ro, .num 0⟩
  | .HALL_HP_ERR_LINK_DOWNS => ⟨24, 16, .ro, .num 0⟩
  | .HALL_HP_ERR_REFUSED => ⟨40, 16, .ro, .num 0⟩
  | .HALL_HP_ERR_BI_FAILED => ⟨56, 8, .ro, .num 0⟩
  | .HALL_QOS_CTRL_ROUND => ⟨0, 16, .rw, .num 1024⟩
  | .HALL_QOS_CTRL_TOKEN_SCALE => ⟨16, 4, .rw, .num 8⟩
  | .HALL_MSIX_DEST_DPID => ⟨0, 12, .rw, .num 0⟩
  | .HALL_MSIX_DEST_VALID => ⟨12, 1, .rw, .num 0⟩
  | .ROOM_CFG_CLASS => ⟨0, 1, .rwf, .num 0⟩
  | .ROOM_CFG_ATTR => ⟨1, 5, .rwf, .num 0⟩
  | .ROOM_CFG_TIER => ⟨6, 2, .rwf, .num 0⟩
  | .ROOM_CFG_KEY_SLOT => ⟨8, 12, .rwf, .num 0⟩
  | .ROOM_CFG_DC_REGION => ⟨20, 3, .rwf, .num 0⟩
  | .ROOM_CFG_WEIGHT => ⟨24, 11, .rwf, .num 0⟩
  | .ROOM_BASE => ⟨0, 56, .rwf, .num 0⟩
  | .ROOM_SIZE => ⟨0, 56, .rwf, .num 0⟩
  | .ROOM_CREDITS_LIMIT => ⟨0, 17, .rwf, .num 0⟩
  | .ROOM_CREDITS_IN_USE => ⟨32, 17, .ro, .num 0⟩
  | .ROOM_STATE => ⟨0, 2, .ro, .num 0⟩
  | .ROOM_STATE_DEGRADED => ⟨2, 1, .ro, .num 0⟩
  | .ROOM_STATE_READ_ONLY => ⟨3, 1, .ro, .num 0⟩
  | .ROOM_STATE_LEVELS => ⟨4, 2, .ro, .num 0⟩
  | .ROOM_STATE_HOLDERS => ⟨16, 13, .ro, .num 0⟩
  | .ROOM_ROOT => ⟨0, 64, .ro, .num 0⟩
  | .ROOM_PAGES_COUNT => ⟨0, 37, .ro, .num 0⟩
  | .ROOM_POISON_COUNT => ⟨0, 37, .ro, .num 0⟩
  | .ROOM_DIRTY_COUNT => ⟨0, 37, .ro, .num 0⟩
  | .ROOM_LARDER_COUNT => ⟨0, 37, .ro, .num 0⟩
  | .ROOM_RELEASES_PLAIN => ⟨0, 32, .ro, .num 0⟩
  | .ROOM_RELEASES_SECURE => ⟨32, 32, .ro, .num 0⟩
  | .ROOM_FAULTS_ALLOC_FAIL => ⟨0, 32, .ro, .num 0⟩
  | .ROOM_FAULTS_HMB_LEAVES => ⟨32, 24, .ro, .num 0⟩
  | .ROOM_FAULTS_DEFERRED => ⟨56, 8, .ro, .num 0⟩
  | .ROOM_HOLD => ⟨0, 64, .ro, .num 0⟩
  | .ROOM_ACL => ⟨0, 64, .rwf, .num 0⟩
  | .HALL_HMB_CTRL_ENABLE => ⟨0, 1, .rw, .num 0⟩
  | .HALL_HMB_CTRL_OWNER => ⟨16, 12, .rw, .num 0⟩
  | .HALL_HMB_BASE_ADDR => ⟨12, 52, .rw, .num 0⟩
  | .HALL_HMB_SIZE_SLOTS => ⟨0, 25, .rw, .num 0⟩
  | .HALL_HMB_STATUS_ACTIVE => ⟨0, 1, .ro, .num 0⟩
  | .HALL_HMB_STATUS_WITHDRAWN => ⟨1, 1, .ro, .num 1⟩
  | .HALL_HMB_STATUS_FAILED => ⟨2, 1, .ro, .num 0⟩
  | .HALL_HMB_STATUS_LEAVES => ⟨8, 25, .ro, .num 0⟩
  | .HALL_HMB_STATUS_FAILS => ⟨48, 16, .ro, .num 0⟩
  | .PAN_CFG_MODE => ⟨0, 1, .rwf, .num 0⟩
  | .PAN_CFG_WAYS => ⟨1, 5, .ro, .num 16⟩
  | .PAN_CFG_META_MIN_WAYS => ⟨8, 4, .rw, .num 4⟩
  | .PAN_CFG_SECTOR_FILL => ⟨12, 1, .rw, .num 1⟩
  | .PAN_STATUS_INIT_DONE => ⟨0, 1, .ro, .num 0⟩
  | .PAN_STATUS_DIRTY_HELD => ⟨1, 1, .ro, .num 0⟩
  | .PAN_STATUS_FAILED => ⟨2, 1, .ro, .num 0⟩
  | .PAN_ERR_CORRECTED => ⟨0, 16, .ro, .num 0⟩
  | .PAN_ERR_REFETCHED => ⟨16, 16, .ro, .num 0⟩
  | .PAN_ERR_DIRTY_LOST => ⟨32, 16, .ro, .num 0⟩
  | .PAN_ERR_TAG_PARITY => ⟨48, 16, .ro, .num 0⟩
  | .PAN_ERR_LOC_SET => ⟨0, 13, .ro, .num 0⟩
  | .PAN_ERR_LOC_WAY => ⟨13, 5, .ro, .num 0⟩
  | .PAN_ERR_LOC_LINE => ⟨18, 2, .ro, .num 0⟩
  | .PAN_ERR_LOC_KIND => ⟨20, 4, .ro, .num 0⟩
  | .PAN_TIER_PROMOTE_READS => ⟨0, 8, .rw, .num 8⟩
  | .PAN_TIER_PROMOTE_WRITES => ⟨8, 8, .rw, .num 2⟩
  | .PAN_TIER_DEMOTE_MAX => ⟨16, 8, .rw, .num 1⟩
  | .PAN_TIER_DECAY => ⟨24, 16, .rw, .num 64⟩
  | .PAN_TIER_FREE_LOW => ⟨40, 8, .rw, .num 4⟩
  | .PAN_TIER_ENABLE => ⟨48, 1, .rw, .num 1⟩
  | .PAN_TIER_STAT_PROMOTIONS => ⟨0, 32, .ro, .num 0⟩
  | .PAN_TIER_STAT_DEMOTIONS => ⟨32, 32, .ro, .num 0⟩
  | .LAR_CFG_SPEED => ⟨0, 3, .rwf, .num 0⟩
  | .LAR_CFG_RANKS => ⟨3, 1, .rwf, .num 0⟩
  | .LAR_CFG_DENSITY => ⟨4, 2, .rwf, .num 0⟩
  | .LAR_CFG_TOPO => ⟨6, 1, .rwf, .num 0⟩
  | .LAR_CFG_CAPACITY => ⟨8, 7, .rwf, .num 0⟩
  | .LAR_CFG_META_SHARE => ⟨16, 6, .rwf, .num 0⟩
  | .LAR_CFG_DIR_SHARE => ⟨24, 4, .rwf, .num 0⟩
  | .LAR_CTRL_SCRUB_HOURS => ⟨0, 5, .rw, .floorPlan⟩
  | .LAR_CTRL_WB_HIGH => ⟨16, 8, .rw, .num 128⟩
  | .LAR_CTRL_WB_AGE => ⟨32, 16, .rw, .num 4096⟩
  | .LAR_STATUS_TRAINED => ⟨0, 1, .ro, .num 0⟩
  | .LAR_STATUS_FAST_TRAIN => ⟨1, 1, .ro, .num 0⟩
  | .LAR_STATUS_HOT_REFRESH => ⟨2, 1, .ro, .num 0⟩
  | .LAR_STATUS_SELF_REFRESH => ⟨3, 1, .ro, .num 0⟩
  | .LAR_STATUS_OUT_OF_SERVICE => ⟨4, 1, .ro, .num 0⟩
  | .LAR_STATUS_PIN_SHORT => ⟨5, 1, .ro, .num 0⟩
  | .LAR_SLOTS => ⟨0, 28, .ro, .num 0⟩
  | .LAR_DIRTY_OWN => ⟨0, 28, .ro, .num 0⟩
  | .LAR_SLOTS_FREE => ⟨28, 28, .ro, .num 0⟩
  | .LAR_DIRTY_MIRROR => ⟨28, 28, .ro, .num 0⟩
  | .LAR_ERR_CORRECTED => ⟨0, 24, .ro, .num 0⟩
  | .LAR_ERR_UNCORR_CLEAN => ⟨24, 16, .ro, .num 0⟩
  | .LAR_ERR_UNCORR_DIRTY => ⟨40, 16, .ro, .num 0⟩
  | .LAR_ERR_POISONED => ⟨56, 8, .ro, .num 0⟩
  | .LAR_ERR_LOC_BURST => ⟨0, 30, .ro, .num 0⟩
  | .LAR_ERR_LOC_SUBCH => ⟨30, 1, .ro, .num 0⟩
  | .LAR_ERR_LOC_DEVICE => ⟨31, 4, .ro, .num 0⟩
  | .LAR_ERR_LOC_RANK => ⟨35, 1, .ro, .num 0⟩
  | .LAR_ERR_LOC_KIND => ⟨36, 4, .ro, .num 0⟩
  | .HALL_DIRTY_AMOUNT_PAGES => ⟨0, 28, .ro, .num 0⟩
  | .HALL_DIRTY_BUDGET_EFFECTIVE => ⟨0, 28, .ro, .num 0⟩
  | .HALL_DIRTY_BUDGET_LIMITED_BY => ⟨28, 2, .ro, .num 0⟩
  | .HALL_DIRTY_PACE_PACING => ⟨0, 1, .ro, .num 0⟩
  | .HALL_DIRTY_PACE_WAITING => ⟨8, 24, .ro, .num 0⟩
  | .HALL_DIRTY_PACE_PACED => ⟨32, 32, .ro, .num 0⟩
  | .CEL_CTRL_BG_ERASE => ⟨0, 1, .rw, .num 1⟩
  | .CEL_CTRL_PROG_SLOTS => ⟨1, 5, .rw, .num 16⟩
  | .CEL_CTRL_SUSPEND_EN => ⟨6, 1, .rw, .num 1⟩
  | .CEL_CTRL_MIG_SLOTS => ⟨8, 8, .rw, .num 32⟩
  | .CEL_CTRL_TEMP_PERIOD => ⟨16, 8, .rw, .num 1⟩
  | .CEL_STATUS_READY => ⟨0, 1, .ro, .num 0⟩
  | .CEL_STATUS_PRESENT => ⟨1, 8, .ro, .num 0⟩
  | .CEL_STATUS_FAILED => ⟨9, 8, .ro, .num 0⟩
  | .CEL_STATUS_OUT_OF_SERVICE => ⟨17, 1, .ro, .num 0⟩
  | .CEL_STATUS_WRITE_HOLD => ⟨18, 1, .ro, .num 0⟩
  | .CEL_STATUS_ALERT => ⟨19, 1, .ro, .num 0⟩
  | .CEL_STATUS_BUS_FAULT => ⟨20, 1, .ro, .num 0⟩
  | .CEL_FRAMES0_IN_USE => ⟨0, 30, .ro, .num 0⟩
  | .CEL_FRAMES1_SPARE => ⟨0, 30, .ro, .num 0⟩
  | .CEL_FRAMES0_FREE => ⟨32, 30, .ro, .num 0⟩
  | .CEL_FRAMES1_RETIRED => ⟨32, 30, .ro, .num 0⟩
  | .CEL_WEAR_MAX => ⟨0, 32, .ro, .num 0⟩
  | .CEL_WEAR_MEAN => ⟨32, 32, .ro, .num 0⟩
  | .CEL_ERR0_CORRECTED => ⟨0, 32, .ro, .num 0⟩
  | .CEL_ERR0_RETRIED => ⟨32, 16, .ro, .num 0⟩
  | .CEL_ERR0_UNCORR => ⟨48, 16, .ro, .num 0⟩
  | .CEL_ERR1_PROG_FAIL => ⟨0, 16, .ro, .num 0⟩
  | .CEL_ERR1_ERASE_FAIL => ⟨16, 16, .ro, .num 0⟩
  | .CEL_ERR1_BUS_CRC => ⟨32, 16, .ro, .num 0⟩
  | .CEL_ERR1_TIMEOUT => ⟨48, 16, .ro, .num 0⟩
  | .CEL_ERR_LOC_FRAME => ⟨0, 27, .ro, .num 0⟩
  | .CEL_ERR_LOC_PKG => ⟨27, 3, .ro, .num 0⟩
  | .CEL_ERR_LOC_LINE => ⟨30, 4, .ro, .num 0⟩
  | .CEL_ERR_LOC_KIND => ⟨34, 4, .ro, .num 0⟩
  | .CEL_ERR_LOC_BITS => ⟨38, 5, .ro, .num 0⟩
  | .CEL_TEMP0 => ⟨0, 16, .ro, .num 32768⟩
  | .CEL_TEMP0_TEMP1 => ⟨16, 16, .ro, .num 32768⟩
  | .CEL_TEMP0_TEMP2 => ⟨32, 16, .ro, .num 32768⟩
  | .CEL_TEMP0_TEMP3 => ⟨48, 16, .ro, .num 32768⟩
  | .CEL_TEMP1_TEMP4 => ⟨0, 16, .ro, .num 32768⟩
  | .CEL_TEMP1_TEMP5 => ⟨16, 16, .ro, .num 32768⟩
  | .CEL_TEMP1_TEMP6 => ⟨32, 16, .ro, .num 32768⟩
  | .CEL_TEMP1_TEMP7 => ⟨48, 16, .ro, .num 32768⟩
  | .CEL_HIST_COUNT => ⟨0, 32, .ro, .checkpoint⟩
  | .CEL_ID_VENDOR => ⟨0, 16, .ro, .num 0⟩
  | .CEL_ID_DEVICE => ⟨16, 16, .ro, .num 0⟩
  | .CEL_ID_SERIAL => ⟨32, 32, .ro, .num 0⟩
  | .HALL_MEDIA_SPARE_SPARES => ⟨0, 32, .ro, .num 0⟩
  | .HALL_MEDIA_SPARE_FLOOR => ⟨32, 32, .ro, .num 0⟩
  | .HALL_MEDIA_STATE_READ_ONLY => ⟨0, 1, .ro, .num 0⟩
  | .HALL_MEDIA_STATE_NO_SPARE => ⟨1, 1, .ro, .num 0⟩
  | .HALL_MEDIA_STATE_TARGET => ⟨32, 32, .ro, .num 0⟩
  | .HALL_MEDIA_WEAR_MEAN => ⟨0, 32, .ro, .num 0⟩
  | .HALL_MEDIA_WEAR_MAX => ⟨32, 32, .ro, .num 0⟩
  | .HALL_MEDIA_RETIRED => ⟨0, 35, .ro, .num 0⟩
  | .HALL_JUNCTION_HIST_COUNT => ⟨0, 32, .ro, .checkpoint⟩
  | .PRC_RT_BEAT => ⟨0, 64, .ro, .num 0⟩
  | .PRC_RT_FRAC => ⟨0, 32, .ro, .num 0⟩
  | .PRC_RT_FRAC_PERIOD => ⟨32, 32, .ro, .num 0⟩
  | .PRC_RT_STATE => ⟨0, 2, .ro, .num 0⟩
  | .PRC_RT_STATE_MISSING => ⟨8, 8, .ro, .num 0⟩
  | .PRC_RT_STATE_CORR_USED => ⟨16, 5, .ro, .num 0⟩
  | .PRC_RT_STATE_STEPS => ⟨32, 16, .ro, .num 0⟩
  | .PRC_RT_STATE_GLITCHES => ⟨48, 16, .ro, .num 0⟩
  | .PRC_RT_EPOCH_LAST_E => ⟨0, 64, .ro, .num 0⟩
  | .PRC_RT_PHASE => ⟨0, 4, .ro, .poolRecord⟩
  | .PRC_RT_CORR_A_FIRST => ⟨0, 32, .ro, .checkpoint⟩
  | .PRC_RT_CORR_A_LAST => ⟨32, 32, .ro, .checkpoint⟩
  | .PRC_RT_CORR_B_SHIFT => ⟨0, 32, .ro, .checkpoint⟩
  | .PRC_RT_CORR_B_SPREAD => ⟨32, 32, .ro, .checkpoint⟩
  | .WING_CAL_SCRUB_PERIOD => ⟨0, 17, .rw, .num 86400⟩
  | .WING_CAL_CADENCE_DIV => ⟨20, 4, .rw, .num 1⟩
  | .WING_CAL_REFRESH_SLOTS => ⟨24, 8, .rw, .num 32⟩
  | .WING_CAL_PROG_MA => ⟨32, 16, .rw, .num 65535⟩
  | .WING_DRIFT_SEARCHES => ⟨0, 16, .ro, .num 0⟩
  | .WING_DRIFT_SPAN_READS => ⟨16, 16, .ro, .num 0⟩
  | .WING_DRIFT_SETTLES => ⟨32, 16, .ro, .num 0⟩
  | .WING_DRIFT_SEARCH_FAIL => ⟨48, 16, .ro, .num 0⟩
  | .WING_REFRESH_QUEUED => ⟨0, 32, .ro, .num 0⟩
  | .WING_REFRESH_DONE => ⟨32, 32, .ro, .num 0⟩
  | .WING_SCRUB_PROGRESS => ⟨0, 14, .ro, .num 0⟩
  | .WING_SCRUB_SCRUB_LATE => ⟨16, 16, .ro, .num 0⟩
  | .HOME_CTRL_OWNED_EN => ⟨0, 1, .rw, .num 1⟩
  | .HOME_CTRL_QUEUE_LIMIT => ⟨8, 7, .rw, .num 32⟩
  | .HOME_STATUS_TRACKERS => ⟨0, 13, .ro, .num 0⟩
  | .HOME_STATUS_QUEUED => ⟨16, 14, .ro, .num 0⟩
  | .HOME_STATUS_DIR_LOST => ⟨32, 1, .ro, .num 0⟩
  | .HOME_DIR_ENTRIES => ⟨0, 28, .ro, .num 0⟩
  | .HOME_DIR_COARSE => ⟨28, 28, .ro, .num 0⟩
  | .HOME_DIR_STAT_EVICTIONS => ⟨0, 32, .ro, .num 0⟩
  | .HOME_DIR_STAT_CHECK_FAIL => ⟨32, 16, .ro, .num 0⟩
  | .HOME_BISNP_SENT => ⟨0, 32, .ro, .num 0⟩
  | .HOME_BISNP_FORWARDS => ⟨32, 32, .ro, .num 0⟩
  | .HOME_ATOMIC_EXECUTED => ⟨0, 32, .ro, .num 0⟩
  | .HOME_ATOMIC_FAILED => ⟨32, 16, .ro, .num 0⟩
  | .HOME_ATOMIC_REFUSED => ⟨48, 16, .ro, .num 0⟩
  | .HOME_HOLDERS_HOLD => ⟨0, 64, .ro, .num 0⟩
  | .PRC_RES_CFG0_ICHG => ⟨0, 16, .rw, .num 0⟩
  | .PRC_RES_CFG0_V_MIN => ⟨16, 16, .rw, .num 0⟩
  | .PRC_RES_CFG0_DRAIN_W => ⟨32, 16, .rw, .num 0⟩
  | .PRC_RES_CFG0_TEST_DROP => ⟨48, 8, .rw, .num 100⟩
  | .PRC_RES_CFG0_LOCK => ⟨63, 1, .rw, .num 0⟩
  | .PRC_RES_CFG1_SENSE_GAIN => ⟨0, 16, .rw, .num 256⟩
  | .PRC_RES_CFG1_CT_PERIOD => ⟨16, 20, .rw, .num 84375⟩
  | .PRC_RES_CFG1_TEST_NOW => ⟨36, 1, .wo, .num 0⟩
  | .PRC_RES_CFG1_CHG_LIMIT => ⟨40, 8, .rw, .num 120⟩
  | .PRC_RES_STATUS_STATE => ⟨0, 3, .ro, .num 1⟩
  | .PRC_RES_STATUS_CHG_EN => ⟨3, 1, .ro, .num 0⟩
  | .PRC_RES_STATUS_VOLTS => ⟨4, 16, .ro, .num 0⟩
  | .PRC_RES_STATUS_TEMP => ⟨20, 16, .ro, .num 0⟩
  | .PRC_RES_STATUS_FAIL_CAUSE => ⟨36, 3, .ro, .num 0⟩
  | .PRC_RES_STATUS_INCONCLUSIVE => ⟨39, 1, .ro, .num 0⟩
  | .PRC_RES_MEAS_CAP => ⟨0, 32, .ro, .cupboard⟩
  | .PRC_RES_MEAS_ENERGY => ⟨32, 32, .ro, .num 0⟩
  | .PRC_RES_TEST_LAST_BEAT => ⟨0, 48, .ro, .num 0⟩
  | .PRC_RES_TEST_TESTS => ⟨48, 16, .ro, .num 0⟩
  | .HALL_DIRTY_CALC_COMPUTED => ⟨0, 28, .ro, .num 0⟩
  | .HALL_DIRTY_CALC_WRITE_THROUGH => ⟨28, 1, .ro, .num 1⟩
  | .HALL_DIRTY_CALC_FLOOR => ⟨29, 1, .ro, .num 0⟩
  | .HALL_DIRTY_CALC_LOG_PENDING => ⟨32, 18, .ro, .num 0⟩
  | .HALL_DRAIN_STATUS_STEP => ⟨0, 4, .ro, .num 0⟩
  | .HALL_DRAIN_STATUS_LAST_KIND => ⟨4, 2, .ro, .num 0⟩
  | .HALL_DRAIN_STATUS_LAST_STOP => ⟨8, 8, .ro, .num 0⟩
  | .HALL_DRAIN_STATUS_DIRTY_STOPS => ⟨16, 32, .ro, .cupboard⟩
  | .HALL_DRAIN_LAST_SKIPPED => ⟨0, 32, .ro, .num 0⟩
  | .HALL_DRAIN_LAST_DRAIN_MS => ⟨32, 32, .ro, .num 0⟩
  | .HALL_DRAIN_RECOVERY_POISONED => ⟨0, 32, .ro, .num 0⟩
  | .HALL_DRAIN_RECOVERY_RECOVERY_MS => ⟨32, 32, .ro, .num 0⟩
  | .LKS_STATUS_EPH_READY => ⟨0, 1, .ro, .num 0⟩
  | .LKS_STATUS_LOCKDOWN => ⟨1, 1, .ro, .num 0⟩
  | .LKS_STATUS_TREE_LOST => ⟨2, 1, .ro, .num 0⟩
  | .LKS_STATUS_SLOTS_LOADED => ⟨16, 13, .ro, .num 0⟩
  | .LKS_ANCHOR_A => ⟨0, 64, .ro, .checkpoint⟩
  | .LKS_CKPT_LAST_BEAT => ⟨0, 48, .ro, .num 0⟩
  | .LKS_LOCK_LOC_ROOM => ⟨0, 12, .ro, .num 0⟩
  | .LKS_LOCK_LOC_INDEX => ⟨12, 36, .ro, .num 0⟩
  | .LKS_LOCK_LOC_LINE => ⟨48, 6, .ro, .num 0⟩
  | .LKS_LOCK_LOC_KIND => ⟨54, 4, .ro, .num 0⟩
  | .LKS_LOCK_LOC_WING => ⟨58, 3, .ro, .num 0⟩
  | .LKS_CTR_STAT_REENCRYPT => ⟨0, 32, .ro, .num 0⟩
  | .LKS_CTR_STAT_SEALED => ⟨32, 16, .ro, .num 0⟩
  | .LKS_CTR_STAT_SKIPS => ⟨48, 16, .ro, .num 0⟩
  | .LKS_SLOT_LOADED => ⟨0, 64, .ro, .slotTable⟩
  | .LKS_TREE_COPY_USED => ⟨0, 16, .ro, .num 0⟩
  | .LKS_TREE_REWRITTEN => ⟨16, 16, .ro, .num 0⟩
  | .LKS_TREE_LOST => ⟨32, 16, .ro, .num 0⟩
  | .LKS_TREE_LOC_ROOM => ⟨0, 12, .ro, .num 0⟩
  | .LKS_TREE_LOC_INDEX => ⟨12, 36, .ro, .num 0⟩
  | .LKS_TREE_LOC_LEVEL => ⟨48, 4, .ro, .num 0⟩
  | .HALL_SVC_STATE => ⟨0, 3, .ro, .floorPlan⟩
  | .HALL_SVC_STALLED => ⟨3, 1, .ro, .num 0⟩
  | .HALL_SVC_REMIRROR => ⟨4, 1, .ro, .num 0⟩
  | .HALL_SVC_CAUSE => ⟨8, 8, .ro, .num 0⟩
  | .HALL_SVC_PROGRESS => ⟨16, 14, .ro, .num 0⟩
  | .HALL_SVC_STRIPES => ⟨32, 32, .ro, .num 0⟩
  | .WING_BRACE_REBUILD_SLOTS => ⟨0, 8, .rw, .num 128⟩
  | .WING_BRACE_ACTING => ⟨8, 8, .ro, .num 0⟩
  | .WING_BRACE_TAKEOVER_DIR => ⟨16, 1, .ro, .num 0⟩
  | .WING_BRACE_RECOMPUTE => ⟨17, 1, .ro, .num 0⟩
  | .WING_BRACE_STAT_RECONSTRUCTED => ⟨0, 32, .ro, .num 0⟩
  | .WING_BRACE_STAT_UNSETTLED => ⟨32, 16, .ro, .num 0⟩
  | .WING_BRACE_STAT_DOUBLE => ⟨48, 16, .ro, .num 0⟩
  | .STR_CTRL_PAUSE => ⟨0, 1, .rw, .num 0⟩
  | .STR_CTRL_ABORT => ⟨1, 1, .wo, .num 0⟩
  | .STR_CTRL_MAX_INFLIGHT => ⟨8, 7, .rw, .num 64⟩
  | .STR_STATUS_STATE => ⟨0, 3, .ro, .num 0⟩
  | .STR_STATUS_REQUESTER => ⟨8, 12, .ro, .num 0⟩
  | .STR_STATUS_RING => ⟨20, 6, .ro, .num 0⟩
  | .STR_STATUS_ROOM => ⟨32, 12, .ro, .num 0⟩
  | .STR_STATUS_INFLIGHT => ⟨48, 7, .ro, .num 0⟩
  | .STR_PC => ⟨0, 12, .ro, .num 0⟩
  | .STR_PC_WAITING => ⟨12, 3, .ro, .num 0⟩
  | .STR_STAT_BYTES => ⟨0, 48, .ro, .num 0⟩
  | .STR_STAT_ERRORS => ⟨48, 16, .ro, .num 0⟩
  | .RING_SEL_REQUESTER => ⟨0, 12, .rw, .num 0⟩
  | .RING_SEL_RING => ⟨12, 6, .rw, .num 0⟩
  | .RING_ERR_DB_IGNORED => ⟨0, 32, .ro, .num 0⟩
  | .RING_ERR_BAD_CONTEXT => ⟨32, 16, .ro, .num 0⟩
  | .RING_ERR_FOREIGN => ⟨48, 16, .ro, .num 0⟩
  | .RING_CTX_WORD => ⟨0, 64, .ro, .num 0⟩
  | .LND_STATE_ROLE => ⟨0, 2, .ro, .poolRecord⟩
  | .LND_STATE_INDEX => ⟨8, 12, .ro, .poolRecord⟩
  | .LND_STATE_MANAGER_SEEN => ⟨24, 1, .ro, .num 0⟩
  | .LND_STATE_STANDBY_SEEN => ⟨25, 1, .ro, .num 0⟩
  | .LND_STATE_MIRROR_STALE => ⟨26, 1, .ro, .num 0⟩
  | .LND_STATE_EVACUATING => ⟨27, 1, .ro, .num 0⟩
  | .LND_TERM => ⟨0, 64, .ro, .poolRecord⟩
  | .LND_CTRL_RETRY_MS => ⟨0, 8, .rw, .num 20⟩
  | .LND_CTRL_FREEZE_MS => ⟨8, 8, .rw, .num 8⟩
  | .LND_CTRL_MAX_ROUNDS => ⟨16, 5, .rw, .num 16⟩
  | .LND_CTRL_EVAC_AUTO => ⟨21, 1, .rw, .num 0⟩
  | .LND_MIG_ROOM => ⟨0, 12, .ro, .num 0⟩
  | .LND_MIG_STEP => ⟨12, 3, .ro, .num 0⟩
  | .LND_MIG_SOURCE => ⟨15, 1, .ro, .num 0⟩
  | .LND_MIG_ROUND => ⟨16, 8, .ro, .num 0⟩
  | .LND_MIG_PEER => ⟨24, 12, .ro, .num 0⟩
  | .LND_ERR_RETRIES => ⟨0, 16, .ro, .num 0⟩
  | .LND_ERR_DUPLICATES => ⟨16, 16, .ro, .num 0⟩
  | .LND_ERR_TERM_REJECTS => ⟨32, 16, .ro, .num 0⟩
  | .LND_ERR_MISSED => ⟨48, 16, .ro, .num 0⟩
  | .HALL_STATE => ⟨0, 4, .ro, .porch⟩
  | .HALL_STATE_HALT_CAUSE => ⟨4, 2, .ro, .num 0⟩
  | .HALL_STATE_PREVIOUS => ⟨6, 4, .ro, .porch⟩
  | .HALL_STATE_UNCLEAN_RAIL => ⟨10, 1, .ro, .num 0⟩
  | .FBX_CTRL_OFF_REQ => ⟨0, 1, .wo, .num 0⟩
  | .FBX_SEQ_STEP => ⟨0, 6, .ro, .num 0⟩
  | .FBX_SEQ_HALL => ⟨6, 1, .ro, .num 0⟩
  | .FBX_SEQ_PHASE => ⟨7, 2, .ro, .num 0⟩
  | .FBX_SEQ_RETRIES_LEFT => ⟨9, 2, .ro, .porch⟩
  | .FBX_SEQ_OFF_LATCHED => ⟨11, 1, .ro, .num 0⟩
  | .FBX_SEQ_ON_LATCHED => ⟨12, 1, .ro, .num 0⟩
  | .FBX_SEQ_FAULT_MON => ⟨13, 5, .ro, .num 0⟩
  | .FBX_SEQ_FAULT_KIND => ⟨18, 3, .ro, .num 0⟩
  | .FBX_SNAP_TIME_BEAT => ⟨0, 48, .ro, .porch⟩
  | .FBX_SNAP_TIME_VALID => ⟨48, 1, .ro, .porch⟩
  | .FBX_PD_ON => ⟨0, 46, .ro, .num 0⟩
  | .FBX_PD_SWITCHING => ⟨46, 1, .ro, .num 0⟩
  | .FBX_MON_READING => ⟨0, 12, .ro, .num 0⟩
  | .FBX_MON_STATE => ⟨12, 2, .ro, .num 0⟩
  | .FBX_MON_OUTSIDE => ⟨14, 1, .ro, .num 0⟩
  | .FBX_MON_LOW => ⟨16, 12, .rwf, .floorPlan⟩
  | .FBX_MON_HIGH => ⟨28, 12, .rwf, .floorPlan⟩
  | .FBX_MON_GLITCH => ⟨40, 8, .rwf, .floorPlan⟩
  | .FBX_MON_QUAL => ⟨48, 10, .rwf, .floorPlan⟩
  | .FBX_SNAP_READING => ⟨0, 12, .ro, .porch⟩
  | .FBX_SNAP_OUTSIDE => ⟨12, 1, .ro, .porch⟩
  | .FBX_RAILCNT_LOW_FAULTS => ⟨0, 16, .ro, .cupboard⟩
  | .FBX_RAILCNT_HIGH_FAULTS => ⟨16, 16, .ro, .cupboard⟩
  | .FBX_RAILCNT_SEQ_TIMEOUTS => ⟨32, 16, .ro, .cupboard⟩
  | .PRC_IN_CFG_VIN_FAIL => ⟨0, 12, .rw, .num 1200⟩
  | .PRC_IN_CFG_VIN_OK => ⟨12, 12, .rw, .num 1300⟩
  | .PRC_IN_CFG_FAIL_TIME => ⟨24, 6, .rw, .num 8⟩
  | .PRC_IN_CFG_HOLDOFF_MS => ⟨32, 16, .rw, .num 100⟩
  | .PRC_IN_STATUS_VIN => ⟨0, 12, .ro, .num 0⟩
  | .PRC_IN_STATUS_VIN_GOOD => ⟨12, 1, .ro, .num 0⟩
  | .PRC_IN_STATUS_WAKE_N => ⟨13, 1, .ro, .num 1⟩
  | .PRC_IN_STATUS_SR_BROKEN => ⟨14, 1, .ro, .porch⟩
  | .PRC_IN_STATUS_VSTBY => ⟨16, 12, .ro, .num 0⟩
  | .PRC_IN_STATUS_DIPS => ⟨32, 16, .ro, .num 0⟩
  | .PRC_IN_STATUS_FAILS => ⟨48, 16, .ro, .num 0⟩
  | .PRC_SLUMBER_SLUMBER_REQ => ⟨0, 1, .wo, .num 0⟩
  | .PRC_SLUMBER_WAKE => ⟨1, 1, .wo, .num 0⟩
  | .PRC_SLUMBER_WAKE_ARM => ⟨2, 1, .rw, .num 0⟩
  | .PRC_SLUMBER_REFUSED => ⟨3, 1, .ro, .num 0⟩
  | .PRC_WAKE_BEAT => ⟨0, 64, .rw, .num 0⟩
  | .PRC_NTC_NTC_B => ⟨0, 16, .rw, .num 3450⟩
  | .PRC_NTC_NTC_NOM => ⟨16, 16, .rw, .num 1000⟩
  | .PRC_NTC_NTC_PULL => ⟨32, 16, .rw, .num 1000⟩
  | .CHM_LEVELS_WARN => ⟨0, 16, .rwf, .num 380⟩
  | .CHM_LEVELS_THROTTLE => ⟨16, 16, .rwf, .num 420⟩
  | .CHM_LEVELS_SHUTDOWN => ⟨32, 16, .rwf, .num 460⟩
  | .CHM_LEVELS_HYST => ⟨48, 8, .rwf, .num 12⟩
  | .CHM_WIN0_MEDIA_LO => ⟨0, 16, .rwf, .num 0⟩
  | .CHM_WIN0_MEDIA_HI => ⟨16, 16, .rwf, .num 340⟩
  | .CHM_WIN0_DRAIN_LO => ⟨32, 16, .rwf, .num 65496⟩
  | .CHM_WIN0_DRAIN_HI => ⟨48, 16, .rwf, .num 380⟩
  | .CHM_WIN1_CHG_LO => ⟨0, 16, .rwf, .num 0⟩
  | .CHM_WIN1_CHG_HI => ⟨16, 16, .rwf, .num 240⟩
  | .CHM_STATUS_WARN => ⟨0, 1, .ro, .num 0⟩
  | .CHM_STATUS_THROTTLE => ⟨1, 1, .ro, .num 0⟩
  | .CHM_STATUS_SHUTDOWN => ⟨2, 1, .ro, .num 0⟩
  | .CHM_STATUS_LATCH => ⟨3, 1, .ro, .porch⟩
  | .CHM_STATUS_STAGE => ⟨4, 2, .ro, .num 0⟩
  | .CHM_STATUS_HOTTEST => ⟨8, 7, .ro, .num 0⟩
  | .CHM_STATUS_TEMP => ⟨16, 16, .ro, .num 0⟩
  | .CHM_CTRL_STAGE_MS => ⟨0, 8, .rw, .num 10⟩
  | .CHM_CTRL_MAX_STAGE => ⟨8, 2, .rw, .num 3⟩
  | .CHM_TS_TEMP => ⟨0, 16, .ro, .num 32768⟩
  | .CHM_TS_VALID => ⟨16, 1, .ro, .num 0⟩
  | .CHM_TS_FAST => ⟨17, 1, .ro, .num 0⟩
  | .CHM_TS_COUNT => ⟨32, 16, .ro, .num 0⟩
  | .FLT_CTRL_REARM => ⟨0, 1, .wo, .num 0⟩
  | .FLT_CTRL_TRAP_DONE => ⟨1, 1, .wo, .num 0⟩
  | .FLT_STATUS_FIRST_VALID => ⟨0, 1, .ro, .num 0⟩
  | .FLT_STATUS_ERR_N => ⟨1, 1, .ro, .num 0⟩
  | .FLT_STATUS_TRAP_PENDING => ⟨2, 1, .ro, .num 0⟩
  | .FLT_STATUS_ACTIVE => ⟨16, 12, .ro, .num 0⟩
  | .FLT_FIRST_WORD => ⟨0, 64, .ro, .num 0⟩
  | .FLT_LAST_WORD => ⟨0, 64, .ro, .num 0⟩
  | .FLT_CNT_EVENTS => ⟨0, 32, .ro, .num 0⟩
  | .FLT_CNT_MERGED => ⟨32, 16, .ro, .num 0⟩
  | .FLT_EVQ_ITEM => ⟨0, 64, .rs, .num 0⟩
  | .FLT_EVQ_CFG_LIMIT => ⟨0, 10, .rw, .num 10⟩
  | .FLT_EVQ_CFG_DEPTH_USED => ⟨32, 11, .ro, .num 0⟩
  | .FLT_EVQ_CFG_LOST => ⟨48, 16, .ro, .num 0⟩
  | .FLT_SRC_STATUS => ⟨0, 1, .ro, .num 0⟩
  | .FLT_SRC_FORCE => ⟨1, 1, .rw, .num 0⟩
  | .FLT_SRC_BUCKET_EN => ⟨2, 1, .rw, .num 0⟩
  | .FLT_SRC_FIXED => ⟨3, 1, .ro, .source⟩
  | .FLT_SRC_REACTION => ⟨4, 2, .rwf, .floorPlan⟩
  | .FLT_SRC_ERR_N => ⟨6, 1, .rwf, .floorPlan⟩
  | .FLT_SRC_LEVEL => ⟨8, 8, .ro, .num 0⟩
  | .FLT_SRC_COUNT => ⟨16, 16, .ro, .cupboard⟩
  | .FLT_SRC_DEPTH => ⟨32, 8, .rw, .num 0⟩
  | .FLT_SRC_LEAK => ⟨40, 16, .rw, .num 1⟩
  | .FLT_SRC_SEVERITY => ⟨56, 2, .ro, .source⟩
  | .FLT_WCTRL_TRAP_CORE => ⟨0, 3, .rw, .num 0⟩
  | .FLT_WCTRL_TRAP_DONE => ⟨3, 1, .wo, .num 0⟩
  | .FLT_WCTRL_TRAP_PENDING => ⟨4, 1, .ro, .num 0⟩
  | .ATC_STATUS_BUF_BYTES => ⟨0, 19, .ro, .porch⟩
  | .ATC_STATUS_FLUSHING => ⟨19, 1, .ro, .num 0⟩
  | .ATC_STATUS_AREA_LOST => ⟨20, 1, .ro, .num 0⟩
  | .ATC_STATUS_FLUSHES => ⟨32, 32, .ro, .num 0⟩
  | .ATC_SEL_PART => ⟨0, 4, .rw, .num 0⟩
  | .ATC_SEL_SLOT => ⟨16, 17, .rw, .num 0⟩
  | .ATC_PART_SLOTS => ⟨0, 17, .ro, .floorPlan⟩
  | .ATC_PART_USED => ⟨17, 17, .ro, .num 0⟩
  | .ATC_PART_DROPPED => ⟨34, 16, .ro, .num 0⟩
  | .ATC_PART_CLEARS => ⟨50, 14, .ro, .num 0⟩
  | .ATC_WIN_WORD => ⟨0, 64, .rs, .num 0⟩
  | .CPB_STATUS_BUSY => ⟨0, 1, .ro, .num 0⟩
  | .CPB_STATUS_QUEUED => ⟨1, 3, .ro, .num 0⟩
  | .CPB_STATUS_WORN => ⟨4, 16, .ro, .cupboard⟩
  | .CPB_STATUS_SATURATED => ⟨20, 16, .ro, .cupboard⟩
  | .CPB_STATUS_MAP_LOST => ⟨36, 1, .ro, .num 0⟩
  | .CPB_SEL_PAGE => ⟨0, 12, .rw, .num 0⟩
  | .CPB_WEAR_WRITE_FAILS => ⟨0, 16, .ro, .num 0⟩
  | .CPB_WEAR_WORN_PAGES => ⟨16, 12, .ro, .cupboard⟩
  | .CPB_DATA_WORD => ⟨0, 64, .rs, .num 0⟩
  | .CPB_CNT_VALUE => ⟨0, 64, .ro, .cupboard⟩
  | .PMC_CTRL_FREEZE => ⟨0, 1, .rw, .num 0⟩
  | .PMC_CTRL_SNAP_NOW => ⟨1, 1, .wo, .num 0⟩
  | .PMC_CTRL_ARM => ⟨2, 1, .wo, .num 0⟩
  | .PMC_CTRL_DISARM => ⟨3, 1, .wo, .num 0⟩
  | .PMC_CTRL_FREEZE_AT_SNAP => ⟨4, 1, .rw, .num 0⟩
  | .PMC_SNAP_BEAT => ⟨0, 64, .rw, .num 0⟩
  | .PMC_SNAP_STATUS_ARMED => ⟨0, 1, .ro, .num 0⟩
  | .PMC_SNAP_STATUS_LATE => ⟨1, 1, .ro, .num 0⟩
  | .PMC_SNAP_STATUS_SKIPPED => ⟨2, 1, .ro, .num 0⟩
  | .PMC_SNAP_STATUS_BEAT => ⟨16, 48, .ro, .num 0⟩
  | .PMC_SEL_BANK => ⟨0, 3, .rw, .num 0⟩
  | .PMC_SEL_SHADOW => ⟨3, 1, .rw, .num 0⟩
  | .PMC_OVF_MSG_REQUESTER => ⟨0, 12, .rw, .num 0⟩
  | .PMC_OVF_MSG_VALID => ⟨12, 1, .rw, .num 0⟩
  | .PMC_OVF_MSG_DATA => ⟨32, 32, .rw, .num 0⟩
  | .PMC_OVF_ADDR => ⟨2, 62, .rw, .num 0⟩
  | .PMC_PENDING => ⟨0, 32, .ro, .num 0⟩
  | .PMC_SMP_CFG_ENABLE => ⟨0, 1, .rw, .num 0⟩
  | .PMC_SMP_CFG_RATE_LOG2 => ⟨1, 5, .rw, .num 16⟩
  | .PMC_SMP_CFG_WRAP => ⟨6, 1, .rw, .num 1⟩
  | .PMC_SMP_CFG_ON_OVF => ⟨7, 1, .rw, .num 0⟩
  | .PMC_SMP_CFG_ROOM => ⟨8, 12, .rw, .num 0⟩
  | .PMC_SMP_CFG_ROOM_ONLY => ⟨20, 1, .rw, .num 0⟩
  | .PMC_SMP_CFG_OVF_SRC => ⟨21, 13, .rw, .num 0⟩
  | .PMC_OVF_EN => ⟨0, 64, .rw, .num 0⟩
  | .PMC_OVF => ⟨0, 64, .ro, .num 0⟩
  | .PMC_WIN_VALUE => ⟨0, 48, .rw, .num 0⟩
  | .PMC_SMP_PTR_NEXT => ⟨0, 20, .rw, .num 0⟩
  | .PMC_SMP_PTR_FULL => ⟨20, 1, .ro, .num 0⟩
  | .PMC_SMP_PTR_SKIPPED => ⟨32, 16, .ro, .num 0⟩
  | .PMC_SMP_SEL_RECORD => ⟨0, 20, .rw, .num 0⟩
  | .PMC_SMP_WIN_WORD => ⟨0, 64, .rs, .num 0⟩
  | .BST_CMD_TARGET => ⟨0, 4, .wo, .num 0⟩
  | .BST_CMD_KIND => ⟨4, 2, .wo, .num 0⟩
  | .BST_STATUS_STATE => ⟨0, 3, .ro, .num 0⟩
  | .BST_STATUS_KIND => ⟨3, 2, .ro, .num 0⟩
  | .BST_STATUS_REFUSE => ⟨5, 3, .ro, .num 0⟩
  | .BST_MISR => ⟨0, 64, .ro, .num 0⟩
  | .BST_ECC_PANTRY => ⟨0, 8, .ro, .num 0⟩
  | .BST_ECC_LARDER => ⟨8, 8, .ro, .num 0⟩
  | .BST_ECC_CELLAR => ⟨16, 32, .ro, .num 0⟩
  | .BST_ECC_MAC => ⟨48, 8, .ro, .num 0⟩
  | .BST_ECC_CORRIDOR => ⟨56, 1, .ro, .num 0⟩
  | .BST_ECC_CUPBOARD => ⟨57, 1, .ro, .num 0⟩
  | .BST_ECC_FIXED => ⟨58, 5, .ro, .num 0⟩
  | .BST_ECC_DONE => ⟨63, 1, .ro, .num 0⟩
  | .COR_LINK_UP => ⟨0, 1, .ro, .num 0⟩
  | .COR_LINK_LANES => ⟨1, 7, .ro, .num 0⟩
  | .COR_LINK_REPAIRED => ⟨8, 4, .ro, .num 0⟩
  | .COR_LINK_REPLAYS => ⟨16, 24, .ro, .num 0⟩
  | .COR_LINK_TAKEDOWNS => ⟨40, 16, .ro, .num 0⟩

/-- One field's place in a block: its register is at `off + stride * k` for `k < count`, and that register's instance
of the field has index `base + count * inst + k` in block instance `inst`. -/
structure FldRow where
  fld : Fld
  off : Nat
  count : Nat
  stride : Nat
  base : Nat
  deriving DecidableEq, Repr

/-- The fields each block holds (R540, R541). -/
def Block.rows : Block → List FldRow
  | .hallFp =>
      [⟨.HALL_FP_STATUS_ACTIVE, 0x000, 1, 8, 0⟩, ⟨.HALL_FP_STATUS_A_CAUSE, 0x000, 1, 8, 0⟩,
       ⟨.HALL_FP_STATUS_B_CAUSE, 0x000, 1, 8, 0⟩, ⟨.HALL_FP_STATUS_REPLAY_STOPPED, 0x000, 1, 8, 0⟩,
       ⟨.HALL_FP_STATUS_LOG_ERASING, 0x000, 1, 8, 0⟩, ⟨.HALL_FP_SEQ_IMAGE_SEQ, 0x008, 1, 8, 0⟩,
       ⟨.HALL_FP_ID0_ID_LO, 0x010, 1, 8, 0⟩, ⟨.HALL_FP_ID1_ID_HI, 0x018, 1, 8, 0⟩] ++
      [⟨.HALL_AMD_SEQ, 0x020, 1, 8, 0⟩, ⟨.HALL_AMD_STATUS_BUSY, 0x028, 1, 8, 0⟩,
       ⟨.HALL_AMD_STATUS_RESULT, 0x028, 1, 8, 0⟩, ⟨.HALL_AMD_STATUS_CAUSE, 0x028, 1, 8, 0⟩,
       ⟨.HALL_AMD_STATUS_LAST_SEQ, 0x028, 1, 8, 0⟩, ⟨.HALL_AMD_LOG_USED, 0x030, 1, 8, 0⟩,
       ⟨.HALL_AMD_LOG_ENTRIES, 0x030, 1, 8, 0⟩, ⟨.HALL_FP_KEYS_SLOT_VALID, 0x038, 1, 8, 0⟩] ++
      [⟨.HALL_FP_KEYS_SLOT_REVOKED, 0x038, 1, 8, 0⟩, ⟨.HALL_FP_KEYS_KEY_USED, 0x038, 1, 8, 0⟩,
       ⟨.HALL_FLASH_CTRL_SINGLE_ONLY, 0x040, 1, 8, 0⟩, ⟨.HALL_FLASH_CTRL_CLK_DIV, 0x040, 1, 8, 0⟩,
       ⟨.HALL_FLASH_CTRL_MODE, 0x040, 1, 8, 0⟩, ⟨.HALL_FLASH_CTRL_WP_ACTIVE, 0x040, 1, 8, 0⟩]
  | .hallHp =>
      [⟨.HALL_HP_LINK_UP, 0x000, 1, 8, 0⟩, ⟨.HALL_HP_LINK_RATE, 0x000, 1, 8, 0⟩,
       ⟨.HALL_HP_LINK_WIDTH, 0x000, 1, 8, 0⟩, ⟨.HALL_HP_LINK_LOPT, 0x000, 1, 8, 0⟩,
       ⟨.HALL_HP_LINK_PBR, 0x000, 1, 8, 0⟩, ⟨.HALL_HP_LINK_IDE_MEM, 0x000, 1, 8, 0⟩,
       ⟨.HALL_HP_LINK_IDE_IO, 0x000, 1, 8, 0⟩, ⟨.HALL_HP_LINK_VIRAL_IN, 0x000, 1, 8, 0⟩] ++
      [⟨.HALL_HP_LINK_VIRAL_OUT, 0x000, 1, 8, 0⟩, ⟨.HALL_HP_CTRL_MAX_RATE, 0x008, 1, 8, 0⟩,
       ⟨.HALL_HP_CTRL_RETRAIN, 0x008, 1, 8, 0⟩, ⟨.HALL_HP_CTRL_CONTAIN, 0x008, 1, 8, 0⟩,
       ⟨.HALL_HP_CTRL_MPS, 0x008, 1, 8, 0⟩, ⟨.HALL_HP_MGMT_REQ0, 0x010, 1, 8, 0⟩,
       ⟨.HALL_HP_MGMT_VALID0, 0x010, 1, 8, 0⟩, ⟨.HALL_HP_MGMT_REQ1, 0x010, 1, 8, 0⟩] ++
      [⟨.HALL_HP_MGMT_VALID1, 0x010, 1, 8, 0⟩, ⟨.HALL_HP_MGMT_REQ2, 0x010, 1, 8, 0⟩,
       ⟨.HALL_HP_MGMT_VALID2, 0x010, 1, 8, 0⟩, ⟨.HALL_HP_MGMT_REQ3, 0x010, 1, 8, 0⟩,
       ⟨.HALL_HP_MGMT_VALID3, 0x010, 1, 8, 0⟩, ⟨.HALL_HP_ERR_REPLAYS, 0x018, 1, 8, 0⟩,
       ⟨.HALL_HP_ERR_LINK_DOWNS, 0x018, 1, 8, 0⟩, ⟨.HALL_HP_ERR_REFUSED, 0x018, 1, 8, 0⟩] ++
      [⟨.HALL_HP_ERR_BI_FAILED, 0x018, 1, 8, 0⟩]
  | .hallQos =>
      [⟨.HALL_QOS_CTRL_ROUND, 0x000, 1, 8, 0⟩, ⟨.HALL_QOS_CTRL_TOKEN_SCALE, 0x000, 1, 8, 0⟩]
  | .msixDest =>
      [⟨.HALL_MSIX_DEST_DPID, 0x0000, 2048, 8, 0⟩, ⟨.HALL_MSIX_DEST_VALID, 0x0000, 2048, 8, 0⟩]
  | .roomWin =>
      [⟨.ROOM_CFG_CLASS, 0x000, 1, 8, 0⟩, ⟨.ROOM_CFG_ATTR, 0x000, 1, 8, 0⟩,
       ⟨.ROOM_CFG_TIER, 0x000, 1, 8, 0⟩, ⟨.ROOM_CFG_KEY_SLOT, 0x000, 1, 8, 0⟩,
       ⟨.ROOM_CFG_DC_REGION, 0x000, 1, 8, 0⟩, ⟨.ROOM_CFG_WEIGHT, 0x000, 1, 8, 0⟩,
       ⟨.ROOM_BASE, 0x008, 1, 8, 0⟩, ⟨.ROOM_SIZE, 0x010, 1, 8, 0⟩] ++
      [⟨.ROOM_CREDITS_LIMIT, 0x018, 1, 8, 0⟩, ⟨.ROOM_CREDITS_IN_USE, 0x018, 1, 8, 0⟩,
       ⟨.ROOM_STATE, 0x020, 1, 8, 0⟩, ⟨.ROOM_STATE_DEGRADED, 0x020, 1, 8, 0⟩,
       ⟨.ROOM_STATE_READ_ONLY, 0x020, 1, 8, 0⟩, ⟨.ROOM_STATE_LEVELS, 0x020, 1, 8, 0⟩,
       ⟨.ROOM_STATE_HOLDERS, 0x020, 1, 8, 0⟩, ⟨.ROOM_ROOT, 0x028, 1, 8, 0⟩] ++
      [⟨.ROOM_PAGES_COUNT, 0x030, 1, 8, 0⟩, ⟨.ROOM_POISON_COUNT, 0x038, 1, 8, 0⟩,
       ⟨.ROOM_DIRTY_COUNT, 0x040, 1, 8, 0⟩, ⟨.ROOM_LARDER_COUNT, 0x048, 1, 8, 0⟩,
       ⟨.ROOM_RELEASES_PLAIN, 0x050, 1, 8, 0⟩, ⟨.ROOM_RELEASES_SECURE, 0x050, 1, 8, 0⟩,
       ⟨.ROOM_FAULTS_ALLOC_FAIL, 0x058, 1, 8, 0⟩, ⟨.ROOM_FAULTS_HMB_LEAVES, 0x058, 1, 8, 0⟩] ++
      [⟨.ROOM_FAULTS_DEFERRED, 0x058, 1, 8, 0⟩, ⟨.ROOM_HOLD, 0x200, 64, 8, 0⟩, ⟨.ROOM_ACL, 0x400, 64, 8, 0⟩]
  | .hallHmb =>
      [⟨.HALL_HMB_CTRL_ENABLE, 0x000, 1, 8, 0⟩, ⟨.HALL_HMB_CTRL_OWNER, 0x000, 1, 8, 0⟩,
       ⟨.HALL_HMB_BASE_ADDR, 0x008, 1, 8, 0⟩, ⟨.HALL_HMB_SIZE_SLOTS, 0x010, 1, 8, 0⟩,
       ⟨.HALL_HMB_STATUS_ACTIVE, 0x018, 1, 8, 0⟩, ⟨.HALL_HMB_STATUS_WITHDRAWN, 0x018, 1, 8, 0⟩,
       ⟨.HALL_HMB_STATUS_FAILED, 0x018, 1, 8, 0⟩, ⟨.HALL_HMB_STATUS_LEAVES, 0x018, 1, 8, 0⟩] ++
      [⟨.HALL_HMB_STATUS_FAILS, 0x018, 1, 8, 0⟩]
  | .pan =>
      [⟨.PAN_CFG_MODE, 0x000, 1, 8, 0⟩, ⟨.PAN_CFG_WAYS, 0x000, 1, 8, 0⟩,
       ⟨.PAN_CFG_META_MIN_WAYS, 0x000, 1, 8, 0⟩, ⟨.PAN_CFG_SECTOR_FILL, 0x000, 1, 8, 0⟩,
       ⟨.PAN_STATUS_INIT_DONE, 0x008, 1, 8, 0⟩, ⟨.PAN_STATUS_DIRTY_HELD, 0x008, 1, 8, 0⟩,
       ⟨.PAN_STATUS_FAILED, 0x008, 1, 8, 0⟩, ⟨.PAN_ERR_CORRECTED, 0x010, 1, 8, 0⟩] ++
      [⟨.PAN_ERR_REFETCHED, 0x010, 1, 8, 0⟩, ⟨.PAN_ERR_DIRTY_LOST, 0x010, 1, 8, 0⟩,
       ⟨.PAN_ERR_TAG_PARITY, 0x010, 1, 8, 0⟩, ⟨.PAN_ERR_LOC_SET, 0x018, 1, 8, 0⟩,
       ⟨.PAN_ERR_LOC_WAY, 0x018, 1, 8, 0⟩, ⟨.PAN_ERR_LOC_LINE, 0x018, 1, 8, 0⟩,
       ⟨.PAN_ERR_LOC_KIND, 0x018, 1, 8, 0⟩, ⟨.PAN_TIER_PROMOTE_READS, 0x020, 1, 8, 0⟩] ++
      [⟨.PAN_TIER_PROMOTE_WRITES, 0x020, 1, 8, 0⟩, ⟨.PAN_TIER_DEMOTE_MAX, 0x020, 1, 8, 0⟩,
       ⟨.PAN_TIER_DECAY, 0x020, 1, 8, 0⟩, ⟨.PAN_TIER_FREE_LOW, 0x020, 1, 8, 0⟩,
       ⟨.PAN_TIER_ENABLE, 0x020, 1, 8, 0⟩, ⟨.PAN_TIER_STAT_PROMOTIONS, 0x028, 1, 8, 0⟩,
       ⟨.PAN_TIER_STAT_DEMOTIONS, 0x028, 1, 8, 0⟩]
  | .lar =>
      [⟨.LAR_CFG_SPEED, 0x000, 1, 8, 0⟩, ⟨.LAR_CFG_RANKS, 0x000, 1, 8, 0⟩,
       ⟨.LAR_CFG_DENSITY, 0x000, 1, 8, 0⟩, ⟨.LAR_CFG_TOPO, 0x000, 1, 8, 0⟩,
       ⟨.LAR_CFG_CAPACITY, 0x000, 1, 8, 0⟩, ⟨.LAR_CFG_META_SHARE, 0x000, 1, 8, 0⟩,
       ⟨.LAR_CFG_DIR_SHARE, 0x000, 1, 8, 0⟩, ⟨.LAR_CTRL_SCRUB_HOURS, 0x008, 1, 8, 0⟩] ++
      [⟨.LAR_CTRL_WB_HIGH, 0x008, 1, 8, 0⟩, ⟨.LAR_CTRL_WB_AGE, 0x008, 1, 8, 0⟩,
       ⟨.LAR_STATUS_TRAINED, 0x010, 1, 8, 0⟩, ⟨.LAR_STATUS_FAST_TRAIN, 0x010, 1, 8, 0⟩,
       ⟨.LAR_STATUS_HOT_REFRESH, 0x010, 1, 8, 0⟩, ⟨.LAR_STATUS_SELF_REFRESH, 0x010, 1, 8, 0⟩,
       ⟨.LAR_STATUS_OUT_OF_SERVICE, 0x010, 1, 8, 0⟩, ⟨.LAR_STATUS_PIN_SHORT, 0x010, 1, 8, 0⟩] ++
      [⟨.LAR_SLOTS, 0x018, 1, 8, 0⟩, ⟨.LAR_DIRTY_OWN, 0x020, 1, 8, 0⟩, ⟨.LAR_SLOTS_FREE, 0x018, 1, 8, 0⟩,
       ⟨.LAR_DIRTY_MIRROR, 0x020, 1, 8, 0⟩, ⟨.LAR_ERR_CORRECTED, 0x028, 1, 8, 0⟩,
       ⟨.LAR_ERR_UNCORR_CLEAN, 0x028, 1, 8, 0⟩, ⟨.LAR_ERR_UNCORR_DIRTY, 0x028, 1, 8, 0⟩,
       ⟨.LAR_ERR_POISONED, 0x028, 1, 8, 0⟩] ++
      [⟨.LAR_ERR_LOC_BURST, 0x030, 1, 8, 0⟩, ⟨.LAR_ERR_LOC_SUBCH, 0x030, 1, 8, 0⟩,
       ⟨.LAR_ERR_LOC_DEVICE, 0x030, 1, 8, 0⟩, ⟨.LAR_ERR_LOC_RANK, 0x030, 1, 8, 0⟩,
       ⟨.LAR_ERR_LOC_KIND, 0x030, 1, 8, 0⟩]
  | .hallDirty =>
      [⟨.HALL_DIRTY_AMOUNT_PAGES, 0x000, 1, 8, 0⟩, ⟨.HALL_DIRTY_BUDGET_EFFECTIVE, 0x008, 1, 8, 0⟩,
       ⟨.HALL_DIRTY_BUDGET_LIMITED_BY, 0x008, 1, 8, 0⟩, ⟨.HALL_DIRTY_PACE_PACING, 0x010, 1, 8, 0⟩,
       ⟨.HALL_DIRTY_PACE_WAITING, 0x010, 1, 8, 0⟩, ⟨.HALL_DIRTY_PACE_PACED, 0x010, 1, 8, 0⟩,
       ⟨.HALL_DIRTY_CALC_COMPUTED, 0x018, 1, 8, 0⟩, ⟨.HALL_DIRTY_CALC_WRITE_THROUGH, 0x018, 1, 8, 0⟩] ++
      [⟨.HALL_DIRTY_CALC_FLOOR, 0x018, 1, 8, 0⟩, ⟨.HALL_DIRTY_CALC_LOG_PENDING, 0x018, 1, 8, 0⟩]
  | .cel =>
      [⟨.CEL_CTRL_BG_ERASE, 0x000, 1, 8, 0⟩, ⟨.CEL_CTRL_PROG_SLOTS, 0x000, 1, 8, 0⟩,
       ⟨.CEL_CTRL_SUSPEND_EN, 0x000, 1, 8, 0⟩, ⟨.CEL_CTRL_MIG_SLOTS, 0x000, 1, 8, 0⟩,
       ⟨.CEL_CTRL_TEMP_PERIOD, 0x000, 1, 8, 0⟩, ⟨.CEL_STATUS_READY, 0x008, 1, 8, 0⟩,
       ⟨.CEL_STATUS_PRESENT, 0x008, 1, 8, 0⟩, ⟨.CEL_STATUS_FAILED, 0x008, 1, 8, 0⟩] ++
      [⟨.CEL_STATUS_OUT_OF_SERVICE, 0x008, 1, 8, 0⟩, ⟨.CEL_STATUS_WRITE_HOLD, 0x008, 1, 8, 0⟩,
       ⟨.CEL_STATUS_ALERT, 0x008, 1, 8, 0⟩, ⟨.CEL_STATUS_BUS_FAULT, 0x008, 1, 8, 0⟩,
       ⟨.CEL_FRAMES0_IN_USE, 0x010, 1, 8, 0⟩, ⟨.CEL_FRAMES1_SPARE, 0x018, 1, 8, 0⟩,
       ⟨.CEL_FRAMES0_FREE, 0x010, 1, 8, 0⟩, ⟨.CEL_FRAMES1_RETIRED, 0x018, 1, 8, 0⟩] ++
      [⟨.CEL_WEAR_MAX, 0x020, 1, 8, 0⟩, ⟨.CEL_WEAR_MEAN, 0x020, 1, 8, 0⟩,
       ⟨.CEL_ERR0_CORRECTED, 0x028, 1, 8, 0⟩, ⟨.CEL_ERR0_RETRIED, 0x028, 1, 8, 0⟩,
       ⟨.CEL_ERR0_UNCORR, 0x028, 1, 8, 0⟩, ⟨.CEL_ERR1_PROG_FAIL, 0x030, 1, 8, 0⟩,
       ⟨.CEL_ERR1_ERASE_FAIL, 0x030, 1, 8, 0⟩, ⟨.CEL_ERR1_BUS_CRC, 0x030, 1, 8, 0⟩] ++
      [⟨.CEL_ERR1_TIMEOUT, 0x030, 1, 8, 0⟩, ⟨.CEL_ERR_LOC_FRAME, 0x038, 1, 8, 0⟩,
       ⟨.CEL_ERR_LOC_PKG, 0x038, 1, 8, 0⟩, ⟨.CEL_ERR_LOC_LINE, 0x038, 1, 8, 0⟩,
       ⟨.CEL_ERR_LOC_KIND, 0x038, 1, 8, 0⟩, ⟨.CEL_ERR_LOC_BITS, 0x038, 1, 8, 0⟩,
       ⟨.CEL_TEMP0, 0x040, 1, 8, 0⟩, ⟨.CEL_TEMP0_TEMP1, 0x040, 1, 8, 0⟩] ++
      [⟨.CEL_TEMP0_TEMP2, 0x040, 1, 8, 0⟩, ⟨.CEL_TEMP0_TEMP3, 0x040, 1, 8, 0⟩,
       ⟨.CEL_TEMP1_TEMP4, 0x048, 1, 8, 0⟩, ⟨.CEL_TEMP1_TEMP5, 0x048, 1, 8, 0⟩,
       ⟨.CEL_TEMP1_TEMP6, 0x048, 1, 8, 0⟩, ⟨.CEL_TEMP1_TEMP7, 0x048, 1, 8, 0⟩,
       ⟨.CEL_HIST_COUNT, 0x100, 32, 8, 0⟩, ⟨.CEL_ID_VENDOR, 0x200, 8, 8, 0⟩] ++
      [⟨.CEL_ID_DEVICE, 0x200, 8, 8, 0⟩, ⟨.CEL_ID_SERIAL, 0x200, 8, 8, 0⟩]
  | .hallMedia =>
      [⟨.HALL_MEDIA_SPARE_SPARES, 0x000, 1, 8, 0⟩, ⟨.HALL_MEDIA_SPARE_FLOOR, 0x000, 1, 8, 0⟩,
       ⟨.HALL_MEDIA_STATE_READ_ONLY, 0x008, 1, 8, 0⟩, ⟨.HALL_MEDIA_STATE_NO_SPARE, 0x008, 1, 8, 0⟩,
       ⟨.HALL_MEDIA_STATE_TARGET, 0x008, 1, 8, 0⟩, ⟨.HALL_MEDIA_WEAR_MEAN, 0x010, 1, 8, 0⟩,
       ⟨.HALL_MEDIA_WEAR_MAX, 0x010, 1, 8, 0⟩, ⟨.HALL_MEDIA_RETIRED, 0x018, 1, 8, 0⟩] ++
      [⟨.HALL_JUNCTION_HIST_COUNT, 0x100, 32, 8, 0⟩]
  | .prcRt =>
      [⟨.PRC_RT_BEAT, 0x000, 1, 8, 0⟩, ⟨.PRC_RT_FRAC, 0x008, 1, 8, 0⟩,
       ⟨.PRC_RT_FRAC_PERIOD, 0x008, 1, 8, 0⟩, ⟨.PRC_RT_STATE, 0x010, 1, 8, 0⟩,
       ⟨.PRC_RT_STATE_MISSING, 0x010, 1, 8, 0⟩, ⟨.PRC_RT_STATE_CORR_USED, 0x010, 1, 8, 0⟩,
       ⟨.PRC_RT_STATE_STEPS, 0x010, 1, 8, 0⟩, ⟨.PRC_RT_STATE_GLITCHES, 0x010, 1, 8, 0⟩] ++
      [⟨.PRC_RT_EPOCH_LAST_E, 0x018, 1, 8, 0⟩, ⟨.PRC_RT_PHASE, 0x020, 1, 8, 0⟩,
       ⟨.PRC_RT_CORR_A_FIRST, 0x100, 16, 16, 0⟩, ⟨.PRC_RT_CORR_A_LAST, 0x100, 16, 16, 0⟩,
       ⟨.PRC_RT_CORR_B_SHIFT, 0x108, 16, 16, 0⟩, ⟨.PRC_RT_CORR_B_SPREAD, 0x108, 16, 16, 0⟩]
  | .wing =>
      [⟨.WING_CAL_SCRUB_PERIOD, 0x200, 1, 8, 0⟩, ⟨.WING_CAL_CADENCE_DIV, 0x200, 1, 8, 0⟩,
       ⟨.WING_CAL_REFRESH_SLOTS, 0x200, 1, 8, 0⟩, ⟨.WING_CAL_PROG_MA, 0x200, 1, 8, 0⟩,
       ⟨.WING_DRIFT_SEARCHES, 0x208, 1, 8, 0⟩, ⟨.WING_DRIFT_SPAN_READS, 0x208, 1, 8, 0⟩,
       ⟨.WING_DRIFT_SETTLES, 0x208, 1, 8, 0⟩, ⟨.WING_DRIFT_SEARCH_FAIL, 0x208, 1, 8, 0⟩] ++
      [⟨.WING_REFRESH_QUEUED, 0x210, 1, 8, 0⟩, ⟨.WING_REFRESH_DONE, 0x210, 1, 8, 0⟩,
       ⟨.WING_SCRUB_PROGRESS, 0x218, 1, 8, 0⟩, ⟨.WING_SCRUB_SCRUB_LATE, 0x218, 1, 8, 0⟩,
       ⟨.WING_BRACE_REBUILD_SLOTS, 0x220, 1, 8, 0⟩, ⟨.WING_BRACE_ACTING, 0x220, 1, 8, 0⟩,
       ⟨.WING_BRACE_TAKEOVER_DIR, 0x220, 1, 8, 0⟩, ⟨.WING_BRACE_RECOMPUTE, 0x220, 1, 8, 0⟩] ++
      [⟨.WING_BRACE_STAT_RECONSTRUCTED, 0x228, 1, 8, 0⟩, ⟨.WING_BRACE_STAT_UNSETTLED, 0x228, 1, 8, 0⟩,
       ⟨.WING_BRACE_STAT_DOUBLE, 0x228, 1, 8, 0⟩]
  | .home =>
      [⟨.HOME_CTRL_OWNED_EN, 0x000, 1, 8, 0⟩, ⟨.HOME_CTRL_QUEUE_LIMIT, 0x000, 1, 8, 0⟩,
       ⟨.HOME_STATUS_TRACKERS, 0x008, 1, 8, 0⟩, ⟨.HOME_STATUS_QUEUED, 0x008, 1, 8, 0⟩,
       ⟨.HOME_STATUS_DIR_LOST, 0x008, 1, 8, 0⟩, ⟨.HOME_DIR_ENTRIES, 0x010, 1, 8, 0⟩,
       ⟨.HOME_DIR_COARSE, 0x010, 1, 8, 0⟩, ⟨.HOME_DIR_STAT_EVICTIONS, 0x018, 1, 8, 0⟩] ++
      [⟨.HOME_DIR_STAT_CHECK_FAIL, 0x018, 1, 8, 0⟩, ⟨.HOME_BISNP_SENT, 0x020, 1, 8, 0⟩,
       ⟨.HOME_BISNP_FORWARDS, 0x020, 1, 8, 0⟩, ⟨.HOME_ATOMIC_EXECUTED, 0x028, 1, 8, 0⟩,
       ⟨.HOME_ATOMIC_FAILED, 0x028, 1, 8, 0⟩, ⟨.HOME_ATOMIC_REFUSED, 0x028, 1, 8, 0⟩,
       ⟨.HOME_HOLDERS_HOLD, 0x100, 64, 8, 0⟩]
  | .prcRes =>
      [⟨.PRC_RES_CFG0_ICHG, 0x000, 1, 8, 0⟩, ⟨.PRC_RES_CFG0_V_MIN, 0x000, 1, 8, 0⟩,
       ⟨.PRC_RES_CFG0_DRAIN_W, 0x000, 1, 8, 0⟩, ⟨.PRC_RES_CFG0_TEST_DROP, 0x000, 1, 8, 0⟩,
       ⟨.PRC_RES_CFG0_LOCK, 0x000, 1, 8, 0⟩, ⟨.PRC_RES_CFG1_SENSE_GAIN, 0x008, 1, 8, 0⟩,
       ⟨.PRC_RES_CFG1_CT_PERIOD, 0x008, 1, 8, 0⟩, ⟨.PRC_RES_CFG1_TEST_NOW, 0x008, 1, 8, 0⟩] ++
      [⟨.PRC_RES_CFG1_CHG_LIMIT, 0x008, 1, 8, 0⟩, ⟨.PRC_RES_STATUS_STATE, 0x010, 1, 8, 0⟩,
       ⟨.PRC_RES_STATUS_CHG_EN, 0x010, 1, 8, 0⟩, ⟨.PRC_RES_STATUS_VOLTS, 0x010, 1, 8, 0⟩,
       ⟨.PRC_RES_STATUS_TEMP, 0x010, 1, 8, 0⟩, ⟨.PRC_RES_STATUS_FAIL_CAUSE, 0x010, 1, 8, 0⟩,
       ⟨.PRC_RES_STATUS_INCONCLUSIVE, 0x010, 1, 8, 0⟩, ⟨.PRC_RES_MEAS_CAP, 0x018, 1, 8, 0⟩] ++
      [⟨.PRC_RES_MEAS_ENERGY, 0x018, 1, 8, 0⟩, ⟨.PRC_RES_TEST_LAST_BEAT, 0x020, 1, 8, 0⟩,
       ⟨.PRC_RES_TEST_TESTS, 0x020, 1, 8, 0⟩]
  | .hallDrain =>
      [⟨.HALL_DRAIN_STATUS_STEP, 0x000, 1, 8, 0⟩, ⟨.HALL_DRAIN_STATUS_LAST_KIND, 0x000, 1, 8, 0⟩,
       ⟨.HALL_DRAIN_STATUS_LAST_STOP, 0x000, 1, 8, 0⟩, ⟨.HALL_DRAIN_STATUS_DIRTY_STOPS, 0x000, 1, 8, 0⟩,
       ⟨.HALL_DRAIN_LAST_SKIPPED, 0x008, 1, 8, 0⟩, ⟨.HALL_DRAIN_LAST_DRAIN_MS, 0x008, 1, 8, 0⟩,
       ⟨.HALL_DRAIN_RECOVERY_POISONED, 0x010, 1, 8, 0⟩, ⟨.HALL_DRAIN_RECOVERY_RECOVERY_MS, 0x010, 1, 8, 0⟩]
  | .lks =>
      [⟨.LKS_STATUS_EPH_READY, 0x000, 1, 8, 0⟩, ⟨.LKS_STATUS_LOCKDOWN, 0x000, 1, 8, 0⟩,
       ⟨.LKS_STATUS_TREE_LOST, 0x000, 1, 8, 0⟩, ⟨.LKS_STATUS_SLOTS_LOADED, 0x000, 1, 8, 0⟩,
       ⟨.LKS_ANCHOR_A, 0x008, 1, 8, 0⟩, ⟨.LKS_CKPT_LAST_BEAT, 0x010, 1, 8, 0⟩,
       ⟨.LKS_LOCK_LOC_ROOM, 0x018, 1, 8, 0⟩, ⟨.LKS_LOCK_LOC_INDEX, 0x018, 1, 8, 0⟩] ++
      [⟨.LKS_LOCK_LOC_LINE, 0x018, 1, 8, 0⟩, ⟨.LKS_LOCK_LOC_KIND, 0x018, 1, 8, 0⟩,
       ⟨.LKS_LOCK_LOC_WING, 0x018, 1, 8, 0⟩, ⟨.LKS_CTR_STAT_REENCRYPT, 0x020, 1, 8, 0⟩,
       ⟨.LKS_CTR_STAT_SEALED, 0x020, 1, 8, 0⟩, ⟨.LKS_CTR_STAT_SKIPS, 0x020, 1, 8, 0⟩,
       ⟨.LKS_SLOT_LOADED, 0x100, 64, 8, 0⟩]
  | .lksW =>
      [⟨.LKS_TREE_COPY_USED, 0x000, 1, 8, 0⟩, ⟨.LKS_TREE_REWRITTEN, 0x000, 1, 8, 0⟩,
       ⟨.LKS_TREE_LOST, 0x000, 1, 8, 0⟩, ⟨.LKS_TREE_LOC_ROOM, 0x008, 1, 8, 0⟩,
       ⟨.LKS_TREE_LOC_INDEX, 0x008, 1, 8, 0⟩, ⟨.LKS_TREE_LOC_LEVEL, 0x008, 1, 8, 0⟩]
  | .hallSvc =>
      [⟨.HALL_SVC_STATE, 0x000, 48, 8, 0⟩, ⟨.HALL_SVC_STALLED, 0x000, 48, 8, 0⟩,
       ⟨.HALL_SVC_REMIRROR, 0x000, 48, 8, 0⟩, ⟨.HALL_SVC_CAUSE, 0x000, 48, 8, 0⟩,
       ⟨.HALL_SVC_PROGRESS, 0x000, 48, 8, 0⟩, ⟨.HALL_SVC_STRIPES, 0x000, 48, 8, 0⟩]
  | .str =>
      [⟨.STR_CTRL_PAUSE, 0x000, 1, 8, 0⟩, ⟨.STR_CTRL_ABORT, 0x000, 1, 8, 0⟩,
       ⟨.STR_CTRL_MAX_INFLIGHT, 0x000, 1, 8, 0⟩, ⟨.STR_STATUS_STATE, 0x008, 1, 8, 0⟩,
       ⟨.STR_STATUS_REQUESTER, 0x008, 1, 8, 0⟩, ⟨.STR_STATUS_RING, 0x008, 1, 8, 0⟩,
       ⟨.STR_STATUS_ROOM, 0x008, 1, 8, 0⟩, ⟨.STR_STATUS_INFLIGHT, 0x008, 1, 8, 0⟩] ++
      [⟨.STR_PC, 0x010, 1, 8, 0⟩, ⟨.STR_PC_WAITING, 0x010, 1, 8, 0⟩, ⟨.STR_STAT_BYTES, 0x018, 1, 8, 0⟩,
       ⟨.STR_STAT_ERRORS, 0x018, 1, 8, 0⟩]
  | .ring =>
      [⟨.RING_SEL_REQUESTER, 0x000, 1, 8, 0⟩, ⟨.RING_SEL_RING, 0x000, 1, 8, 0⟩,
       ⟨.RING_ERR_DB_IGNORED, 0x008, 1, 8, 0⟩, ⟨.RING_ERR_BAD_CONTEXT, 0x008, 1, 8, 0⟩,
       ⟨.RING_ERR_FOREIGN, 0x008, 1, 8, 0⟩, ⟨.RING_CTX_WORD, 0x040, 8, 8, 0⟩]
  | .lnd =>
      [⟨.LND_STATE_ROLE, 0x000, 1, 8, 0⟩, ⟨.LND_STATE_INDEX, 0x000, 1, 8, 0⟩,
       ⟨.LND_STATE_MANAGER_SEEN, 0x000, 1, 8, 0⟩, ⟨.LND_STATE_STANDBY_SEEN, 0x000, 1, 8, 0⟩,
       ⟨.LND_STATE_MIRROR_STALE, 0x000, 1, 8, 0⟩, ⟨.LND_STATE_EVACUATING, 0x000, 1, 8, 0⟩,
       ⟨.LND_TERM, 0x008, 1, 8, 0⟩, ⟨.LND_CTRL_RETRY_MS, 0x010, 1, 8, 0⟩] ++
      [⟨.LND_CTRL_FREEZE_MS, 0x010, 1, 8, 0⟩, ⟨.LND_CTRL_MAX_ROUNDS, 0x010, 1, 8, 0⟩,
       ⟨.LND_CTRL_EVAC_AUTO, 0x010, 1, 8, 0⟩, ⟨.LND_MIG_ROOM, 0x018, 1, 8, 0⟩,
       ⟨.LND_MIG_STEP, 0x018, 1, 8, 0⟩, ⟨.LND_MIG_SOURCE, 0x018, 1, 8, 0⟩,
       ⟨.LND_MIG_ROUND, 0x018, 1, 8, 0⟩, ⟨.LND_MIG_PEER, 0x018, 1, 8, 0⟩] ++
      [⟨.LND_ERR_RETRIES, 0x020, 1, 8, 0⟩, ⟨.LND_ERR_DUPLICATES, 0x020, 1, 8, 0⟩,
       ⟨.LND_ERR_TERM_REJECTS, 0x020, 1, 8, 0⟩, ⟨.LND_ERR_MISSED, 0x020, 1, 8, 0⟩]
  | .hallState =>
      [⟨.HALL_STATE, 0x000, 1, 8, 0⟩, ⟨.HALL_STATE_HALT_CAUSE, 0x000, 1, 8, 0⟩,
       ⟨.HALL_STATE_PREVIOUS, 0x000, 1, 8, 0⟩, ⟨.HALL_STATE_UNCLEAN_RAIL, 0x000, 1, 8, 0⟩]
  | .fbx =>
      [⟨.FBX_CTRL_OFF_REQ, 0x000, 1, 8, 0⟩, ⟨.FBX_SEQ_STEP, 0x008, 1, 8, 0⟩,
       ⟨.FBX_SEQ_HALL, 0x008, 1, 8, 0⟩, ⟨.FBX_SEQ_PHASE, 0x008, 1, 8, 0⟩,
       ⟨.FBX_SEQ_RETRIES_LEFT, 0x008, 1, 8, 0⟩, ⟨.FBX_SEQ_OFF_LATCHED, 0x008, 1, 8, 0⟩,
       ⟨.FBX_SEQ_ON_LATCHED, 0x008, 1, 8, 0⟩, ⟨.FBX_SEQ_FAULT_MON, 0x008, 1, 8, 0⟩] ++
      [⟨.FBX_SEQ_FAULT_KIND, 0x008, 1, 8, 0⟩, ⟨.FBX_SNAP_TIME_BEAT, 0x010, 1, 8, 0⟩,
       ⟨.FBX_SNAP_TIME_VALID, 0x010, 1, 8, 0⟩, ⟨.FBX_PD_ON, 0x018, 1, 8, 0⟩,
       ⟨.FBX_PD_SWITCHING, 0x018, 1, 8, 0⟩, ⟨.FBX_MON_READING, 0x100, 32, 8, 0⟩,
       ⟨.FBX_MON_STATE, 0x100, 32, 8, 0⟩, ⟨.FBX_MON_OUTSIDE, 0x100, 32, 8, 0⟩] ++
      [⟨.FBX_MON_LOW, 0x100, 32, 8, 0⟩, ⟨.FBX_MON_HIGH, 0x100, 32, 8, 0⟩,
       ⟨.FBX_MON_GLITCH, 0x100, 32, 8, 0⟩, ⟨.FBX_MON_QUAL, 0x100, 32, 8, 0⟩,
       ⟨.FBX_SNAP_READING, 0x200, 32, 8, 0⟩, ⟨.FBX_SNAP_OUTSIDE, 0x200, 32, 8, 0⟩,
       ⟨.FBX_RAILCNT_LOW_FAULTS, 0x300, 32, 8, 0⟩, ⟨.FBX_RAILCNT_HIGH_FAULTS, 0x300, 32, 8, 0⟩] ++
      [⟨.FBX_RAILCNT_SEQ_TIMEOUTS, 0x300, 32, 8, 0⟩]
  | .prcIn =>
      [⟨.PRC_IN_CFG_VIN_FAIL, 0x000, 1, 8, 0⟩, ⟨.PRC_IN_CFG_VIN_OK, 0x000, 1, 8, 0⟩,
       ⟨.PRC_IN_CFG_FAIL_TIME, 0x000, 1, 8, 0⟩, ⟨.PRC_IN_CFG_HOLDOFF_MS, 0x000, 1, 8, 0⟩,
       ⟨.PRC_IN_STATUS_VIN, 0x008, 1, 8, 0⟩, ⟨.PRC_IN_STATUS_VIN_GOOD, 0x008, 1, 8, 0⟩,
       ⟨.PRC_IN_STATUS_WAKE_N, 0x008, 1, 8, 0⟩, ⟨.PRC_IN_STATUS_SR_BROKEN, 0x008, 1, 8, 0⟩] ++
      [⟨.PRC_IN_STATUS_VSTBY, 0x008, 1, 8, 0⟩, ⟨.PRC_IN_STATUS_DIPS, 0x008, 1, 8, 0⟩,
       ⟨.PRC_IN_STATUS_FAILS, 0x008, 1, 8, 0⟩, ⟨.PRC_SLUMBER_SLUMBER_REQ, 0x010, 1, 8, 0⟩,
       ⟨.PRC_SLUMBER_WAKE, 0x010, 1, 8, 0⟩, ⟨.PRC_SLUMBER_WAKE_ARM, 0x010, 1, 8, 0⟩,
       ⟨.PRC_SLUMBER_REFUSED, 0x010, 1, 8, 0⟩, ⟨.PRC_WAKE_BEAT, 0x018, 1, 8, 0⟩] ++
      [⟨.PRC_NTC_NTC_B, 0x020, 1, 8, 0⟩, ⟨.PRC_NTC_NTC_NOM, 0x020, 1, 8, 0⟩,
       ⟨.PRC_NTC_NTC_PULL, 0x020, 1, 8, 0⟩]
  | .chm =>
      [⟨.CHM_LEVELS_WARN, 0x000, 1, 8, 0⟩, ⟨.CHM_LEVELS_THROTTLE, 0x000, 1, 8, 0⟩,
       ⟨.CHM_LEVELS_SHUTDOWN, 0x000, 1, 8, 0⟩, ⟨.CHM_LEVELS_HYST, 0x000, 1, 8, 0⟩,
       ⟨.CHM_WIN0_MEDIA_LO, 0x008, 1, 8, 0⟩, ⟨.CHM_WIN0_MEDIA_HI, 0x008, 1, 8, 0⟩,
       ⟨.CHM_WIN0_DRAIN_LO, 0x008, 1, 8, 0⟩, ⟨.CHM_WIN0_DRAIN_HI, 0x008, 1, 8, 0⟩] ++
      [⟨.CHM_WIN1_CHG_LO, 0x010, 1, 8, 0⟩, ⟨.CHM_WIN1_CHG_HI, 0x010, 1, 8, 0⟩,
       ⟨.CHM_STATUS_WARN, 0x018, 1, 8, 0⟩, ⟨.CHM_STATUS_THROTTLE, 0x018, 1, 8, 0⟩,
       ⟨.CHM_STATUS_SHUTDOWN, 0x018, 1, 8, 0⟩, ⟨.CHM_STATUS_LATCH, 0x018, 1, 8, 0⟩,
       ⟨.CHM_STATUS_STAGE, 0x018, 1, 8, 0⟩, ⟨.CHM_STATUS_HOTTEST, 0x018, 1, 8, 0⟩] ++
      [⟨.CHM_STATUS_TEMP, 0x018, 1, 8, 0⟩, ⟨.CHM_CTRL_STAGE_MS, 0x020, 1, 8, 0⟩,
       ⟨.CHM_CTRL_MAX_STAGE, 0x020, 1, 8, 0⟩, ⟨.CHM_TS_TEMP, 0x100, 104, 8, 0⟩,
       ⟨.CHM_TS_VALID, 0x100, 104, 8, 0⟩, ⟨.CHM_TS_FAST, 0x100, 104, 8, 0⟩,
       ⟨.CHM_TS_COUNT, 0x100, 104, 8, 0⟩]
  | .flt =>
      [⟨.FLT_CTRL_REARM, 0x000, 1, 8, 0⟩, ⟨.FLT_CTRL_TRAP_DONE, 0x000, 1, 8, 0⟩,
       ⟨.FLT_STATUS_FIRST_VALID, 0x008, 1, 8, 0⟩, ⟨.FLT_STATUS_ERR_N, 0x008, 1, 8, 0⟩,
       ⟨.FLT_STATUS_TRAP_PENDING, 0x008, 1, 8, 0⟩, ⟨.FLT_STATUS_ACTIVE, 0x008, 1, 8, 0⟩,
       ⟨.FLT_FIRST_WORD, 0x010, 4, 8, 0⟩, ⟨.FLT_LAST_WORD, 0x030, 4, 8, 0⟩] ++
      [⟨.FLT_CNT_EVENTS, 0x050, 1, 8, 0⟩, ⟨.FLT_CNT_MERGED, 0x050, 1, 8, 0⟩,
       ⟨.FLT_EVQ_ITEM, 0x058, 1, 8, 0⟩, ⟨.FLT_EVQ_CFG_LIMIT, 0x060, 1, 8, 0⟩,
       ⟨.FLT_EVQ_CFG_DEPTH_USED, 0x060, 1, 8, 0⟩, ⟨.FLT_EVQ_CFG_LOST, 0x060, 1, 8, 0⟩,
       ⟨.FLT_SRC_STATUS, 0x800, 256, 8, 0⟩, ⟨.FLT_SRC_FORCE, 0x800, 256, 8, 0⟩] ++
      [⟨.FLT_SRC_BUCKET_EN, 0x800, 256, 8, 0⟩, ⟨.FLT_SRC_FIXED, 0x800, 256, 8, 0⟩,
       ⟨.FLT_SRC_REACTION, 0x800, 256, 8, 0⟩, ⟨.FLT_SRC_ERR_N, 0x800, 256, 8, 0⟩,
       ⟨.FLT_SRC_LEVEL, 0x800, 256, 8, 0⟩, ⟨.FLT_SRC_COUNT, 0x800, 256, 8, 0⟩,
       ⟨.FLT_SRC_DEPTH, 0x800, 256, 8, 0⟩, ⟨.FLT_SRC_LEAK, 0x800, 256, 8, 0⟩] ++
      [⟨.FLT_SRC_SEVERITY, 0x800, 256, 8, 0⟩]
  | .fltW =>
      [⟨.FLT_EVQ_ITEM, 0x058, 1, 8, 1⟩, ⟨.FLT_EVQ_CFG_LIMIT, 0x060, 1, 8, 1⟩,
       ⟨.FLT_EVQ_CFG_DEPTH_USED, 0x060, 1, 8, 1⟩, ⟨.FLT_EVQ_CFG_LOST, 0x060, 1, 8, 1⟩,
       ⟨.FLT_SRC_STATUS, 0x800, 224, 8, 256⟩, ⟨.FLT_SRC_FORCE, 0x800, 224, 8, 256⟩,
       ⟨.FLT_SRC_BUCKET_EN, 0x800, 224, 8, 256⟩, ⟨.FLT_SRC_FIXED, 0x800, 224, 8, 256⟩] ++
      [⟨.FLT_SRC_REACTION, 0x800, 224, 8, 256⟩, ⟨.FLT_SRC_ERR_N, 0x800, 224, 8, 256⟩,
       ⟨.FLT_SRC_LEVEL, 0x800, 224, 8, 256⟩, ⟨.FLT_SRC_COUNT, 0x800, 224, 8, 256⟩,
       ⟨.FLT_SRC_DEPTH, 0x800, 224, 8, 256⟩, ⟨.FLT_SRC_LEAK, 0x800, 224, 8, 256⟩,
       ⟨.FLT_SRC_SEVERITY, 0x800, 224, 8, 256⟩, ⟨.FLT_WCTRL_TRAP_CORE, 0x000, 1, 8, 0⟩] ++
      [⟨.FLT_WCTRL_TRAP_DONE, 0x000, 1, 8, 0⟩, ⟨.FLT_WCTRL_TRAP_PENDING, 0x000, 1, 8, 0⟩]
  | .atc =>
      [⟨.ATC_STATUS_BUF_BYTES, 0x000, 1, 8, 0⟩, ⟨.ATC_STATUS_FLUSHING, 0x000, 1, 8, 0⟩,
       ⟨.ATC_STATUS_AREA_LOST, 0x000, 1, 8, 0⟩, ⟨.ATC_STATUS_FLUSHES, 0x000, 1, 8, 0⟩,
       ⟨.ATC_SEL_PART, 0x008, 1, 8, 0⟩, ⟨.ATC_SEL_SLOT, 0x008, 1, 8, 0⟩,
       ⟨.ATC_PART_SLOTS, 0x100, 11, 8, 0⟩, ⟨.ATC_PART_USED, 0x100, 11, 8, 0⟩] ++
      [⟨.ATC_PART_DROPPED, 0x100, 11, 8, 0⟩, ⟨.ATC_PART_CLEARS, 0x100, 11, 8, 0⟩,
       ⟨.ATC_WIN_WORD, 0x800, 128, 8, 0⟩]
  | .cpb =>
      [⟨.CPB_STATUS_BUSY, 0x000, 1, 8, 0⟩, ⟨.CPB_STATUS_QUEUED, 0x000, 1, 8, 0⟩,
       ⟨.CPB_STATUS_WORN, 0x000, 1, 8, 0⟩, ⟨.CPB_STATUS_SATURATED, 0x000, 1, 8, 0⟩,
       ⟨.CPB_STATUS_MAP_LOST, 0x000, 1, 8, 0⟩, ⟨.CPB_SEL_PAGE, 0x008, 1, 8, 0⟩,
       ⟨.CPB_WEAR_WRITE_FAILS, 0x010, 1, 8, 0⟩, ⟨.CPB_WEAR_WORN_PAGES, 0x010, 1, 8, 0⟩] ++
      [⟨.CPB_DATA_WORD, 0x040, 8, 8, 0⟩, ⟨.CPB_CNT_VALUE, 0x100, 16, 8, 0⟩]
  | .pmc =>
      [⟨.PMC_CTRL_FREEZE, 0x000, 1, 8, 0⟩, ⟨.PMC_CTRL_SNAP_NOW, 0x000, 1, 8, 0⟩,
       ⟨.PMC_CTRL_ARM, 0x000, 1, 8, 0⟩, ⟨.PMC_CTRL_DISARM, 0x000, 1, 8, 0⟩,
       ⟨.PMC_CTRL_FREEZE_AT_SNAP, 0x000, 1, 8, 0⟩, ⟨.PMC_SNAP_BEAT, 0x008, 1, 8, 0⟩,
       ⟨.PMC_SNAP_STATUS_ARMED, 0x010, 1, 8, 0⟩, ⟨.PMC_SNAP_STATUS_LATE, 0x010, 1, 8, 0⟩] ++
      [⟨.PMC_SNAP_STATUS_SKIPPED, 0x010, 1, 8, 0⟩, ⟨.PMC_SNAP_STATUS_BEAT, 0x010, 1, 8, 0⟩,
       ⟨.PMC_SEL_BANK, 0x018, 1, 8, 0⟩, ⟨.PMC_SEL_SHADOW, 0x018, 1, 8, 0⟩,
       ⟨.PMC_OVF_MSG_REQUESTER, 0x020, 1, 8, 0⟩, ⟨.PMC_OVF_MSG_VALID, 0x020, 1, 8, 0⟩,
       ⟨.PMC_OVF_MSG_DATA, 0x020, 1, 8, 0⟩, ⟨.PMC_OVF_ADDR, 0x028, 1, 8, 0⟩] ++
      [⟨.PMC_PENDING, 0x030, 1, 8, 0⟩, ⟨.PMC_SMP_CFG_ENABLE, 0x040, 1, 8, 0⟩,
       ⟨.PMC_SMP_CFG_RATE_LOG2, 0x040, 1, 8, 0⟩, ⟨.PMC_SMP_CFG_WRAP, 0x040, 1, 8, 0⟩,
       ⟨.PMC_SMP_CFG_ON_OVF, 0x040, 1, 8, 0⟩, ⟨.PMC_SMP_CFG_ROOM, 0x040, 1, 8, 0⟩,
       ⟨.PMC_SMP_CFG_ROOM_ONLY, 0x040, 1, 8, 0⟩, ⟨.PMC_SMP_CFG_OVF_SRC, 0x040, 1, 8, 0⟩] ++
      [⟨.PMC_OVF_EN, 0x100, 8, 8, 0⟩, ⟨.PMC_OVF, 0x180, 8, 8, 0⟩, ⟨.PMC_WIN_VALUE, 0x400, 128, 8, 0⟩]
  | .pmcW =>
      [⟨.PMC_SEL_BANK, 0x018, 1, 8, 1⟩, ⟨.PMC_SEL_SHADOW, 0x018, 1, 8, 1⟩, ⟨.PMC_OVF_EN, 0x100, 12, 8, 8⟩,
       ⟨.PMC_OVF, 0x180, 12, 8, 8⟩, ⟨.PMC_WIN_VALUE, 0x400, 128, 8, 128⟩,
       ⟨.PMC_SMP_PTR_NEXT, 0x050, 1, 8, 0⟩, ⟨.PMC_SMP_PTR_FULL, 0x050, 1, 8, 0⟩,
       ⟨.PMC_SMP_PTR_SKIPPED, 0x050, 1, 8, 0⟩] ++
      [⟨.PMC_SMP_SEL_RECORD, 0x058, 1, 8, 0⟩, ⟨.PMC_SMP_WIN_WORD, 0x800, 8, 8, 0⟩]
  | .bst =>
      [⟨.BST_CMD_TARGET, 0x000, 1, 8, 0⟩, ⟨.BST_CMD_KIND, 0x000, 1, 8, 0⟩,
       ⟨.BST_STATUS_STATE, 0x100, 9, 8, 0⟩, ⟨.BST_STATUS_KIND, 0x100, 9, 8, 0⟩,
       ⟨.BST_STATUS_REFUSE, 0x100, 9, 8, 0⟩, ⟨.BST_MISR, 0x200, 18, 8, 0⟩,
       ⟨.BST_ECC_PANTRY, 0x300, 1, 8, 0⟩, ⟨.BST_ECC_LARDER, 0x300, 1, 8, 0⟩] ++
      [⟨.BST_ECC_CELLAR, 0x300, 1, 8, 0⟩, ⟨.BST_ECC_MAC, 0x300, 1, 8, 0⟩,
       ⟨.BST_ECC_CORRIDOR, 0x300, 1, 8, 0⟩, ⟨.BST_ECC_CUPBOARD, 0x300, 1, 8, 0⟩,
       ⟨.BST_ECC_FIXED, 0x300, 1, 8, 0⟩, ⟨.BST_ECC_DONE, 0x300, 1, 8, 0⟩]
  | .cor =>
      [⟨.COR_LINK_UP, 0x000, 8, 8, 0⟩, ⟨.COR_LINK_LANES, 0x000, 8, 8, 0⟩,
       ⟨.COR_LINK_REPAIRED, 0x000, 8, 8, 0⟩, ⟨.COR_LINK_REPLAYS, 0x000, 8, 8, 0⟩,
       ⟨.COR_LINK_TAKEDOWNS, 0x000, 8, 8, 0⟩]
  | .corW =>
      [⟨.COR_LINK_UP, 0x000, 3, 8, 8⟩, ⟨.COR_LINK_LANES, 0x000, 3, 8, 8⟩,
       ⟨.COR_LINK_REPAIRED, 0x000, 3, 8, 8⟩, ⟨.COR_LINK_REPLAYS, 0x000, 3, 8, 8⟩,
       ⟨.COR_LINK_TAKEDOWNS, 0x000, 3, 8, 8⟩]

end Sys2Proof.Machine
end

