-- ==== Sys2Proof/Machine/Types.lean ====
section
/-! DEFINITION. The types the state is made of: the floor plan's records, pages, frames, requests, rings, records.
Each structure names the rule of the spec that gives it. Plain data throughout. -/

namespace Sys2Proof.Machine

/-- The part fitted (R1). -/
inductive Part where
  | y8 | y4 | y2
  deriving DecidableEq, Repr

/-- The device states of R438, and the absence of VSTBY that R439 lists beside them. -/
inductive DevState where
  | off | standby | powering | boot | recovery | serving | draining | slumber | halted | thermalLatch | seqFault | noVstby
  deriving DecidableEq, Repr

/-! ### The floor plan (02) -/

/-- A room entry (R34). -/
structure RoomCfg where
  room : Nat
  cls : Nat
  attr : Nat
  tier : Nat
  action : Nat
  keySlot : Nat
  base : Nat
  size : Nat
  weight : Nat
  credits : Nat
  acl : List Nat
  region : Nat
  deriving DecidableEq, Repr

/-- A RINGS entry (R36). -/
structure RingCfg where
  requester : Nat
  count : Nat
  mask : Nat
  charge : Nat
  deriving DecidableEq, Repr

/-- A drift table entry (R243). -/
structure DriftEntry where
  pri : List Int
  alt : List Int
  balance : Nat
  valid : Bool
  deriving DecidableEq, Repr

/-- A MEDIA section (R32, R198 to R200, R243). -/
structure MediaProfile where
  name : List Byte
  vendor : Nat
  device : Nat
  frames : Nat
  sysFrames : Nat
  banks : Nat
  bankShift : Nat
  progPerPkg : Nat
  spareInit : Nat
  rl : Nat
  tsusMax : Nat
  tminrun : Nat
  tresMax : Nat
  tprogTyp : Nat
  tprogMax : Nat
  teraseMax : Nat
  tta : Nat
  busRate : Nat
  progCurrent : Nat
  drift : List DriftEntry
  rated : Nat
  refreshBits : Nat
  uncRetire : Nat
  deriving DecidableEq, Repr

/-- The LARDER section (R33, R156). -/
structure LarderCfg where
  speed : Nat
  ranks : Nat
  density : Nat
  topo : Nat
  capacity : Nat
  refresh : Nat
  train : Nat
  metaShare : Nat
  dirShare : Nat
  scrubHours : Nat
  deriving DecidableEq, Repr

/-- A RAILS monitor record (R38). -/
structure MonCfg where
  low : Nat
  high : Nat
  glitch : Nat
  qual : Nat
  sense : Nat
  enabled : Bool
  reservoir : Bool
  deriving DecidableEq, Repr

/-- A RAILS step record (R38). -/
structure StepCfg where
  enable : BitVec 48
  wait : BitVec 32
  delay : Nat
  timeout : Nat
  deriving DecidableEq, Repr

/-- The THERMAL section (R39), in 0.25 °C. -/
structure ThermalCfg where
  warn : Int
  throttle : Int
  shutdown : Int
  hyst : Nat
  mediaLo : Int
  mediaHi : Int
  drainLo : Int
  drainHi : Int
  chgLo : Int
  chgHi : Int
  deriving DecidableEq, Repr

/-- The UNITS section (R31). -/
structure UnitsCfg where
  wingEn : BitVec 8
  larderEn : BitVec 8
  cellarEn : BitVec 32
  profile : List Nat
  packages : List Nat
  deriving DecidableEq, Repr

/-- The POOL section (R42). -/
structure PoolCfg where
  role : Nat
  index : Nat
  poolId : Nat
  standby : Nat
  transport : Nat
  mgmt : Word
  deriving DecidableEq, Repr

/-- The LIMITS section (R44). -/
structure LimitsCfg where
  capMiB : Nat
  spareFloor : Nat
  wearDelta : Nat
  horizon : Nat
  deriving DecidableEq, Repr

/-- The BIST section (R46). -/
structure BistCfg where
  hallLbist : Word
  hallMbist : Word
  wingLbist : List Word
  wingMbist : List Word
  bootBist : Nat
  deriving DecidableEq, Repr

/-- The SERVICE section (R47). -/
structure ServiceCfg where
  wings : BitVec 8
  larders : BitVec 8
  cellars : BitVec 32
  flags : Nat
  deriving DecidableEq, Repr

/-- The floor plan in force: the loaded image with every committed amendment (R30 to R47, R55). -/
structure Plan where
  imageSeq : Nat
  imageId : Nat
  keyIndex : Nat
  units : UnitsCfg
  media : SMap MediaProfile
  larder : LarderCfg
  rooms : List RoomCfg
  rings : List RingCfg
  power : List Nat
  mons : List MonCfg
  steps : List StepCfg
  retries : Nat
  thermal : ThermalCfg
  react : List Nat
  pantry : List Nat
  pool : PoolCfg
  attic : List Nat
  limits : LimitsCfg
  fwVersion : List Nat
  bist : BistCfg
  service : ServiceCfg
  deriving DecidableEq, Repr

/-! ### Requests (03, 08) -/

/-- The request kinds of R74 and R87, and an atomic descriptor's write (R280). -/
inductive ReqKind where
  | memRd | memRdData | memWr | memWrPtl | memInv | memInvNt | uioRd | uioWr | atomic
  deriving DecidableEq, Repr

/-- One line access of a request: page, line, data to write with its byte mask and poison, and the bytes wanted. -/
structure LineOp where
  page : Nat
  line : Nat
  data : Line
  mask : BitVec 64
  poison : Bool
  deriving DecidableEq, Repr

/-- Why an admitted request is not yet served. -/
inductive Wait where
  | ready                      -- nothing holds it but its turn
  | snoop                      -- a back-invalidate is unanswered (R75)
  | larder                     -- its Larder burst has not arrived
  | media                      -- its media line has not arrived
  | hmb                        -- its host map buffer fetch has not arrived (R122)
  | paced                      -- R176
  | frozen                     -- R99
  deriving DecidableEq, Repr

/-- A request the port has accepted (R71). -/
structure Req where
  id : Nat
  requester : Nat
  room : Nat
  kind : ReqKind
  mv : Meta
  tag : Nat
  todo : List LineOp
  got : List (Line × Bool)     -- lines read so far, with their poison
  skip : Nat                   -- UIO reads: bytes before the first byte wanted
  length : Nat                 -- UIO reads: bytes wanted
  wait : Wait
  asked : List Nat             -- requesters already snooped for the line at its head (R271)
  mark : Bool                  -- it is sampled (R529)
  pantry : PantryCheck         -- what its next Pantry hit meets (R150)
  source : Nat                 -- SOURCE and FLAGS of its sample record
  flags : Nat
  deriving DecidableEq, Repr

/-- The S2M responses of R74, and the UIO completions of R87. -/
inductive RespKind where
  | cmp | cmpS | cmpE | memData | memDataS | memDataE | memDataNxm | uioData | uioDone | unsupported
  deriving DecidableEq, Repr

/-- Back-invalidate snoops (R74). -/
inductive SnoopKind where
  | cur | data | inv
  deriving DecidableEq, Repr

/-- An outstanding BISnp (R75, R76). -/
structure Snoop where
  requester : Nat
  key : Nat
  kind : SnoopKind
  resent : Bool
  deriving DecidableEq, Repr

/-- An extent of a room (R80 to R86). -/
structure Extent where
  requester : Nat
  room : Nat
  region : Nat
  base : Nat       -- DPA below the region tag
  size : Nat
  deriving DecidableEq, Repr

/-- An HDM decoder (R73). -/
structure Decoder where
  hpaBase : Nat
  size : Nat
  ways : Nat
  granularity : Nat
  way : Nat
  dpaBase : Nat
  deriving DecidableEq, Repr

/-- The link's state (R63 to R68). -/
inductive Link where
  | down | training | l0 | recovery
  deriving DecidableEq, Repr

/-- Mailbox return codes the spec names. -/
inductive RetCode where
  | success | background | busy | unsupported | invalidInput | refused
  deriving DecidableEq, Repr

/-- A background mailbox command (R100). -/
inductive Background where
  | imageBegin (slot : Nat) | imageCheck (slot : Nat) | sanitize
  deriving DecidableEq, Repr

/-- A register access, a read when it carries no value; of a read, whether it comes within 1 µs of the requester's last
one at the register (R547), and whether a fetch it waits for meets no uncorrectable error (R554). -/
structure Access where
  path : Path
  requester : Nat
  offset : Nat
  width : Nat
  value : Option Word
  within1us : Bool
  fetchOk : Bool
  deriving DecidableEq, Repr

/-- The part of a register a read wants: all of it, or its low or its high half (R4). -/
inductive Half where
  | all | low | high
  deriving DecidableEq, Repr

/-- What leaves the device: responses, snoops, messages and writes to a requester's memory. -/
inductive Out where
  | resp (requester tag : Nat) (kind : RespKind) (data : List Line) (poison : Bool)
  | snoop (requester key : Nat) (kind : SnoopKind)
  | memWrite (requester addr : Nat) (bytes : List Byte) (poison : Bool)
  | uioWrite (peer addr : Nat) (bytes : List Byte) (poison : Bool)
  | forward (room : Nat) (offset : Nat) (write : Bool) (tag : Nat)
  | msix (requester vector : Nat)
  | mailbox (landing : Bool) (requester opcode : Nat) (code : RetCode) (payload : List Word)
  | landing (dst type flags term : Nat) (i3c : Bool) (seq : BitVec 32) (status : Nat) (body : List Word)
  | addCapacity (e : Extent)
  | releaseCapacity (e : Extent)
  | viral
  | regData (requester offset : Nat) (value : Word)
  | regUnsupported (requester offset : Nat)
  | spdm (index : Nat) (digest : BitVec 384) (signature : BitVec 768)
  | gpf (phase : Nat) (timeUs : Nat)
  deriving DecidableEq, Repr

/-! ### Pages, frames and lines (04, 05, 06, 08, 10) -/

/-- Where a frame sits (R117). -/
structure FrameAddr where
  wing : Nat
  cel : Nat
  pkg : Nat
  frame : Nat
  deriving DecidableEq, Repr

/-- A Larder slot (R160, R161). -/
structure Slot where
  valid : BitVec 64
  dirty : BitVec 64
  lines : SMap StoredLine
  since : Nat
  ref : Bool
  moving : Bool
  pinned : Bool
  deriving DecidableEq, Repr

/-- A counter block (R320). -/
structure CounterBlock where
  major : Nat
  minors : SMap Nat
  suspect : Bool
  deriving DecidableEq, Repr

/-- The part of a map entry that the map journal and checkpoint hold (R117). -/
structure MapEntry where
  frame : Option FrameAddr
  poison : Bool
  isSealed : Bool
  pinned : Bool
  lost : Bool
  deriving DecidableEq, Repr

/-- A room page: its map entry, its counter block with the programmed copy, its Larder slot, the partner's mirror, and
what the device tracks of it. A page absent from the table is unbacked with no stored counter block. -/
structure Page where
  entry : MapEntry
  tier : Nat
  ctr : Option CounterBlock
  ctrMedia : Option CounterBlock
  slot : Option Slot
  mirror : SMap StoredLine
  mirrorOn : Option Nat
  journalled : Bool            -- its last programmed dirty-page journal record is dirty (R173)
  released : Option Bool       -- released while tracked; true when securely (R430)
  written : Bool               -- written since the last MIGRATE_OUT
  causePoison : Bool           -- poisoned for a cause of R143
  rewritten : Option (BitVec 64)  -- lines rewritten in full since a write was discarded (R128)
  deriving DecidableEq, Repr

/-- A frame descriptor (R209) with the lines programmed into the frame. -/
structure Frame where
  pcount : Nat
  age : Nat
  ageUnknown : Bool
  room : Nat
  index : Nat
  home : Nat
  st : Nat
  role : Nat
  unc : Nat
  lines : SMap StoredLine
  settled : Nat                -- age unit of the last settle (R249)
  wroteAt : Nat                -- beat of the page's last write-back into it (R216)
  pcountCk : Nat               -- PCOUNT and AGE as last checkpointed (R211)
  ageCk : Nat
  stale : Bool                 -- of a re-admitted unit, and not rebuilt yet (R366, R367)
  deriving DecidableEq, Repr

/-- MOESI states of a slice copy (R274); an absent copy is I. -/
inductive Moesi where
  | m | o | e | s
  deriving DecidableEq, Repr

/-- A Pantry line: plaintext, poison, state, and whether only the Pantry holds it (R147). -/
structure PantryLine where
  data : Line
  poison : Bool
  st : Moesi
  dirty : Bool
  deriving DecidableEq, Repr

/-- Host states of a directory entry (R265). -/
inductive HState where
  | i | s | a
  deriving DecidableEq, Repr

/-- A directory entry (R265, R266). -/
structure DirEntry where
  hstate : HState
  coarse : Bool
  holders : List Nat           -- exact requester IDs while COARSE is 0
  groups : BitVec 64           -- groups while COARSE is 1
  slices : BitVec 8
  owner : Option Nat
  deriving DecidableEq, Repr

/-- An access-sketch entry (R164). -/
structure Sketch where
  tag : Nat
  reads : Nat
  writes : Nat
  deriving DecidableEq, Repr

/-- Media operations that take a program slot (R254), by position. -/
inductive OpKind where
  | writeBack (key : Nat) | logApply (key : Nat) | retire (key : Nat) | migrate (key : Nat) | rebuild (key : Nat)
  | parity (stripe : Nat) | refresh | erase | overwrite | metadata | flush
  deriving DecidableEq, Repr

/-- A program or erase, waiting or in flight on a cellar. -/
structure MediaOp where
  kind : OpKind
  position : Nat
  cellar : Nat
  at_ : FrameAddr
  ml : Nat
  lines : SMap StoredLine      -- host lines of the media line, by line number in the page
  tag : Nat
  suspended : Bool
  suspending : Bool
  deriving DecidableEq, Repr

/-- A shutdown marker (R303). -/
structure Marker where
  kind : Nat
  seq : Nat
  anchor : Nat
  beat : Nat
  imageSeq : Nat
  amdSeq : Nat
  stop : Nat
  skipped : Nat
  ms : Nat
  deriving DecidableEq, Repr

/-- The unit record (R577). -/
structure UnitRecord where
  units : UnitsCfg
  media : SMap MediaProfile
  larder : LarderCfg
  persistent : Bool
  deriving DecidableEq, Repr

/-- A write-through log entry (R298). -/
structure LogEntry where
  wing : Nat
  room : Nat
  page : Nat
  ml : Nat
  seq : Nat
  lines : SMap StoredLine
  entry : MapEntry
  ctr : CounterBlock
  deriving DecidableEq, Repr

/-- A root checkpoint (R331): the anchor value, the beat, the sequence and the counter blocks' versions. -/
structure RootCkpt where
  anchor : Nat
  beat : Nat
  seq : Nat
  versions : SMap Nat
  deriving DecidableEq, Repr

/-- A correction record (R239). -/
structure Correction where
  first : Nat
  last : Nat
  shift : Int
  spread : Nat
  deriving DecidableEq, Repr

/-- A key slot's record (R312): the key in the vault, FLOOR, HIGH, and whether HIGH changed since Export (R417). -/
structure KeySlot where
  key : Key
  floor : Nat
  high : Nat
  changed : Bool
  origin : Nat
  deriving DecidableEq, Repr

/-- A stripe record with its parity slot (R346, R348). -/
structure Stripe where
  members : List (Option FrameAddr)
  vacant : BitVec 8
  parity : Option FrameAddr
  lines : SMap (Line × Mac)    -- the parity slot's positions (host-line number in the page)
  dirty : Bool
  recompute : Bool
  deriving DecidableEq, Repr

/-- A parity delta on its way to the parity wing (R348). -/
structure ParityDelta where
  wing : Nat
  stripe : Nat
  position : Nat
  dct : Line
  dmac : Mac
  free : Option FrameAddr      -- a released frame that waits for this delta (R350)
  deriving DecidableEq, Repr

/-! ### Room and pool state (04, 13) -/

/-- Room states (R137); an absent room is ABSENT. -/
inductive RoomState where
  | serving | removing | frozen
  deriving DecidableEq, Repr

/-- A room of the room table, as it stands. -/
structure Room where
  cfg : RoomCfg
  state : RoomState
  inUse : Nat
  limit : Nat                  -- the effective credit limit (R96)
  tokens : Nat
  allocFail : Nat
  plain : Nat
  secure : Nat
  deferred : Nat
  forwarding : Bool
  former : Option Nat          -- the former DC_REGION while extents of it are held (R86)
  deriving DecidableEq, Repr

/-- A migration on this device (R429 to R435). -/
structure Migration where
  room : Nat
  source : Bool
  peer : Nat
  step : Nat
  rounds : Nat
  failed : Bool                -- its last round could not be sent
  deriving DecidableEq, Repr

/-- A migration the manager's directory records (R424, R429). -/
structure DirRoom where
  device : Nat
  room : Nat
  size : Nat
  cls : Nat
  step : Nat
  target : Nat
  acl : List Nat
  deriving DecidableEq, Repr

/-- An answer the agent keeps for a duplicate of its request (R415). -/
structure Answered where
  seq : BitVec 32
  type : Nat
  status : Nat
  body : List Word
  deriving DecidableEq, Repr

/-- A Landing request awaiting its response (R415). -/
structure Outstanding where
  peer : Nat
  seq : BitVec 32
  type : Nat
  resends : Nat
  i3c : Bool
  last : Bool                  -- FLAGS bit 1 (R414)
  body : List Word
  asker : Option Sender        -- who waits for the result of a delivered amendment (R428)
  rooms : List RoomCfg         -- the room entries of that amendment
  deriving DecidableEq, Repr

/-! ### Rings (12) -/

/-- Ring states (R378). -/
inductive RingState where
  | idle | stopped | running | stopping | error
  deriving DecidableEq, Repr

/-- A ring context (R377). -/
structure RingCtx where
  sqBase : Nat
  cqBase : Nat
  msiAddr : Nat
  msiData : BitVec 32
  sqLog2 : Nat
  cqLog2 : Nat
  irqMode : Nat
  state : RingState
  sqHead : BitVec 32
  sqTail : BitVec 32
  cqTail : BitVec 32
  cqHead : BitVec 32
  coalesceCount : Nat
  coalesceTime : Nat
  phase : Bool
  errIndex : BitVec 32
  errStatus : Nat
  waiting : List (Nat × Nat × Nat × Nat × Word)   -- finished records: tag, index, status, flags, result
  counted : Nat                -- records counted towards a message (R383)
  deriving DecidableEq, Repr

/-- A command fetched from a ring, in fetch order. -/
structure RingCmd where
  ring : Nat
  index : BitVec 32
  cmd : Line
  started : Bool
  deriving DecidableEq, Repr

/-- A base of a Stair program (R398), with the LOOP offsets added to it. -/
structure StairBase where
  addr : Nat
  run : Nat
  space : Nat
  id : Nat
  limit : Nat
  deriving DecidableEq, Repr

/-- A write a Stair command still has to make: the masked bytes of one aligned 64-byte line of a space. -/
structure StairWrite where
  space : Nat
  id : Nat
  addr : Nat
  data : Line
  mask : BitVec 64
  poison : Bool
  deriving DecidableEq, Repr

/-- A Stair channel's command: the ring and index it came from, its progress and, for RUN, its program. -/
structure Channel where
  ring : Nat
  index : BitVec 32
  cmd : Line
  charge : Nat
  done : Bool
  status : Nat
  result : Word
  bases : List StairBase
  program : List StairWord
  pc : Nat
  loops : SMap Nat
  waitBeat : Option Nat
  loaded : Bool                -- its source has been read, and `todo` holds what is left to write
  todo : List StairWrite
  deriving DecidableEq, Repr

/-- A range opened by MIGRATE_IN (R388). -/
structure OpenRange where
  room : Nat
  base : Nat
  length : Nat
  source : Nat
  pages : List Nat             -- room pages it received lines of
  deriving DecidableEq, Repr

/-! ### Faults and the Attic (16) -/

/-- An event on its way to the collector: the block's operands and the beat of detection (R482). -/
structure Ev where
  info : EventIn
  beat : Nat
  own : Bool                   -- the block has carried out its reaction itself (R338)
  deriving DecidableEq, Repr

/-- An error record (R482). -/
structure ErrRec where
  ev : Ev
  severity : Nat
  reaction : Nat
  ticks : Nat                  -- 10 ns ticks since the beat
  deriving DecidableEq, Repr

/-- An event queue item (R494). -/
structure QItem where
  source : Nat
  severity : Nat
  reaction : Nat
  forced : Bool
  merged : Bool
  beat : Nat
  deriving DecidableEq, Repr

/-- An Attic record (R498). -/
structure AtticRec where
  part : Nat
  severity : Nat
  forced : Bool
  type : Nat
  beat : Nat
  source : Nat
  body : List Word
  deriving DecidableEq, Repr

/-- A written Attic slot (R499). -/
structure AtticSlot where
  seq : Nat
  kept : Bool
  record : AtticRec
  deriving DecidableEq, Repr

/-- An Attic partition (R499 to R504). -/
structure AtticPart where
  counter : Nat
  base : Nat
  since : Nat                  -- next slot of the kept area since the last clear
  next : Nat                   -- next slot of the circulating area
  slots : SMap AtticSlot
  deriving DecidableEq, Repr

/-- What a Cupboard record of R517 says, for the records whose page layout the spec does not give. -/
inductive CpbRecord where
  | anchor (a beat seq : Nat)
  | sources (rows : List (Nat × Nat × Nat × Nat × Nat))
  | pool (r : Nat × Nat × Nat × Nat × Nat × Nat)
  | floors (r : Nat × Nat)
  | boot (r : Nat × Nat)
  | reservoir (r : Nat × Nat)
  | escrow (k : BitVec 320)
  | corrections (l : List Correction)
  | rails (m : SMap (Nat × Nat × Nat))
  | worn
  | training (channel : Nat)
  deriving DecidableEq, Repr

/-- A Cupboard page write in the queue (R509). -/
structure PageWrite where
  page : Nat
  value : BitVec 512
  counter : Option Nat         -- the spread counter it advances (R514)
  record : Option CpbRecord    -- the record its copy makes whole (R517)
  deriving DecidableEq, Repr

/-- The reservoir's states (R291). -/
inductive ResState where
  | absent | charging | ready | testing | held | failed
  deriving DecidableEq, Repr

end Sys2Proof.Machine
end

