-- ==== Sys2Proof/Machine/State.lean ====
section
/-! DEFINITION. The state of the device, the state right after reset, and the reasons a command stops.
Register fields live in `regs`; everything else the spec gives the device stands in the records below. -/

namespace Sys2Proof.Machine

/-- Power, sequencing and the Porch's own memory (14, 15, 20). -/
structure Power where
  dev : DevState
  previous : DevState
  enables : BitVec 48          -- REG_EN outputs raised
  highZ : Bool                 -- enables high-impedance (R565)
  straps : Option (BitVec 8)   -- sampled straps (R564)
  pwrOn : Bool                 -- level of PWR_ON
  delaying : Bool              -- the step's wait-for-good set is running and its delay counts (R447)
  minOffDone : Bool            -- 50 ms have passed since the last enable dropped (R439)
  outside : SMap Nat           -- consecutive outside conversions of each monitor (R444)
  shutdownTo : DevState        -- where the power-down in progress ends
  retryDue : Bool              -- a retry waits out its backoff (R449)
  wakeLatched : Bool           -- a wake waits on R464
  slumbering : Bool            -- the drain in progress is a SLUMBER entry (R441)
  fromSlumber : Bool           -- the present start is a wake (R441)
  chipReset : Bool             -- an on request latched by a chip reset (R485)
  railSnapshot : Bool          -- a rail-fault snapshot the next BOOT copies (R454)
  railMon : Nat                -- the monitor that faulted; 32 for a lost local reference (R571)
  railHigh : Bool
  timeouts : List Nat          -- monitors whose step timed out since the last BOOT (R450, R459)
  switching : List (Nat × Bool) -- power-domain groups to switch, in order (R457)
  vinHistory : List Nat        -- the last VIN_SENSE samples (R460)
  vinLow : Nat                 -- filtered samples below VIN_FAIL in a row (R462)
  failLimit : Nat              -- FAIL_TIME taken when the count last restarted (R476); 0 once the failure is decided
  shutdownDue : Bool           -- SHUTDOWN set in RECOVERY: the drain starts on entry to SERVING (R472)
  boot : Option BootEnv        -- what the dies answer in the BOOT in progress, once an image is loaded (R48)
  bootTried : Bool             -- R48 has run in this BOOT; PERST_N starts it again when both slots failed (R50)
  recovered : Bool             -- recovery steps 1 to 6 have run (R306)
  deriving DecidableEq, Repr

/-- The reservoir (09). Voltages in 10 mV. -/
structure Reservoir where
  st : ResState
  vFull : Option Nat           -- V_FULL at the latest READY (R294)
  stored : Option (Nat × Nat)  -- C in 0.1 mF and V_FULL kept in the Cupboard (R293)
  testIchg : Nat               -- ICHG and TEST_DROP taken at the start of the test (R309)
  testDrop : Nat
  fallDrop : Nat               -- the drop of the test's fall, in 10 mV, and its time in ms
  fallMs : Nat
  rising : Bool                -- the test's rise is timed (R293 step 3)
  testDue : Bool               -- a charge test runs at the next READY (R293)
  ntcOnly : Bool               -- FAILED by RES_NTC alone (R292)
  deriving DecidableEq, Repr

/-- The boot flash (R26). -/
structure Flash where
  cells : List Host.Cell       -- bytes other than 0xFF, addresses strictly rising
  target : Option Nat          -- the slot Image Begin named (R104)
  erased : Bool                -- erased by Image Begin since the last Image Check (R104)
  deriving DecidableEq, Repr

/-- The host port (03). -/
structure HostPort where
  link : Link
  held : List (Nat × Out)      -- responses held while the link is in Recovery, with their room (R67)
  insecure : BitVec 5          -- IDE streams in the insecure state (R90): bit 0 CXL.cachemem, bits 1 to 4 CXL.io
  keyed : BitVec 5
  failed : List Nat            -- requesters failed under R76
  decoders : SMap Decoder      -- by requester * 8 + region
  extents : List Extent        -- held
  offers : List Extent         -- offered, not yet answered
  deferred : List Extent       -- offers deferred under R83
  heldOffers : List Extent     -- offers a migration target holds (R429)
  msixTable : SMap (BitVec 128)
  msixUnmasked : List Nat
  msixPending : List Nat
  ingress : List Req           -- waiting for a credit, arrival order
  pend : List Req              -- admitted, arrival order
  nextId : Nat
  turn : Nat                   -- the last room the arbiter admitted (R97)
  snoops : List Snoop
  background : Option Background
  eventPolicy : Word
  alert : BitVec 16 × BitVec 16 × BitVec 16
  poisonList : List (Nat × Nat × Nat)   -- room, page, line
  hmbLeaves : List (Nat × Nat)          -- room and leaf held in the host map buffer
  hmbInUse : Option (Nat × Nat × Nat)   -- owner, base and slots latched at ENABLE
  hmbCached : List Nat                  -- 64-byte entry groups of those leaves fetched into the Pantry (R121)
  highLatch : SMap (Nat × Word)         -- by requester * 2^20 + block: register offset and latched high half (R547)
  behind : List Access                  -- accesses that wait behind a stalled read of their requester (R554)
  deriving DecidableEq, Repr

/-- Pages, slices and directories (04, 05, 08). -/
structure Tiers where
  pages : SMap Page            -- by room * 2^36 + page
  pantry : SMap PantryLine     -- by (wing * 2^48 + page key) * 64 + line
  dir : SMap DirEntry          -- by page key * 64 + line
  takeoverDir : List Nat       -- wings whose lines another wing keeps in a takeover directory (R359)
  sketch : SMap Sketch         -- by wing * 2^20 + entry
  promoting : List Nat         -- page keys in promotion (R165)
  demoting : List Nat          -- dirty victims queued for write-back (R167)
  reissued : SMap (Nat × Line) -- last SEQ and result of each descriptor slot (R360)
  hot : List (Nat × Nat)       -- Larder devices above 85 °C, by wing and device (R158)
  deriving DecidableEq, Repr

/-- Media, frames and the journals in them (06, 09). -/
structure Media where
  frames : SMap Frame          -- by frame key; a frame not listed is as formatted
  used : SMap Nat              -- frames in use, by cellar * 8 + package
  spare : SMap Nat             -- spare frames, by cellar * 8 + package
  retired : SMap Nat
  queue : List MediaOp         -- operations waiting for a slot
  inflight : List MediaOp
  journal : List (Nat × Nat × Nat × Bool)   -- dirty-page journal: wing, room, page, dirty
  journalMark : Nat            -- how many of its records the last checkpoint follows (R334)
  mapJournal : List (Nat × MapEntry)        -- map journal since the last checkpoint, by page key
  ckptMap : SMap MapEntry
  markers : Option Marker × Option Marker
  unitRecord : Option UnitRecord × Option UnitRecord
  log : List LogEntry          -- write-through log entries not yet freed, oldest first
  logSeq : Nat
  rootCkpt : Option RootCkpt × Option RootCkpt
  slotTable : SMap KeySlot     -- the slot table as programmed (R312)
  slotHome : List Nat          -- the wings that hold its two copies
  held : List Nat              -- packages outside the media-write window (R474)
  drainHeld : List Nat         -- packages outside the drain-write window
  skipped : List Nat           -- page keys a drain could not write back (R304)
  refresh : List (Nat × Bool)  -- frames queued for refresh; true for a horizon case (R249)
  wear : List Nat              -- page keys whose migration copy waits for its switch (R217)
  scrub : SMap Nat             -- by wing: lines scrubbed in the present pass (R251)
  misses : SMap Nat            -- failures in a row, by (cellar * 8 + package) * 4 + kind of access (R197)
  hists : SMap Nat             -- the histograms as last checkpointed, keyed as `regs` (R224)
  overwrites : List Nat        -- frames whose secure overwrite is deferred (R133)
  newDevice : Bool             -- every package was formatted in the present BOOT (R306)
  slots : SMap (Nat × Nat × Nat) -- by cellar: MIG, REBUILD and REFRESH programs used in the cadence frame (R254)
  deriving DecidableEq, Repr

/-- Rack time beside PRC_RT (07). -/
structure RackTime where
  intervals : List Nat         -- the last 64 intervals, in 10 ns, newest first
  steady : Nat                 -- intervals in a row within 2 % (R233)
  shadow : Nat                 -- the shadow count in FROZEN (R235)
  frozenBy : Nat               -- the backward step that FROZEN began with (R239)
  corrections : List Correction
  lastLocked : Nat             -- age unit of the last instant in LOCKED, or of the start (R239)
  drainBeat : Nat              -- the beat recorded at the last drain (R237)
  continuity : Bool            -- the Porch stayed powered since the last start (R238)
  epochSeen : Bool             -- an epoch arrived since the start (R237)
  deriving DecidableEq, Repr

/-- Keys and counters (10). -/
structure Lockset where
  slots : SMap KeySlot         -- LOADED slots
  eph : Key
  ephFloor : Nat
  buffer : Key
  versions : SMap Nat          -- the CHILD entry of each page's counter block in its parent (R327)
  lock : Option (Nat × Nat × Nat × Nat × Nat) -- room, index, line, kind, wing: steps 4 and 5 of R338 wait for the drain
  amdHash : BitVec 384         -- h of measurement block 4 (R341)
  imageHash : BitVec 384
  tableLost : Bool             -- both copies of the slot table were unreadable at this start (R316)
  deriving DecidableEq, Repr

/-- Bracing and service changes (11). -/
structure Brace where
  acting : SMap Nat            -- the acting home of each wing that has one (R358)
  window : List Nat            -- wings in a failover window
  stripes : SMap Stripe        -- by room * 2^40 + stripe
  deltas : List ParityDelta    -- on their way, oldest first
  rebuildPtr : SMap Nat        -- by unit index of R374: stripe key passed (R367)
  readmit : List Nat           -- units of R374 whose re-admission waits for BIST or training (R366)
  replays : SMap Nat           -- replays in a row, by Corridor module: 0 to 7 Hall modules, 8 to 15 ring segments (R13)
  deriving DecidableEq, Repr

/-- Rings and Stair channels (12). -/
structure Rings where
  ctx : SMap RingCtx           -- by requester * 64 + ring; absent is IDLE
  fetched : List RingCmd       -- fetched and not completed, fetch order
  sems : SMap Nat              -- by requester * 64 + semaphore
  events : SMap (BitVec 64)    -- by requester
  chans : SMap Channel         -- channels with a command
  waiters : List Nat           -- channels waiting on a semaphore, arrival order (R403)
  vtime : SMap Rat             -- V of each room (R394)
  lastV : Rat
  lastRing : SMap Nat          -- the ring last served in each room
  ranges : List OpenRange
  tracking : List (Nat × Nat × Nat)  -- room, first page and pages that MIGRATE_OUT tracks (R388)
  deriving DecidableEq, Repr

/-- The Landing agent and the pool manager (13). -/
structure Pool where
  poolId : Nat
  manager : Nat                -- index of the manager, and of the standby, as last learned
  standby : Nat
  sessions : List Nat          -- peers with an SPDM session (R413)
  answered : SMap (List Answered)   -- by peer: the last 32 answers, newest first (R415)
  nextSeq : SMap (BitVec 32)   -- by peer
  outstanding : List Outstanding
  failedVdm : List Nat         -- peers reached over I3C after three failed retries (R412)
  partialAmd : Option (Nat × List Byte)
  missed : SMap Nat            -- heartbeats missed in a row, by peer
  lastHeard : SMap Nat         -- device beat of the last heartbeat, by peer
  members : SMap (List Word)   -- member health from its last heartbeat (R428)
  quotas : SMap Nat
  directory : List DirRoom
  escrow : SMap EscrowRecord   -- by slot and origin
  escrowKey : Option Key
  nonce : Option (BitVec 128)
  mig : Option Migration
  evacuating : Option Nat
  mirrored : Bool              -- the standby holds a complete MIRROR (R421)
  deriving DecidableEq, Repr

/-- The fault collector (16). -/
structure Faults where
  inbox : List Ev              -- events on their way to the collector, oldest first
  first : Option ErrRec
  later : Nat
  last : Option ErrRec
  queues : SMap (List QItem)   -- 0 Hall, 1 + w wing w
  stalled : List (Nat × Nat × Half) -- stalled FLT_EVQ reads: queue, requester and half, in order
  resets : List Nat            -- sources whose block reset is in progress
  errLatch : Bool              -- an ERR_N source has reacted since REARM (R491)
  dead : Bool                  -- the collector takes no further event (R490)
  logs : List (List QItem)     -- mailbox event logs: Informational, Failure, Fatal (R495)
  overflow : List Bool
  deriving DecidableEq, Repr

/-- The Attic (16). -/
structure Attic where
  buffer : List AtticRec       -- the retained buffer, oldest first
  parts : SMap AtticPart
  deriving DecidableEq, Repr

/-- The Cupboard (17). -/
structure Cupboard where
  pages : SMap (BitVec 512)    -- pages other than all ones
  queue : List PageWrite       -- the first is running
  worn : List Nat
  failed : List Nat            -- record pages whose last write failed (R520)
  anchorPair : Nat             -- the anchor pair written last (R517)
  reservoir : Option (Nat × Nat) -- C in 0.1 mF and V_FULL (R293)
  waiting : List (Nat × Nat × Nat × Half) -- stalled CPB_DATA reads: page, word, requester and half
  anchor : Option (Nat × Nat × Nat)  -- anchor record: A, BEAT, root checkpoint sequence (R517)
  pool : Option (Nat × Nat × Nat × Nat × Nat × Nat)  -- POOL_ID, ROLE, INDEX, term, manager, standby (R410)
  fwFloors : Nat × Nat         -- wing and Hall firmware floors (R45)
  boot : Option (Nat × Nat)    -- RETRIES and IMAGE_SEQ (R517)
  sources : SMap (Nat × Nat × Nat × Nat) -- COUNT, BUCKET_EN, DEPTH, LEAK of each source (R517)
  rails : SMap (Nat × Nat × Nat)  -- low, high and timeout counts of each monitor
  escrow : Option (BitVec 320)
  corrections : List Correction
  training : BitVec 8          -- channels with stored training results (R158)
  deriving DecidableEq, Repr

/-- Counters, sampling and self-test (18). -/
structure Measure where
  live : SMap Nat              -- counters 0 to 6,655
  shadow : SMap Nat
  rooms : SMap Nat             -- by room * 32 + counter; 16 to 31 are the latency bins (R532)
  roomShadow : SMap Nat
  armed : Option Nat
  snapshotTaken : Bool
  samples : SMap (BitVec 512)  -- by wing * 2^20 + record
  admitted : Nat               -- requests admitted, for the sampling rate (R529)
  sampleNext : Bool            -- a wrap asked for a sample (R525)
  running : List (Nat × Nat × Bool)   -- BIST targets running: kind, and whether a re-admission asked for it (R533)
  deriving DecidableEq, Repr

/-- The state of the device. `pending`, `out` and `fresh` are the model's own: commands waiting, first in first out;
what has left the device, oldest first; and how many free values have been used. -/
structure State where
  pending : List Instr
  out : List Out
  fresh : Nat
  part : Part
  regs : SMap Nat              -- register fields that differ from their value after reset, by field and index
  pw : Power
  res : Reservoir
  flash : Flash
  plan : Option Plan
  hp : HostPort
  rooms : SMap Room
  ti : Tiers
  md : Media
  rt : RackTime
  lk : Lockset
  br : Brace
  rg : Rings
  pl : Pool
  fl : Faults
  at_ : Attic
  cb : Cupboard
  me : Measure
  deriving DecidableEq, Repr

/-- Why a command stops without a next state. -/
inductive Fault where
  /-- Raised by UIO_READ and UIO_WRITE: a length no UIO request carries (R87). Safe: the sender cannot form it. -/
  | malformedRequest
  deriving DecidableEq, Repr

/-- Why a command has no meaning. -/
inductive Refusal where
  /-- Raised by the arm of a command the model does not yet give a meaning. Safe: it proves nothing of the command. -/
  | notModelled (mnemonic : String)
  deriving DecidableEq, Repr

/-- The device before VSTBY first rises: nothing powered, nothing programmed, every register field at the value its
table gives for reset (R552) and nothing in flash, media or Cupboard. Log entries 1 and 2. -/
def State.reset : State where
  pending := []
  out := []
  fresh := 0
  part := .y8
  regs := []
  pw :=
    { dev := .noVstby, previous := .noVstby, enables := 0, highZ := true, straps := none, pwrOn := false,
      delaying := false, minOffDone := false, outside := [], shutdownTo := .off, retryDue := false,
      wakeLatched := false, slumbering := false, fromSlumber := false, chipReset := false, railSnapshot := false,
      railMon := 0, railHigh := false, timeouts := [], switching := [], vinHistory := [], vinLow := 0, failLimit := 8, shutdownDue := false,
      boot := none, bootTried := false, recovered := false }
  res :=
    { st := .charging, vFull := none, stored := none, testIchg := 0, testDrop := 1, fallDrop := 0, fallMs := 0, rising := false, testDue := true,
      ntcOnly := false }
  flash := { cells := [], target := none, erased := false }
  plan := none
  hp :=
    { link := .down, held := [], insecure := 0, keyed := 0, failed := [], decoders := [], extents := [], offers := [],
      deferred := [], heldOffers := [], msixTable := [], msixUnmasked := [], msixPending := [], ingress := [],
      pend := [], nextId := 0, turn := 0, snoops := [], background := none, eventPolicy := 0, alert := (0, 0, 0),
      poisonList := [], hmbLeaves := [], hmbInUse := none, hmbCached := [], highLatch := [], behind := [] }
  rooms := []
  ti :=
    { pages := [], pantry := [], dir := [], takeoverDir := [], sketch := [], promoting := [], demoting := [],
      reissued := [], hot := [] }
  md :=
    { frames := [], used := [], spare := [], retired := [], queue := [], inflight := [], journal := [], journalMark := 0,
      mapJournal := [], ckptMap := [], markers := (none, none), unitRecord := (none, none), log := [], logSeq := 0,
      rootCkpt := (none, none), slotTable := [], slotHome := [], held := [], drainHeld := [], skipped := [], refresh := [], wear := [], scrub := [], misses := [], hists := [],
      overwrites := [], newDevice := false, slots := [] }
  rt :=
    { intervals := [], steady := 0, shadow := 0, frozenBy := 0, corrections := [], lastLocked := 0, drainBeat := 0,
      continuity := false, epochSeen := false }
  lk :=
    { slots := [], eph := 0, ephFloor := 0, buffer := 0, versions := [], lock := none, amdHash := 0,
      imageHash := 0, tableLost := false }
  br := { acting := [], window := [], stripes := [], deltas := [], rebuildPtr := [], readmit := [], replays := [] }
  rg :=
    { ctx := [], fetched := [], sems := [], events := [], chans := [], waiters := [], vtime := [], lastV := 0,
      lastRing := [], ranges := [], tracking := [] }
  pl :=
    { poolId := 0, manager := 0, standby := 0xFFFF, sessions := [], answered := [], nextSeq := [], outstanding := [],
      failedVdm := [], partialAmd := none, missed := [], lastHeard := [], members := [], quotas := [],
      directory := [], escrow := [], escrowKey := none, nonce := none, mig := none, evacuating := none,
      mirrored := false }
  fl :=
    { inbox := [], first := none, later := 0, last := none, queues := [], stalled := [], resets := [],
      errLatch := false, dead := false, logs := [[], [], []], overflow := [false, false, false] }
  at_ := { buffer := [], parts := [] }
  cb :=
    { pages := [], queue := [], worn := [], failed := [], anchorPair := 127, reservoir := none, waiting := [], anchor := none, pool := none, fwFloors := (0, 0),
      boot := none, sources := [], rails := [], escrow := none, corrections := [], training := 0 }
  me :=
    { live := [], shadow := [], rooms := [], roomShadow := [], armed := none, snapshotTaken := false, samples := [],
      admitted := 0, sampleNext := false, running := [] }

end Sys2Proof.Machine
end

