-- ==== Sys2Proof/Machine/Ops.lean ====
section
/-! DEFINITION. The named operations every command is made of: reading and writing a register field, sending a message,
sending an event to the collector, setting a level, drawing a free value. -/

namespace Sys2Proof.Machine

/-! ### Register fields -/

/-- The key of a field's instance in `regs`; there are 511 fields. -/
def Fld.key (f : Fld) (i : Nat) : Nat := i * 512 + f.ctorIdx

/-- The field and the instance of a key. -/
def keyFld (k : Nat) : Fld := Fld.ofNat (k % 512)
def keyInst (k : Nat) : Nat := k / 512

/-- A field's value right after reset: its table's number, and zero until a restored value is loaded (R552). -/
def Fld.init (f : Fld) : Nat :=
  match f.desc.reset with
  | .num n => n
  | _ => 0

/-- A stored field, instance `i`. -/
def State.reg (s : State) (f : Fld) (i : Nat) : Nat := (look s.regs (f.key i)).getD f.init

/-- Sets a stored field; the table lists only fields that differ from their value after reset. -/
def State.setReg (s : State) (f : Fld) (i : Nat) (v : Nat) : State :=
  let v := v % 2 ^ f.desc.width
  { s with regs := if v = f.init then del s.regs (f.key i) else put s.regs (f.key i) v }

/-- Adds to a saturating field. -/
def State.satReg (s : State) (f : Fld) (i : Nat) (n : Nat) : State :=
  s.setReg f i (satAdd f.desc.width (s.reg f i) n)

/-- A one-bit field as a truth value. -/
def State.flag (s : State) (f : Fld) (i : Nat) : Bool := s.reg f i != 0

/-- Sets a one-bit field. -/
def State.setFlag (s : State) (f : Fld) (i : Nat) (b : Bool) : State := s.setReg f i (if b then 1 else 0)

/-- The fields of `drop` return to their value after reset (R552). -/
def State.resetRegs (s : State) (drop : List Fld) : State :=
  { s with regs := s.regs.filter fun p => !drop.contains (keyFld p.1) }

/-! ### Device state -/

/-- The codes of R438; the absence of VSTBY has no code and reads as OFF's. -/
def DevState.code : DevState → Nat
  | .off => 0 | .standby => 1 | .powering => 2 | .boot => 3 | .recovery => 4 | .serving => 5 | .draining => 6
  | .slumber => 7 | .halted => 8 | .thermalLatch => 9 | .seqFault => 10 | .noVstby => 0

/-- Moves the device to a state; HALL_STATE PREVIOUS keeps the one before (R459). -/
def State.goto (s : State) (d : DevState) : State :=
  { s with pw := { s.pw with dev := d, previous := s.pw.dev } }

/-- The states in which the Hall is powered. -/
def DevState.hallOn : DevState → Bool
  | .boot | .recovery | .serving | .draining | .halted => true
  | _ => false

/-! ### Messages, free values and events -/

/-- Sends something out of the device. -/
def State.send (s : State) (o : Out) : State := { s with out := s.out ++ [o] }

/-- A register read's answer: the word or a half of it; a read of the low half latches the high half for its requester
(R547). -/
def State.deliver (s : State) (requester offset : Nat) (half : Half) (v : Word) : State :=
  match half with
  | .all => s.send (.regData requester offset v)
  | .low =>
    let key := requester * 2 ^ 20 + offset / 2 ^ 14
    let s := { s with hp := { s.hp with highLatch := put s.hp.highLatch key (offset, v >>> 32) } }
    s.send (.regData requester offset (v &&& 0xFFFFFFFF#64))
  | .high => s.send (.regData requester (offset + 4) (v >>> 32))

/-- Draws a free value: a number that nothing constrains, fresh at each use. -/
def State.free (s : State) : Word × State := (Config.freeValue s.fresh, { s with fresh := s.fresh + 1 })

/-- The device's beat number (R228). -/
def State.beat (s : State) : Nat := s.reg .PRC_RT_BEAT 0

/-- The present age unit (R241). -/
def State.ageUnit (s : State) : Nat := s.beat / 1024 % 2 ^ 32

/-- A block sends an event to the collector, which takes it at an EVENT command (R482); a collector that has halted
takes none (R490). `own` says that the block has carried out the reaction itself. -/
def State.post (s : State) (e : EventIn) (own : Bool) : State :=
  if s.fl.dead then s
  else { s with fl := { s.fl with inbox := s.fl.inbox ++ [⟨e, s.beat, own⟩] } }

/-- A block sends an event whose reaction is the collector's. -/
def State.emitEv (s : State) (e : EventIn) : State := s.post e false

/-- MASTER_KIND and MASTER_ID of a block that reports a source on its own account (R482; log entry 11). -/
def masterOf (src : Nat) : Nat × Nat :=
  if src < 256 then (if 104 ≤ src && src < 128 then 7 else 6, 0)
  else
    let w := (src - 256) / 224
    let j := (src - 256) % 224
    if j < 32 then (5, 4 * w + j / 8)
    else if 64 ≤ j && j < 96 then (2, 32 * w + (j - 64))
    else if 96 ≤ j && j < 112 then (3, 8 * w + (j - 96) % 8)
    else (4, w)

/-- An event of a source with no further operands. -/
def plainEvent (src : Nat) : EventIn :=
  { source := Fin.ofNat 2048 src, masterKind := (masterOf src).1, masterId := (masterOf src).2 }

/-- Sends an event of a source with no further operands. -/
def State.emit (s : State) (src : Nat) : State := s.emitEv (plainEvent src)

/-- Sends an event that names a requester and an address (R72, R128). -/
def State.emitReq (s : State) (src requester access addrKind address : Nat) : State :=
  s.emitEv { source := Fin.ofNat 2048 src, masterKind := 1, masterId := requester, access := access,
             addrKind := addrKind, address := address }

/-- Follows a level: the source's STATUS takes the condition, and an event is sent when it rises (R481). -/
def State.level (s : State) (src : Nat) (on : Bool) : State :=
  let was := s.flag .FLT_SRC_STATUS src
  let s := s.setFlag .FLT_SRC_STATUS src on
  if on && !was then s.emit src else s

/-- The number of source `j` of wing `w` (R2). -/
def wingSrc (w j : Nat) : Nat := 256 + 224 * w + j

/-- The register instance of PMC_OVF that holds a counter's bit, and the bit (R522, R536). -/
def ovfBit (c : Nat) : Nat × Nat :=
  if c < 512 then (c / 64, c % 64) else (8 + 12 * ((c - 512) / 768) + (c - 512) % 768 / 64, (c - 512) % 768 % 64)

/-- A counter has wrapped (R525). -/
def State.wrapped (s : State) (c : Nat) : State :=
  let (i, k) := ovfBit c
  let s := if s.flag .PMC_SMP_CFG_ON_OVF 0 && s.reg .PMC_SMP_CFG_OVF_SRC 0 == c then
      { s with me := { s.me with sampleNext := true } }
    else s
  if (s.reg .PMC_OVF_EN i).testBit k && !(s.reg .PMC_OVF i).testBit k then
    let s := s.setReg .PMC_OVF i (s.reg .PMC_OVF i + 2 ^ k)
    if s.flag .PMC_OVF_MSG_VALID 0 then
      s.send (.memWrite (s.reg .PMC_OVF_MSG_REQUESTER 0) (4 * s.reg .PMC_OVF_ADDR 0)
        (toBytes 4 (s.reg .PMC_OVF_MSG_DATA 0)) false)
    else s
  else s

/-- Counts on a live event counter, unless PMC FREEZE holds; 48 bits, wrapping (R522, R525, R526). -/
def State.count (s : State) (c n : Nat) : State :=
  if s.flag .PMC_CTRL_FREEZE 0 then s
  else
    let v := lookD s.me.live c 0 + n
    let s := { s with me := { s.me with live := put s.me.live c (v % 2 ^ 48) } }
    if v < 2 ^ 48 then s else s.wrapped c

/-- Counts on a room counter (R532). -/
def State.roomCount (s : State) (room c n : Nat) : State :=
  if s.flag .PMC_CTRL_FREEZE 0 then s
  else
    let k := room * 32 + c
    { s with me := { s.me with rooms := put s.me.rooms k ((lookD s.me.rooms k 0 + n) % 2 ^ 48) } }

/-- A command's answer. -/
abbrev Result := Host.Outcome State Fault Refusal

/-! ### The plan -/

/-- Numbers of the wings the floor plan enables, ascending; the E of R113. -/
def State.wings (s : State) : List Nat :=
  match s.plan with
  | some p => bitsOf p.units.wingEn
  | none => []

/-- The number of wings the part has (R1). -/
def Part.wings : Part → Nat
  | .y8 => 8 | .y4 => 4 | .y2 => 2

/-- Numbers of the cellars the floor plan enables, ascending. -/
def State.cellars (s : State) : List Nat :=
  match s.plan with
  | some p => bitsOf p.units.cellarEn
  | none => []

/-- The MEDIA profile of a cellar (R31). -/
def State.profile (s : State) (c : Nat) : Option MediaProfile :=
  match s.plan with
  | some p => look p.media (p.units.profile.getD c 0)
  | none => none

/-- Service states of R363 as HALL_SVC holds them: unit w is wing w, 8 + w its Larder channel, 16 + c a cellar. -/
def State.svc (s : State) (u : Nat) : Nat := s.reg .HALL_SVC_STATE u

/-- A unit serves: IN_SERVICE, DRAINING or REBUILDING (R363). -/
def State.serves (s : State) (u : Nat) : Bool := s.svc u == 0 || s.svc u == 1 || s.svc u == 4

/-- A wing is in service with its Larder channel; one that rebuilds has its home role back (R358, R368). -/
def State.wingUp (s : State) (w : Nat) : Bool := s.wings.contains w && s.serves w && s.serves (8 + w)

end Sys2Proof.Machine
end

