-- ==== Sys2Proof/Machine/Operands.lean ====
section
/-! DEFINITION. How an operand names a thing: pages, lines, home wings, frames, stripes, rooms, extents, decoders. -/

namespace Sys2Proof.Machine

/-! ### Pages and lines -/

/-- The key of a room page: a window holds at most 2^36 pages (R106, R107). -/
def pageKey (room page : Nat) : Nat := room * 2 ^ 36 + page

/-- The room and the room page of a key. -/
def keyRoom (k : Nat) : Nat := k / 2 ^ 36
def keyPage (k : Nat) : Nat := k % 2 ^ 36

/-- The key of a line of a page. -/
def lineKey (room page line : Nat) : Nat := pageKey room page * 64 + line

/-- The key of a slice's copy of a line (R146). -/
def sliceKey (wing key : Nat) : Nat := wing * 2 ^ 54 + key

/-- The line number in the room, room offset bits [47:6], that the cipher uses (R317). -/
def roomLine (page line : Nat) : Nat := page * 64 + line

/-- A page with nothing stored: unbacked, no counter block (R118, R321). -/
def Page.blank : Page where
  entry := { frame := none, poison := false, isSealed := false, pinned := false, lost := false }
  tier := 0
  ctr := none
  ctrMedia := none
  slot := none
  mirror := []
  mirrorOn := none
  journalled := false
  released := none
  written := false
  causePoison := false
  rewritten := none

/-- The page of a room. -/
def State.page (s : State) (room page : Nat) : Page := lookD s.ti.pages (pageKey room page) Page.blank

/-- Puts a page back; a page with nothing stored is not listed. -/
def State.setPage (s : State) (room page : Nat) (p : Page) : State :=
  let k := pageKey room page
  { s with ti := { s.ti with pages := if p = Page.blank then del s.ti.pages k else put s.ti.pages k p } }

/-- Changes every listed page; a page left with nothing stored is not listed. -/
def mapPages (m : SMap Page) (f : Nat → Page → Page) : SMap Page := (mapAll m f).filter fun x => x.2 != Page.blank

/-- BACKED of a map entry (R117). -/
def Page.backed (p : Page) : Bool := p.entry.frame.isSome

/-- A page is dirty when its Larder slot holds a dirty line (R171). -/
def Page.dirty (p : Page) : Bool :=
  match p.slot with
  | some sl => sl.dirty != 0
  | none => false

/-- The pages of a room that the table lists, with their page numbers. -/
def State.roomPages (s : State) (room : Nat) : List (Nat × Page) :=
  (s.ti.pages.filter fun p => keyRoom p.1 == room).map fun p => (keyPage p.1, p.2)

/-! ### Home wings (R113, R351, R358) -/

/-- The fold H of R113. -/
def fold (room g : Nat) : Nat :=
  room ^^^ (g % 4096) ^^^ (g / 2 ^ 12 % 4096) ^^^ (g / 2 ^ 24 % 4096)

/-- The home wing of a page, over the enabled wings E (R113). -/
def homeOf (wings : List Nat) (room page : Nat) : Nat :=
  let n := wings.length
  wings.getD ((page % n + fold room (page / n)) % n) 0

/-- The wing-local index of a page (R113). -/
def State.localIndex (s : State) (page : Nat) : Nat := page / max 1 s.wings.length

/-- The home wing of a page. -/
def State.home (s : State) (room page : Nat) : Nat := homeOf s.wings room page

/-- The partner of a wing: the next enabled wing (R351). -/
def State.partner (s : State) (w : Nat) : Nat :=
  let ws := s.wings
  match ws.idxOf? w with
  | some i => ws.getD ((i + 1) % ws.length) w
  | none => w

/-- The wings in increasing ring order after `w`, `w` itself last. -/
def State.ringAfter (s : State) (w : Nat) : List Nat :=
  let ws := s.wings
  match ws.idxOf? w with
  | some i => (ws.drop (i + 1)) ++ (ws.take (i + 1))
  | none => ws

/-- The partner, or the stand-in partner while the partner is out of service or lost (R352). -/
def State.standIn (s : State) (w : Nat) : Option Nat :=
  (s.ringAfter w).find? fun v => v != w && s.wingUp v

/-- The wing that acts as home: the home wing, or its acting home (R15, R358). -/
def State.actingHome (s : State) (w : Nat) : Nat := lookD s.br.acting w w

/-- Enabled wings in service in order of ring distance from `w`, nearer first, increasing direction on ties (R213). -/
def State.wingsByDistance (s : State) (w : Nat) : List Nat :=
  let up := s.ringAfter w
  let n := up.length
  let dist := fun v => match up.idxOf? v with
    | some i => if v == w then 0 else min (2 * (i + 1)) (2 * (n - (i + 1)) + 1)
    | none => 0
  sortBy dist (s.wings.filter s.wingUp)

/-! ### Frames -/

/-- The cellar a frame sits on (R117). -/
def FrameAddr.cellar (a : FrameAddr) : Nat := 4 * a.wing + a.cel

/-- The key of a frame. -/
def FrameAddr.key (a : FrameAddr) : Nat := (a.cellar * 8 + a.pkg) * 2 ^ 27 + a.frame

/-- The frame of a cellar's package. -/
def frameAt (c p f : Nat) : FrameAddr := ⟨c / 4, c % 4, p, f⟩

/-- The frame a key names. -/
def frameOfKey (k : Nat) : FrameAddr := frameAt (k / 2 ^ 27 / 8) (k / 2 ^ 27 % 8) (k % 2 ^ 27)

/-- The spares a package formats: SPARE_INIT / 10,000 of FRAMES, rounded down (R212). -/
def MediaProfile.spares (m : MediaProfile) : Nat := m.spareInit * m.frames / 10000

/-- A frame as formatted: free, or spare among the highest-numbered SPARE_INIT share (log entry 9). -/
def formatted (m : MediaProfile) (f : Nat) : Frame where
  pcount := 0
  age := 0
  ageUnknown := false
  room := 0
  index := 0
  home := 0
  st := if m.frames - m.spares ≤ f then 3 else 0
  role := 0
  unc := 0
  lines := []
  settled := 0
  wroteAt := 0
  pcountCk := 0
  ageCk := 0
  stale := false

/-- The descriptor and content of a frame (R209). -/
def State.frame (s : State) (a : FrameAddr) : Option Frame :=
  match look s.md.frames a.key with
  | some f => some f
  | none => (s.profile a.cellar).map fun m => formatted m a.frame

/-- Puts a frame's descriptor and content back. -/
def State.setFrame (s : State) (a : FrameAddr) (f : Frame) : State :=
  { s with md := { s.md with frames := put s.md.frames a.key f } }

/-- The bank of a frame (R191). -/
def MediaProfile.bank (m : MediaProfile) (f : Nat) : Nat := f / 2 ^ m.bankShift % m.banks

/-- The packages of a cellar that answer: identified and not failed (R196, R197). -/
def State.packages (s : State) (c : Nat) : List Nat :=
  (List.range 8).filter fun p =>
    (s.reg .CEL_STATUS_PRESENT c).testBit p && !(s.reg .CEL_STATUS_FAILED c).testBit p

/-- A cellar is in service. -/
def State.cellarUp (s : State) (c : Nat) : Bool :=
  s.cellars.contains c && s.serves (16 + c) && s.wings.contains (c / 4) && s.serves (c / 4)

/-- A frame can be read: its cellar serves, its package answers and its content is not stale. -/
def State.frameUp (s : State) (a : FrameAddr) : Bool :=
  s.cellarUp a.cellar && (s.packages a.cellar).contains a.pkg &&
    (match look s.md.frames a.key with | some f => !f.stale | none => true)

/-! ### Rooms, extents and decoders -/

/-- The room of a number. -/
def State.room (s : State) (r : Nat) : Option Room := look s.rooms r

/-- Puts a room back. -/
def State.setRoom (s : State) (r : Nat) (x : Room) : State := { s with rooms := put s.rooms r x }

/-- Changes a room, if the table holds it. -/
def State.modRoom (s : State) (r : Nat) (f : Room → Room) : State := { s with rooms := adjust s.rooms r f }

/-- The attributes of a room entry (R34, R108). -/
def RoomCfg.braced (c : RoomCfg) : Bool := c.attr.testBit 0
def RoomCfg.aperture (c : RoomCfg) : Bool := c.attr.testBit 1
def RoomCfg.hmb (c : RoomCfg) : Bool := c.attr.testBit 2
def RoomCfg.counterAccess (c : RoomCfg) : Bool := c.attr.testBit 3
def RoomCfg.allRequesters (c : RoomCfg) : Bool := c.attr.testBit 4
def RoomCfg.persistent (c : RoomCfg) : Bool := c.cls == 0

/-- The pages of a window. -/
def RoomCfg.pages (c : RoomCfg) : Nat := c.size / 4096

/-- The room whose window holds a DPA (R106). -/
def State.roomAt (s : State) (dpa : Nat) : Option Nat :=
  (s.rooms.find? fun p => p.2.cfg.base ≤ dpa && dpa < p.2.cfg.base + p.2.cfg.size).map Prod.fst

/-- A requester passes the access-list part of R71 step 5. -/
def RoomCfg.admits (c : RoomCfg) (requester : Nat) : Bool := c.allRequesters || c.acl.contains requester

/-- A requester holds an extent of a room's region that covers an address (R71 step 5). -/
def State.holds (s : State) (requester room region dpa : Nat) : Bool :=
  s.hp.extents.any fun e =>
    e.requester == requester && e.room == room && e.region == region && e.base ≤ dpa && dpa < e.base + e.size

/-- The region passes: the room's, or its former one while the requester may use it (R71 step 5, R86). -/
def Room.regionOk (r : Room) (region : Nat) : Bool := r.cfg.region == region || r.former == some region

/-- Whether a requester reaches a DPA of a room (R71 steps 4 and 5, R140, R362). -/
def State.mayAccess (s : State) (requester region dpa : Nat) : Option Nat :=
  match s.roomAt dpa with
  | none => none
  | some r =>
    match s.room r with
    | none => none
    | some x =>
      if x.state != .removing && x.regionOk region && x.cfg.admits requester && s.holds requester r region dpa
      then some r else none

/-- MIGRATE_OUT tracks a page (R388). -/
def State.tracked (s : State) (room page : Nat) : Bool :=
  s.rg.tracking.any fun (r, first, n) => r == room && first ≤ page && page < first + n

/-- An open migration range admits writes of its source to a room offset (R388). -/
def State.rangeOpen (s : State) (source room offset : Nat) : Bool :=
  s.rg.ranges.any fun g => g.room == room && g.source == source && g.base ≤ offset && offset < g.base + g.length

/-- Where a decoder takes a host address: nothing when it is outside, or on another device's way (R73). -/
def Decoder.dpa (d : Decoder) (hpa : Nat) : Option Nat :=
  if d.hpaBase ≤ hpa && hpa < d.hpaBase + d.size then
    let off := hpa - d.hpaBase
    if d.ways ≤ 1 then some (d.dpaBase + off)
    else
      let chunk := off / d.granularity
      if chunk % d.ways == d.way then some (d.dpaBase + chunk / d.ways * d.granularity + off % d.granularity)
      else none
  else none

/-- The region-tagged DPA of a requester's host address: the region and the DPA in it (R71 step 3, R80). -/
def State.decodeHpa (s : State) (requester hpa : Nat) : Option (Nat × Nat) :=
  ((List.range 8).filterMap fun region =>
    match look s.hp.decoders (requester * 8 + region) with
    | some d => (d.dpa hpa).map fun a => (region, a)
    | none => none).head?

/-- The requester of a request: its PBR ID, or 0 when the partner is not in port-based routing mode (R70). -/
def State.requesterOf (s : State) (id : Nat) : Nat := if s.flag .HALL_HP_LINK_PBR 0 then id else 0

/-- A management requester: one listed in HALL_HP_MGMT (R94). -/
def State.isManagement (s : State) (requester : Nat) : Bool :=
  (s.reg .HALL_HP_MGMT_VALID0 0 % 2 == 1 && s.reg .HALL_HP_MGMT_REQ0 0 == requester) ||
  (s.reg .HALL_HP_MGMT_VALID1 0 % 2 == 1 && s.reg .HALL_HP_MGMT_REQ1 0 == requester) ||
  (s.reg .HALL_HP_MGMT_VALID2 0 % 2 == 1 && s.reg .HALL_HP_MGMT_REQ2 0 == requester) ||
  (s.reg .HALL_HP_MGMT_VALID3 0 % 2 == 1 && s.reg .HALL_HP_MGMT_REQ3 0 == requester)

/-- The requesters that hold an extent of a room (ROOM_HOLD). -/
def State.holders (s : State) (room : Nat) : List Nat :=
  ((s.hp.extents.filter fun e => e.room == room).map Extent.requester).dedup

/-! ### Stripes (R344 to R346) -/

/-- D of R344. -/
def Part.stripeData : Part → Nat
  | .y8 => 7 | _ => 3

/-- The stripe of a page and the page's member number. -/
def State.stripeOf (s : State) (page : Nat) : Nat × Nat := (page / s.part.stripeData, page % s.part.stripeData)

/-- The key of a stripe. -/
def stripeKey (room stripe : Nat) : Nat := room * 2 ^ 40 + stripe

/-- The parity wing of a stripe (R345). -/
def State.parityWing (s : State) (room stripe : Nat) : Nat :=
  s.wings.getD ((stripe + room) % max 1 s.wings.length) 0

/-- A stripe with no member allocated. -/
def Stripe.blank (d : Nat) : Stripe where
  members := List.replicate d none
  vacant := 0
  parity := none
  lines := []
  dirty := false
  recompute := false

/-- The stripe record of a stripe (R346). -/
def State.stripe (s : State) (room stripe : Nat) : Stripe :=
  lookD s.br.stripes (stripeKey room stripe) (Stripe.blank s.part.stripeData)

/-- Puts a stripe back. -/
def State.setStripe (s : State) (room stripe : Nat) (x : Stripe) : State :=
  { s with br := { s.br with stripes := put s.br.stripes (stripeKey room stripe) x } }

end Sys2Proof.Machine
end

