-- ==== Sys2Proof/Machine/Flags.lean ====
section
/-! DEFINITION. The levels and figures the device computes from its state: Larder slots, dirty amounts and budgets,
spare levels, room degradation, and ERR_N. -/

namespace Sys2Proof.Machine

/-! ### Larder slots and dirty accounting (R159, R171, R172, R294) -/

/-- Page slots of one Larder channel (R159). -/
def LarderCfg.slots (l : LarderCfg) : Nat :=
  let cap := l.capacity * 2 ^ 30
  let left := cap - 256 * 2 ^ 20 - cap * l.dirShare / 64 - cap * l.metaShare / 64
  left / 4640 / 16 * 16

/-- Page slots of a wing's channel. -/
def State.slots (s : State) (w : Nat) : Nat :=
  match s.plan with
  | some p => if s.wings.contains w then p.larder.slots else 0
  | none => 0

/-- The pages whose Larder slot, on their home wing, is dirty or that have a Pantry-dirty line (R171). -/
def State.pageDirty (s : State) (k : Nat) (p : Page) : Bool :=
  p.dirty || s.ti.pantry.any fun x => x.2.dirty && x.1 % 2 ^ 54 / 64 == k

/-- Dirty pages homed on a wing (LAR_DIRTY OWN). -/
def State.dirtyOwn (s : State) (w : Nat) : Nat :=
  s.ti.pages.countP fun p => s.home (keyRoom p.1) (keyPage p.1) == w && s.pageDirty p.1 p.2

/-- Mirror slots a wing holds: mirrors of dirty braced pages, and of dirty parity slots of the wing it partners. -/
def State.mirrors (s : State) (w : Nat) : Nat :=
  (s.ti.pages.countP fun p => p.2.mirrorOn == some w) +
  (s.br.stripes.countP fun x => x.2.dirty && s.partner (s.parityWing (x.1 / 2 ^ 40) (x.1 % 2 ^ 40)) == w)

/-- Slots of a wing that hold a page, a mirror or a parity page. -/
def State.slotsUsed (s : State) (w : Nat) : Nat :=
  (s.ti.pages.countP fun p => p.2.slot.isSome && s.home (keyRoom p.1) (keyPage p.1) == w) + s.mirrors w +
  (s.br.stripes.countP fun x => !x.2.lines.isEmpty && s.parityWing (x.1 / 2 ^ 40) (x.1 % 2 ^ 40) == w)

/-- The dirty amount in 4,096-byte units (R171). -/
def State.dirtyAmount (s : State) : Nat :=
  (s.ti.pages.countP fun p => s.pageDirty p.1 p.2) + s.br.stripes.countP fun x => x.2.dirty

/-- The capacitance, the voltages and the drain power as R294 takes them: C in 0.1 mF, voltages in 10 mV, power in W. -/
structure BudgetInputs where
  c : Nat
  v : Nat
  vMin : Nat
  drainW : Nat
  cellarRate : Nat             -- quarter units of 1.6 GB/s, summed over the cellars in service
  usable : Bool
  deriving DecidableEq, Repr

/-- Twice the usable energy in units of 10^-8 J: C (v² − v_min²). -/
def BudgetInputs.energy2 (b : BudgetInputs) : Nat := b.c * (b.v * b.v - b.vMin * b.vMin)

/-- t is below 150 ms (R294). -/
def BudgetInputs.floor (b : BudgetInputs) : Bool := 4 * b.energy2 < 150000000 * b.drainW

/-- The computed budget in 4,096-byte units (R294). -/
def BudgetInputs.pages (b : BudgetInputs) : Nat :=
  if !b.usable || b.floor || b.drainW = 0 then 0 else 16 * b.energy2 * b.cellarRate / (10 * b.drainW) / 4096

/-- The share of 1.6 GB/s a cellar's bus gives, in quarters (R199, R294). -/
def MediaProfile.quarterRate (m : MediaProfile) : Nat :=
  if m.busRate = 0 then 4 else if m.busRate = 1 then 3 else 2

/-- What R294 computes from. -/
def State.budgetInputs (s : State) : BudgetInputs :=
  let volts := s.reg .PRC_RES_STATUS_VOLTS 0
  let full := match s.res.vFull, s.res.stored with
    | some v, _ => v
    | none, some (_, v) => v
    | none, none => 0
  { c := match s.res.stored with | some (c, _) => c | none => 0
    v := min full volts
    vMin := s.reg .PRC_RES_CFG0_V_MIN 0
    drainW := s.reg .PRC_RES_CFG0_DRAIN_W 0
    cellarRate := ((s.cellars.filter s.cellarUp).map fun c =>
      match s.profile c with | some m => m.quarterRate | none => 0).sum
    usable := s.res.stored.isSome && s.res.st != .absent && s.res.st != .failed &&
      s.reg .PRC_RES_CFG0_ICHG 0 != 0 && s.reg .PRC_RES_CFG0_V_MIN 0 != 0 && s.reg .PRC_RES_CFG0_DRAIN_W 0 != 0 }

/-- The LIMITS cap in 4,096-byte units (R44). -/
def State.capPages (s : State) : Nat :=
  match s.plan with
  | some p => p.limits.capMiB * 256
  | none => 0

/-- The dirty capacity: half the page area over enabled wings in service (R172). -/
def State.dirtyCapacity (s : State) : Nat := ((s.wings.filter s.wingUp).map fun w => s.slots w / 2).sum

/-- The effective budget: the least of the three values of R172, in 4,096-byte units. -/
def State.effective (s : State) : Nat :=
  min (s.reg .HALL_DIRTY_CALC_COMPUTED 0) (min s.capPages s.dirtyCapacity)

/-- LIMITED_BY of HALL_DIRTY_BUDGET (R183): which of the three values is the least. -/
def State.limitedBy (s : State) : Nat :=
  let c := s.reg .HALL_DIRTY_CALC_COMPUTED 0
  if c ≤ s.capPages && c ≤ s.dirtyCapacity then 0 else if s.capPages ≤ s.dirtyCapacity then 1 else 2

/-- Write-through mode: the effective budget is 0 (R298). -/
def State.writeThrough (s : State) : Bool := s.effective == 0

/-- A write that would make a clean page of a wing dirty may be admitted (R172, R176). -/
def State.budgetAdmits (s : State) (w : Nat) : Bool :=
  s.dirtyAmount + 1 ≤ s.effective && 2 * (s.dirtyOwn w + s.mirrors w + 1) ≤ s.slots w

/-! ### Media counts (R221 to R223) -/

/-- Every package the plan names on an enabled cellar, as cellar and package. -/
def State.allPackages (s : State) : List (Nat × Nat) :=
  match s.plan with
  | some p => s.cellars.flatMap fun c => (List.range (p.units.packages.getD c 0)).map fun k => (c, k)
  | none => []

/-- Frames in use, spare and retired of a package; what is listed is counted, the rest is as formatted. -/
def State.usedFrames (s : State) (c p : Nat) : Nat := lookD s.md.used (c * 8 + p) 0
def State.retiredFrames (s : State) (c p : Nat) : Nat := lookD s.md.retired (c * 8 + p) 0
def State.spareFrames (s : State) (c p : Nat) : Nat :=
  lookD s.md.spare (c * 8 + p) (match s.profile c with | some m => m.spares | none => 0)

/-- Free frames of a package. -/
def State.freeFrames (s : State) (c p : Nat) : Nat :=
  match s.profile c with
  | some m => m.frames - s.usedFrames c p - s.spareFrames c p - s.retiredFrames c p
  | none => 0

/-- The spare pool, its target and the spare floor (R221, R223). -/
def State.sparePool (s : State) : Nat := (s.allPackages.map fun (c, p) => s.spareFrames c p).sum
def State.dataFrames (s : State) : Nat :=
  (s.allPackages.map fun (c, _) => match s.profile c with | some m => m.frames | none => 0).sum
def State.spareTarget (s : State) : Nat :=
  (s.allPackages.map fun (c, _) => match s.profile c with | some m => m.spares | none => 0).sum
def State.spareFloor (s : State) : Nat :=
  match s.plan with
  | some p => s.dataFrames * p.limits.spareFloor / 10000
  | none => 0

/-- READ_ONLY and NO_SPARE follow the pool: set at or below the floor, clear at the floor plus one thousandth of the
data frames (R223); FLOOR and TARGET follow the plan. -/
def State.spareLevels (s : State) : State :=
  let pool := s.sparePool
  let ro := s.flag .HALL_MEDIA_STATE_READ_ONLY 0
  let ro' := if pool ≤ s.spareFloor then s.plan.isSome
    else if s.spareFloor + s.dataFrames / 1000 ≤ pool then false else ro
  let s := (s.setReg .HALL_MEDIA_SPARE_FLOOR 0 s.spareFloor).setReg .HALL_MEDIA_STATE_TARGET 0 s.spareTarget
  let s := (s.setFlag .HALL_MEDIA_STATE_READ_ONLY 0 ro').setFlag .HALL_MEDIA_STATE_NO_SPARE 0 (pool == 0)
  (s.level 224 ro').level 225 (pool == 0 && s.plan.isSome)

/-- The device is read-only (R128, R223). -/
def State.readOnly (s : State) : Bool := s.flag .HALL_MEDIA_STATE_READ_ONLY 0

/-! ### Rooms -/

/-- A persistent room's key slot is EMPTY (R316). -/
def State.keyEmpty (s : State) (c : RoomCfg) : Bool := c.persistent && (look s.lk.slots c.keySlot).isNone

/-- DEGRADED of a room (R143): a page poisoned for one of its causes, a LOST page, or an EMPTY key slot. -/
def State.degraded (s : State) (room : Nat) : Bool :=
  match s.room room with
  | some r => s.keyEmpty r.cfg || (s.roomPages room).any fun p => p.2.causePoison || p.2.entry.lost
  | none => false

/-! ### Pacing (R176, R178) -/

/-- Writes waiting for the dirty budget. -/
def State.pacedWaiting (s : State) : Nat := s.hp.pend.countP fun q => q.wait == .paced

/-- PACING: a level, 1 while any write waits under R176 (R183). -/
def State.pacing (s : State) : Bool := s.pacedWaiting != 0

/-! ### ERR_N (R491) -/

/-- A source's reaction and its ERR_N bit; sources 0 to 4 are fixed (R480). -/
def State.reactionOf (s : State) (src : Nat) : Nat := if src < 5 then 3 else s.reg .FLT_SRC_REACTION src
def State.errBit (s : State) (src : Nat) : Bool := src < 5 || s.flag .FLT_SRC_ERR_N src

/-- STATUS of a source: its level, or FORCE (R481, R492). -/
def State.status (s : State) (src : Nat) : Bool := s.flag .FLT_SRC_STATUS src || s.flag .FLT_SRC_FORCE src

/-- The sources whose STATUS is 1. -/
def State.activeSources (s : State) : List Nat := (List.range 2048).filter s.status

/-- ERR_N is driven low (R491). -/
def State.errN (s : State) : Bool :=
  s.fl.errLatch || (match s.fl.first with | some r => s.errBit r.ev.info.source.val | none => false) ||
  s.pw.dev == .halted || s.pw.dev == .thermalLatch || s.pw.dev == .seqFault ||
  s.activeSources.any s.errBit

end Sys2Proof.Machine
end

