-- ==== Sys2Proof/Machine/Sources.lean ====
section
/-! DEFINITION. The event sources of R478 to R480 by name, and the severity, partition and owner of each number. -/

namespace Sys2Proof.Machine

/-! ### Hall sources (R478) -/

def srcMacFailure : Nat := 0
def srcCollector : Nat := 1
def srcLinkDown : Nat := 8
def srcTrainingFailure : Nat := 9
def srcFlitReplay : Nat := 10
def srcIdeFailure : Nat := 11
def srcRefused : Nat := 12
def srcRequesterFailed : Nat := 13
def srcViral : Nat := 14
def srcOfferDeferred : Nat := 15
def srcPerst : Nat := 16
def srcSlotFailed : Nat := 48
def srcReplayStopped : Nat := 49
def srcAmdCommitted : Nat := 50
def srcAmdRejected : Nat := 51
def srcLogErased : Nat := 52
def srcRail (m : Nat) : Nat := 64 + m
def srcSeqFault : Nat := 96
def srcUncleanRail : Nat := 97
def srcGroupTimeout : Nat := 98
def srcLref : Nat := 99
def srcInputFailure : Nat := 104
def srcDip : Nat := 105
def srcResFailed : Nat := 106
def srcResAbsent : Nat := 107
def srcResHeld : Nat := 108
def srcChargeTest : Nat := 109
def srcHoldover : Nat := 110
def srcStep : Nat := 111
def srcFrozen : Nat := 112
def srcSlumberRefused : Nat := 113
def srcHallSensor (i : Nat) : Nat := 128 + i
def srcWarning : Nat := 136
def srcThrottle : Nat := 137
def srcShutdown : Nat := 138
def srcCupboardFail : Nat := 144
def srcWornSkipped : Nat := 145
def srcSpreadFull : Nat := 146
def srcSlotGenerated : Nat := 160
def srcSlotImported : Nat := 161
def srcSlotExported : Nat := 162
def srcSlotDestroyed : Nat := 163
def srcSlotTableLost : Nat := 164
def srcSpdmFailure : Nat := 165
def srcRootRewritten : Nat := 166
def srcBadContext : Nat := 176
def srcForeign : Nat := 177
def srcManagerMissed : Nat := 192
def srcStandbyMissed : Nat := 193
def srcTakeover : Nat := 194
def srcTermReject : Nat := 195
def srcMigrationFailed : Nat := 196
def srcEvacuation : Nat := 197
def srcMirrorStale : Nat := 198
def srcReadOnly : Nat := 224
def srcNoSpare : Nat := 225
def srcWriteThrough : Nat := 226
def srcBudgetBelow : Nat := 227
def srcPacing : Nat := 228
def srcUnclean : Nat := 229
def srcPoisoned : Nat := 230
def srcTwoCopy : Nat := 231
def srcAtticDropped : Nat := 240
def srcAtticLost : Nat := 241
def srcAtticClear : Nat := 242
def srcBuffer : Nat := 248

/-! ### Wing sources (R479), as full numbers -/

def srcCellar (c k : Nat) : Nat := wingSrc (c / 4) (8 * (c % 4) + k)
def srcLarder (w k : Nat) : Nat := wingSrc w (32 + k)
def srcPantry (w k : Nat) : Nat := wingSrc w (40 + k)
def srcHome (w k : Nat) : Nat := wingSrc w (48 + k)
def srcLockset (w k : Nat) : Nat := wingSrc w (56 + k)
def srcStair (ch : Nat) : Nat := wingSrc (ch / 32) (64 + ch % 32)
def srcCore (core : Nat) : Nat := wingSrc (core / 8) (96 + core % 8)
def srcWingSensor (i : Nat) : Nat := wingSrc ((i - 8) / 12) (112 + (i - 8) % 12)
def srcCorridor (w k : Nat) : Nat := wingSrc w (124 + k)
def srcBrace (w k : Nat) : Nat := wingSrc w (128 + k)
def srcDrift (w k : Nat) : Nat := wingSrc w (136 + k)
def srcAlloc (w k : Nat) : Nat := wingSrc w (140 + k)

/-! ### What the tables say of a number -/

/-- Severity of a Hall source; none when the number is reserved (R478). -/
def hallSeverity (n : Nat) : Option Nat :=
  if n < 5 then some 3
  else if n < 8 then none
  else if n < 17 then [2, 2, 0, 3, 1, 2, 3, 1, 1][n - 8]?
  else if n < 48 then none
  else if n < 53 then [2, 2, 0, 1, 1][n - 48]?
  else if n < 64 then none
  else if n < 96 then some 3
  else if n < 100 then [3, 3, 2, 3][n - 96]?
  else if n < 104 then none
  else if n < 114 then [3, 0, 3, 3, 2, 0, 2, 1, 2, 1][n - 104]?
  else if n < 128 then none
  else if n < 139 then [2, 2, 2, 2, 2, 2, 2, 2, 1, 2, 3][n - 128]?
  else if n < 144 then none
  else if n < 147 then [2, 1, 2][n - 144]?
  else if n < 160 then none
  else if n < 167 then [1, 1, 0, 1, 3, 2, 1][n - 160]?
  else if n < 176 then none
  else if n < 178 then some 1
  else if n < 192 then none
  else if n < 199 then [2, 1, 2, 1, 2, 2, 1][n - 192]?
  else if n < 224 then none
  else if n < 232 then [3, 2, 3, 2, 1, 3, 3, 1][n - 224]?
  else if n < 240 then none
  else if n < 243 then [1, 2, 1][n - 240]?
  else if n = 248 then some 2
  else none

/-- Severity of the wing source `j`; none when reserved (R479). -/
def wingSeverity (j : Nat) : Option Nat :=
  if j < 32 then [0, 1, 2, 2, 1, 1, 3, 1][j % 8]?
  else if j < 39 then [0, 1, 2, 2, 1, 3, 3][j - 32]?
  else if j = 39 then none
  else if j < 45 then [0, 1, 2, 3, 1][j - 40]?
  else if j < 48 then none
  else if j < 52 then [1, 3, 1, 1][j - 48]?
  else if j < 56 then none
  else if j < 60 then [1, 3, 2, 0][j - 56]?
  else if j < 64 then none
  else if j < 96 then some 1
  else if j < 112 then some 2
  else if j < 124 then some 2
  else if j < 128 then [1, 0, 3, 2][j - 124]?
  else if j < 135 then [3, 3, 1, 1, 1, 1, 2][j - 128]?
  else if j = 135 then none
  else if j < 139 then [2, 1, 0][j - 136]?
  else if j = 139 then none
  else if j < 143 then [2, 1, 0][j - 140]?
  else none

/-- Severity of a source; none when it is reserved and so never raises an event. -/
def severityOf (n : Nat) : Option Nat :=
  if n < 256 then hallSeverity n
  else if n < 2048 then wingSeverity ((n - 256) % 224)
  else none

/-- The events R478 and R479 mark as levels. -/
def isLevel (n : Nat) : Bool :=
  if n < 256 then
    [106, 107, 108, 110, 112, 128, 129, 130, 131, 132, 133, 134, 135, 136, 137, 138, 198, 224, 225, 226, 228].contains n
  else
    let j := (n - 256) % 224
    (j < 32 && j % 8 == 7) || j == 36 || j == 49 || (112 ≤ j && j < 124) || j == 134

/-- The Attic partition of a source: 0 to 7 the wings, 8 the Hall, 9 security, 10 the pool manager (R478, R507). -/
def partitionOf (n : Nat) : Nat :=
  if n < 256 then
    if n = 0 || n = 4 || n = 11 || (160 ≤ n && n < 176) || n = 242 then 9
    else if 192 ≤ n && n < 224 then 10
    else 8
  else
    let j := (n - 256) % 224
    if 56 ≤ j && j < 64 then 9 else (n - 256) / 224

/-- The wing a source belongs to. -/
def sourceWing (n : Nat) : Option Nat := if n < 256 then none else some ((n - 256) / 224)

/-- The owning blocks R486 tells apart. -/
inductive Owner where
  | cellar (c : Nat) | stair (ch : Nat) | core (k : Nat) | corridor (w : Nat) | larder (w : Nat) | wingEngine (w : Nat)
  | sensor (i : Nat) | hostPort | landing | hall
  deriving DecidableEq, Repr

/-- The owning block of a source (R486). Bracing, drift, scrub and allocation sources belong to the wing's engines
(log entry 10). -/
def ownerOf (n : Nat) : Owner :=
  if n < 256 then
    if 8 ≤ n && n < 48 then .hostPort
    else if 128 ≤ n && n < 136 then .sensor (n - 128)
    else if 192 ≤ n && n < 224 then .landing
    else .hall
  else
    let w := (n - 256) / 224
    let j := (n - 256) % 224
    if j < 32 then .cellar (4 * w + j / 8)
    else if j < 40 then .larder w
    else if j < 64 then .wingEngine w
    else if j < 96 then .stair (32 * w + (j - 64))
    else if j < 104 then .core (8 * w + (j - 96))
    else if j < 112 then .core (8 * w + (j - 104))
    else if j < 124 then .sensor (8 + 12 * w + (j - 112))
    else if j < 128 then .corridor w
    else .wingEngine w

/-- A block reset of an owner is in progress (R486). -/
def State.inReset (s : State) (o : Owner) : Bool := s.fl.resets.any fun src => ownerOf src == o

end Sys2Proof.Machine
end

