-- ==== Sys2Proof/Machine/Lines.lean ====
section
/-! DEFINITION. Lines, pages and frames: what a line reads as, what storing one does (counters, cipher, journals,
mirror, parity), how a page gains a frame and gives it back. -/

namespace Sys2Proof.Machine

/-! ### Keys and counters (R311 to R326) -/

/-- The key a room's lines are under; none while a persistent room's slot is EMPTY. -/
def State.roomKey (s : State) (c : RoomCfg) : Option Key :=
  if c.persistent then (look s.lk.slots c.keySlot).map KeySlot.key else some s.lk.eph

/-- The last value of MAJOR. -/
def majorEnd : Nat := 2 ^ 57 - 1

/-- The floor a page with no stored counter block starts from (R321, R337). -/
def State.floorOf (s : State) (c : RoomCfg) : Nat :=
  if c.persistent then (match look s.lk.slots c.keySlot with | some k => k.floor | none => 0) else s.lk.ephFloor

/-- A page's counter block, stored or not (R321). -/
def Page.block (p : Page) (floor : Nat) : CounterBlock := p.ctr.getD { major := floor, minors := [], suspect := false }

/-- A line's minor counter. -/
def CounterBlock.minor (b : CounterBlock) (line : Nat) : Nat := lookD b.minors line 0

/-- The version of a counter block (R323). -/
def CounterBlock.version (b : CounterBlock) : Nat := (b.major * 8192 + (b.minors.map Prod.snd).sum) % 2 ^ 56

/-- Raises HIGH of a room's slot when a major counter passes it (R322). -/
def State.raiseHigh (s : State) (c : RoomCfg) (major : Nat) : State :=
  if c.persistent then
    { s with lk := { s.lk with slots := adjust s.lk.slots c.keySlot fun k =>
        if k.high < major then { k with high := major, changed := true } else k } }
  else s

/-- Sets a page's counter block, its version in the parent and HIGH (R322, R328). -/
def State.setBlock (s : State) (c : RoomCfg) (room page : Nat) (p : Page) (b : CounterBlock) : State × Page :=
  let s := s.raiseHigh c b.major
  ({ s with lk := { s.lk with versions := put s.lk.versions (pageKey room page) b.version } }, { p with ctr := some b })

/-- A line's ciphertext and MAC under its counters (R317, R318). -/
def encryptLine (key : Key) (room page line : Nat) (b : CounterBlock) (data : Line) (poison : Bool) : StoredLine :=
  let n := roomLine page line
  let ct := data ^^^ Config.keystream key room n b.major (b.minor line)
  { ct := ct, mac := Config.mac key room n b.major (b.minor line) ct, poison := poison }

/-- A stored line's plaintext. -/
def decryptLine (key : Key) (room page line : Nat) (b : CounterBlock) (x : StoredLine) : Line :=
  x.ct ^^^ Config.keystream key room (roomLine page line) b.major (b.minor line)

/-- The MAC of a stored line passes (R318). -/
def macOk (key : Key) (room page line : Nat) (b : CounterBlock) (x : StoredLine) : Bool :=
  x.mac == Config.mac key room (roomLine page line) b.major (b.minor line) x.ct

/-! ### Where a line stands -/

/-- A Larder slot holds a line. -/
def Page.slotHas (p : Page) (line : Nat) : Bool :=
  match p.slot with
  | some sl => sl.valid.getLsbD line
  | none => false

/-- A line as the Larder holds it. -/
def Page.slotLine (p : Page) (line : Nat) : Option StoredLine :=
  match p.slot with
  | some sl => if sl.valid.getLsbD line then look sl.lines line else none
  | none => none

/-- A line as the page's frame holds it. -/
def State.frameLine (s : State) (p : Page) (line : Nat) : Option StoredLine :=
  match p.entry.frame with
  | some a => (s.frame a).bind fun f => look f.lines line
  | none => none

/-- A line as stored: the Larder slot first, then the frame. -/
def State.storedLine (s : State) (p : Page) (line : Nat) : Option StoredLine :=
  match p.slotLine line with
  | some x => some x
  | none => s.frameLine p line

/-- The home slice's plaintext copy of a line (R146). -/
def State.pantryLine (s : State) (room page line : Nat) : Option PantryLine :=
  look s.ti.pantry (sliceKey (s.home room page) (lineKey room page line))

/-- The contribution of a member line to its stripe: zero while its minor counter is 0 (R347). -/
def State.contribution (s : State) (floor : Nat) (p : Page) (line : Nat) : Line × Mac :=
  if (p.block floor).minor line = 0 then (0, 0)
  else match s.storedLine p line with
    | some x => (x.ct, x.mac)
    | none => (0, 0)

/-- The parity position of a stripe for a host-line number (R348). -/
def Stripe.at_ (x : Stripe) (line : Nat) : Line × Mac := lookD x.lines line (0, 0)

/-- A member line rebuilt from the parity and the other members (R353); none when a second member is unavailable
(R356). -/
def State.rebuilt (s : State) (room page line : Nat) : Option StoredLine :=
  let d := s.part.stripeData
  let (st, m) := s.stripeOf page
  let x := s.stripe room st
  let others := (List.range d).filter fun i => i != m
  let parityHere := s.wingUp (s.parityWing room st) || (match x.parity with | some a => s.frameUp a | none => false)
  let reach := parityHere && others.all fun i =>
    match (s.page room (st * d + i)).entry.frame with
    | some a => s.frameUp a || (s.page room (st * d + i)).slotHas line
    | none => true
  if reach then
    let floor := match s.room room with | some r => s.floorOf r.cfg | none => 0
    let sum := others.foldl
      (fun acc i =>
        let c := s.contribution floor (s.page room (st * d + i)) line
        (acc.1 ^^^ c.1, acc.2 ^^^ c.2))
      (x.at_ line)
    some { ct := sum.1, mac := sum.2, poison := false }
  else none

/-- The frame of a page is on a unit that is out of service or lost. -/
def State.away (s : State) (p : Page) : Bool :=
  match p.entry.frame with
  | some a => !s.frameUp a
  | none => false

/-- What a line reads as, as it stands: nothing when it reads as poison. The Pantry copy comes first, then the Larder,
then the frame or, for a braced room whose frame is away, the stripe (R125, R305, R316, R353, R362). -/
def State.lineNow (s : State) (room page line : Nat) : Option Line :=
  match s.room room with
  | none => some 0
  | some r =>
    let p := s.page room page
    let b := p.block (s.floorOf r.cfg)
    if p.entry.poison || p.entry.lost then none
    else if p.entry.isSealed && !p.backed then some 0
    else if b.minor line = 0 || !(p.backed || p.slot.isSome) then some 0
    else match s.roomKey r.cfg with
      | none => none
      | some key =>
        match s.pantryLine room page line with
        | some x => if x.poison then none else some x.data
        | none =>
          match p.slotLine line with
          | some x => if x.poison then none else some (decryptLine key room page line b x)
          | none =>
            if s.away p then
              if r.cfg.braced then (s.rebuilt room page line).map (decryptLine key room page line b) else none
            else match s.frameLine p line with
              | some x => if x.poison then none else some (decryptLine key room page line b x)
              | none => none

/-! ### Journals -/

/-- Appends a page's entry to the map journal (R116). -/
def State.journalEntry (s : State) (room page : Nat) (e : MapEntry) : State :=
  let s := s.count 388 1
  { s with md := { s.md with mapJournal := s.md.mapJournal ++ [(pageKey room page, e)] } }

/-- Appends a dirty-page journal record (R173, R174); its partner copy is the same record. -/
def State.journalPage (s : State) (room page : Nat) (dirty : Bool) : State :=
  let s := s.count 388 1
  { s with md := { s.md with journal := s.md.journal ++ [(s.home room page, room, page, dirty)] } }

/-- Records a poisoned line in the poison list (R101, R204). -/
def State.listPoison (s : State) (room page line : Nat) : State :=
  if s.hp.poisonList.contains (room, page, line) then s
  else { s with hp := { s.hp with poisonList := s.hp.poisonList ++ [(room, page, line)] } }

/-- Takes a line off the poison list. -/
def State.unlistPoison (s : State) (room page line : Nat) : State :=
  { s with hp := { s.hp with poisonList := s.hp.poisonList.filter fun x => x != (room, page, line) } }

/-! ### Slices and the directory -/

/-- A slice other than the home's no longer holds a line: its bits in the line's directory entry clear (R274, R278). -/
def State.forgetSlice (s : State) (wing key : Nat) : State :=
  match look s.ti.dir key with
  | none => s
  | some e =>
    let e := { e with slices := e.slices &&& ~~~BitVec.ofNat 8 (2 ^ wing),
                      owner := if e.owner == some wing then none else e.owner }
    { s with ti := { s.ti with dir :=
        if e.hstate == .i && e.slices == 0 && e.owner == none then del s.ti.dir key else put s.ti.dir key e } }

/-- Drops a line from one slice. -/
def State.dropSlice (s : State) (wing key : Nat) : State :=
  ({ s with ti := { s.ti with pantry := del s.ti.pantry (sliceKey wing key) } } : State).forgetSlice wing key

/-- META_MIN_WAYS as it acts (R181). -/
def State.metaWays (s : State) (w : Nat) : Nat := max 2 (min 8 (s.reg .PAN_CFG_META_MIN_WAYS w))

/-- Ways of a set that data may take: all but the sketch's and those kept for metadata (R146, R149). -/
def State.dataWays (s : State) (w : Nat) : Nat := s.reg .PAN_CFG_WAYS w - 1 - s.metaWays w

/-- The Pantry set of a line, by its key (R146). -/
def pantrySet (key : Nat) : Nat := Config.pantryHash (keyRoom (key / 64)) (keyPage (key / 64)) (key % 64 / 4) % 8192

/-- The sectors of a slice's set, as line keys divided by 4. -/
def State.sectorsOf (s : State) (wing set : Nat) : List Nat :=
  ((s.ti.pantry.filter fun x => x.1 / 2 ^ 54 == wing && pantrySet (x.1 % 2 ^ 54) == set).map fun x =>
    x.1 % 2 ^ 54 / 4).dedup

/-- Evicts a sector of a slice: its lines go, and the homes of lines homed elsewhere hear of it (R146, R274). What an
owner holds stands in the home Larder already (R18). -/
def State.evictSector (s : State) (wing sector : Nat) : State :=
  let s := (List.range 4).foldl (fun s i => s.dropSlice wing (4 * sector + i)) s
  s.count (512 + 768 * wing + 324) 1

/-- Makes room in a slice's set for one more sector: the victim of pseudo-LRU is a free choice (R146). -/
def State.makeWay (s : State) (wing key : Nat) : State :=
  if s.ti.pantry.length < s.dataWays wing then s
  else
    let others := (s.sectorsOf wing (pantrySet key)).filter fun x => x != key / 4 &&
      !(s.ti.pantry.any fun y => y.2.dirty && y.1 / 4 == wing * 2 ^ 52 + x)
    let held := (s.sectorsOf wing (pantrySet key)).contains (key / 4)
    if held || others.length < s.dataWays wing then s
    else
      let (v, s) := s.free
      s.evictSector wing (others.getD (v.toNat % others.length) 0)

/-- A line's copies in E become S: another slice or a host gains the line (R274). -/
def State.shareCopies (s : State) (key : Nat) : State :=
  let shared := fun (k : Nat) (x : PantryLine) => if k % 2 ^ 54 == key && x.st == .e then { x with st := .s } else x
  { s with ti := { s.ti with pantry := mapAll s.ti.pantry shared } }

/-- Puts a line's plaintext in a slice: E only where no other slice and no host holds the line, and no other copy stays
in E (R146, R274). -/
def State.install (s : State) (wing room page line : Nat) (x : PantryLine) : State :=
  let key := lineKey room page line
  let s := s.makeWay wing key
  let others := s.ti.pantry.any fun y => y.1 % 2 ^ 54 == key && y.1 / 2 ^ 54 != wing
  let hosts := match look s.ti.dir key with | some e => e.hstate != .i | none => false
  let x := if x.st == .e && (others || hosts) then { x with st := .s } else x
  let s := if others then s.shareCopies key else s
  { s with ti := { s.ti with pantry := put s.ti.pantry (sliceKey wing key) x } }

/-- Drops a line from every slice but one (R264). -/
def State.dropSlices (s : State) (room page line : Nat) (keep : Option Nat) : State :=
  let key := lineKey room page line
  { s with ti := { s.ti with pantry := s.ti.pantry.filter fun x =>
      !(x.1 % 2 ^ 54 == key) || keep == some (x.1 / 2 ^ 54) } }

/-- Drops every line of a page from every slice. -/
def State.dropPageSlices (s : State) (room page : Nat) : State :=
  let k := pageKey room page
  { s with ti := { s.ti with pantry := s.ti.pantry.filter fun x => x.1 % 2 ^ 54 / 64 != k } }

/-- The group of a requester (R266). -/
def groupOf (requester : Nat) : Nat := requester / 64

/-- The requesters a directory entry's back-invalidate goes to (R267). -/
def State.entryHolders (s : State) (room : Nat) (e : DirEntry) : List Nat :=
  if e.coarse then (s.holders room).filter fun r => e.groups.getLsbD (groupOf r) else e.holders

/-- Sends a back-invalidate snoop and keeps it outstanding (R75, R76). -/
def State.snoop (s : State) (requester key : Nat) (kind : SnoopKind) : State :=
  let s := (s.count 10 1).satReg .HOME_BISNP_SENT (s.home (keyRoom (key / 64)) (keyPage (key / 64))) 1
  let s := s.send (.snoop requester key kind)
  { s with hp := { s.hp with snoops := s.hp.snoops ++ [⟨requester, key, kind, false⟩] } }

/-- Removes a line's directory entry. -/
def State.dropDir (s : State) (key : Nat) : State := { s with ti := { s.ti with dir := del s.ti.dir key } }

/-- Back-invalidates every host holder of a line and drops its entry, as the device's own accesses do (R264; log
entry 12). -/
def State.invalidateHosts (s : State) (room page line : Nat) : State :=
  let key := lineKey room page line
  match look s.ti.dir key with
  | none => s
  | some e => ((s.entryHolders room e).foldl (fun s r => s.snoop r key .inv) s).dropDir key

/-- Back-invalidates every line of a page. -/
def State.invalidatePage (s : State) (room page : Nat) : State :=
  let k := pageKey room page
  let keys := (s.ti.dir.filter fun x => x.1 / 64 == k).map Prod.fst
  keys.foldl (fun s key => s.invalidateHosts room page (key % 64)) s

/-! ### Larder slots (R159, R166, R167) -/

/-- A slot with no line valid, taken at a beat. -/
def Slot.fresh (beat : Nat) : Slot where
  valid := 0
  dirty := 0
  lines := []
  since := beat
  ref := true
  moving := false
  pinned := false

/-- The READS count of a page's sketch entry (R164). -/
def State.sketchKey (s : State) (room page : Nat) : Nat :=
  s.home room page * 2 ^ 20 + Config.setHash room (s.localIndex page) % 524288

def State.sketchOf (s : State) (room page : Nat) : Sketch :=
  let tag := (Config.setHash room (s.localIndex page) / 524288) % 4096
  match look s.ti.sketch (s.sketchKey room page) with
  | some x => if x.tag == tag then x else { tag := tag, reads := 0, writes := 0 }
  | none => { tag := tag, reads := 0, writes := 0 }

/-- A slot the clock sweep may take (R167). -/
def State.victim (s : State) (room page : Nat) (p : Page) : Bool :=
  match p.slot with
  | some sl => !sl.pinned && !sl.moving && !p.entry.pinned && !sl.ref &&
      (s.sketchOf room page).reads ≤ s.reg .PAN_TIER_DEMOTE_MAX (s.home room page)
  | none => false

/-- Frees a clean slot (R167). -/
def State.demote (s : State) (room page : Nat) : State :=
  let p := s.page room page
  let w := s.home room page
  let s := s.satReg .PAN_TIER_STAT_DEMOTIONS w 1
  let s := s.count (512 + 768 * w + 261) 1
  s.setPage room page { p with slot := none, tier := 0 }

/-- A pinned slot stays pinned at a sweep: a ring command or the room's TIER 1 pins it, or it still holds the dirty
lines that R222 keeps (R169). -/
def State.keepsPin (s : State) (room : Nat) (p : Page) : Bool :=
  p.entry.pinned || p.dirty || (match s.room room with | some r => r.cfg.tier == 1 | none => false)

/-- One pass of the clock sweep over a wing's slots: a slot with REF set loses it; a clean victim is freed; a dirty one
is queued for write-back (R167). A slot whose room is no longer TIER 1 is unpinned (R169). -/
def State.sweep (s : State) (w : Nat) : State :=
  let mine := s.ti.pages.filter fun x => s.home (keyRoom x.1) (keyPage x.1) == w && x.2.slot.isSome
  mine.foldl
    (fun s x =>
      let room := keyRoom x.1
      let page := keyPage x.1
      let p := s.page room page
      if s.victim room page p then
        if p.dirty then
          if s.ti.demoting.contains x.1 then s else { s with ti := { s.ti with demoting := s.ti.demoting ++ [x.1] } }
        else s.demote room page
      else match p.slot with
        | some sl =>
          s.setPage room page { p with slot := some { sl with ref := false, pinned := sl.pinned && s.keepsPin room p } }
        | none => s)
    s

/-- FREE_LOW as it acts (R181). -/
def State.freeLow (s : State) (w : Nat) : Nat := max 1 (s.reg .PAN_TIER_FREE_LOW w)

/-- Sweeps a wing when its free slots fall below FREE_LOW / 256 of its slots (R167). -/
def State.keepFree (s : State) (w : Nat) : State :=
  if (s.slots w - s.slotsUsed w) * 256 < s.freeLow w * s.slots w && s.flag .PAN_TIER_ENABLE w then s.sweep w else s

/-- The page's slot, or a free one taken now (R166). A write cancels a demotion in progress (R168). -/
def State.takeSlot (s : State) (room page : Nat) : State :=
  let p := s.page room page
  let s := { s with ti := { s.ti with demoting := s.ti.demoting.filter fun k => k != pageKey room page } }
  match p.slot with
  | some sl => s.setPage room page { p with slot := some { sl with ref := true } }
  | none =>
    (s.setPage room page { p with slot := some (Slot.fresh (s.beat % 2 ^ 32)), tier := 1 }).keepFree (s.home room page)

/-! ### Frames (R213 to R222) -/

/-- A frame has an erase on its way. -/
def State.erasing (s : State) (a : FrameAddr) : Bool :=
  (s.md.queue ++ s.md.inflight).any fun o => o.at_ == a && (o.kind == .erase || o.kind == .overwrite)

/-- The frames of a package that the table lists, by number. -/
def State.listed (s : State) (c p : Nat) : List (Nat × Frame) :=
  (s.md.frames.filter fun x => x.1 / 2 ^ 27 == c * 8 + p).map fun x => (x.1 % 2 ^ 27, x.2)

/-- The first number at or above `n` that a rising list leaves out. -/
def firstGap : Nat → List Nat → Nat
  | n, [] => n
  | n, x :: xs => if x < n then firstGap n xs else if x = n then firstGap (n + 1) xs else n

/-- The free frames worth trying in a package: every listed one, and the lowest that is still as formatted. -/
def State.freeFrameList (s : State) (c p : Nat) : List (FrameAddr × Frame) :=
  match s.profile c with
  | none => []
  | some m =>
    let l := s.listed c p
    let gap := firstGap 0 (l.map Prod.fst)
    let known := (l.filter fun x => x.2.st == 0 || x.2.st == 1).map fun x => (frameAt c p x.1, x.2)
    let all := if gap < m.frames - m.spares then known ++ [(frameAt c p gap, formatted m gap)] else known
    all.filter fun x => !s.erasing x.1

/-- A package in which frames may be allocated: it answers and is inside its media-write window (R213, R474). -/
def State.packageOpen (s : State) (c p : Nat) : Bool :=
  (s.packages c).contains p && !s.md.held.contains (c * 8 + p)

/-- A cellar on which frames may be allocated (R364 step 1). -/
def State.cellarOpen (s : State) (c : Nat) : Bool := s.cellarUp c && s.svc (16 + c) != 1 && s.svc (c / 4) != 1

/-- DELTA of the LIMITS section (R44). -/
def State.wearDelta (s : State) : Nat :=
  match s.plan with
  | some p => p.limits.wearDelta
  | none => 0

/-- M (R216), as of the last health sample. -/
def State.meanWear (s : State) : Nat := s.reg .HALL_MEDIA_WEAR_MEAN 0

/-- The cellars of a wing in the order R213 step 2 tries them, less those left out. -/
def State.cellarOrder (s : State) (w : Nat) (skip : List Nat) : List Nat :=
  let free := fun c => ((s.packages c).map fun p => s.freeFrames c p).sum
  let cs := ((List.range 4).map fun i => 4 * w + i).filter fun c => s.cellarOpen c && !skip.contains c
  sortBy (fun c => 2 ^ 32 - free c) cs

/-- The packages of a cellar in the order R213 step 2 tries them. -/
def State.packageOrder (s : State) (c : Nat) : List Nat :=
  sortBy (fun p => 2 ^ 32 - s.freeFrames c p) ((List.range 8).filter fun p => s.packageOpen c p)

/-- Erased frames first, then lower PCOUNT (R213 step 3). -/
def allocRank (f : Frame) : Nat := (if f.st == 1 then 0 else 2 ^ 32) + f.pcount

/-- The first frame of a wing that passes a test, in the order of R213. -/
def State.frameInWing (s : State) (w : Nat) (skip : List Nat) (ok : Frame → Bool) : Option FrameAddr :=
  ((s.cellarOrder w skip).flatMap fun c => (s.packageOrder c).map fun p => (c, p)).findSome? fun (c, p) =>
    (leastBy (fun x => allocRank x.2) ((s.freeFrameList c p).filter fun x => ok x.2)).map Prod.fst

/-- The allocator of R213 over a list of wings, with cellars left out. -/
def State.allocate (s : State) (wings skip : List Nat) : Option FrameAddr :=
  let limit := s.meanWear + s.wearDelta / 2
  match wings.findSome? fun w => s.frameInWing w skip fun f => f.pcount ≤ limit with
  | some a => some a
  | none =>
    let all := wings.flatMap fun w => (s.cellarOrder w skip).flatMap fun c =>
      (s.packageOrder c).flatMap fun p => s.freeFrameList c p
    (leastBy (fun x => x.2.pcount) all).map Prod.fst

/-- Marks a frame in use for a page, a parity or metadata (R209). -/
def State.useFrame (s : State) (a : FrameAddr) (room index home role st : Nat) : State :=
  match s.frame a with
  | none => s
  | some f =>
    let u := a.cellar * 8 + a.pkg
    let s := { s with md := { s.md with used := put s.md.used u (lookD s.md.used u 0 + 1) } }
    s.setFrame a { f with room := room, index := index, home := home, role := role, st := st, lines := [],
                          age := s.ageUnit, ageUnknown := false, unc := 0, stale := false }

/-- The page an operation works for. -/
def OpKind.page? : OpKind → Option Nat
  | .writeBack k | .logApply k | .retire k | .migrate k | .rebuild k => some k
  | .parity _ | .refresh | .erase | .overwrite | .metadata | .flush => none

/-- Queues a media operation that waits for a slot. -/
def State.queueOp (s : State) (o : MediaOp) : State := { s with md := { s.md with queue := s.md.queue ++ [o] } }

/-- A frame leaves use: to the spare pool, after an erase, while the pool is below its target, and to the free pool
otherwise (R215, R221). -/
def State.freeFrame (s : State) (a : FrameAddr) : State :=
  match s.frame a with
  | none => s
  | some f =>
    let u := a.cellar * 8 + a.pkg
    if f.st == 4 then s
    else
      let s := { s with md := { s.md with used := put s.md.used u (lookD s.md.used u 0 - 1) } }
      let s := s.setFrame a { f with st := 0, room := 0, index := 0, home := 0, role := 0, unc := 0 }
      if s.sparePool < s.spareTarget then
        s.queueOp { kind := .erase, position := 8, cellar := a.cellar, at_ := a, ml := 0, lines := [], tag := 0,
                    suspended := false, suspending := false }
      else s

/-- A frame is retired (R219): never read or allocated again. -/
def State.retireFrame (s : State) (a : FrameAddr) : State :=
  match s.frame a with
  | none => s
  | some f =>
    let u := a.cellar * 8 + a.pkg
    let used := if f.st == 2 || f.st == 5 then put s.md.used u (lookD s.md.used u 0 - 1) else s.md.used
    let spare := if f.st == 3 then put s.md.spare u (s.spareFrames a.cellar a.pkg - 1) else s.md.spare
    let s := { s with md := { s.md with used := used, spare := spare,
                                        retired := put s.md.retired u (lookD s.md.retired u 0 + 1) } }
    let s := s.setFrame a { f with st := 4, lines := [] }
    ((s.emit (srcAlloc a.wing 1)).count (512 + 768 * a.wing + 708) 1).spareLevels

/-! ### Stripes in allocation (R345, R346) -/

/-- The frames a stripe holds, members and parity. -/
def Stripe.frames (x : Stripe) : List FrameAddr := x.members.filterMap id ++ x.parity.toList

/-- The wings, and on the NPX-Y2 the cellars, that a new frame of a stripe must keep clear of. -/
def State.stripeSkip (s : State) (x : Stripe) : List Nat × List Nat :=
  match s.part with
  | .y2 => ([], x.frames.map FrameAddr.cellar)
  | _ => (x.frames.map FrameAddr.wing, [])

/-- The parity frame of a stripe, allocated with its first member (R345). -/
def State.allocParity (s : State) (room stripe : Nat) : State :=
  let x := s.stripe room stripe
  if x.parity.isSome then s
  else
    let w := s.parityWing room stripe
    let (_, skip) := s.stripeSkip x
    let order := match s.part with
      | .y2 => w :: (s.wings.filter fun v => v != w)
      | _ => [w]
    match s.allocate order skip with
    | some a =>
      (s.useFrame a room stripe w 1 2).setStripe room stripe { x with parity := some a }
    | none => s.setStripe room stripe { x with vacant := x.vacant ||| BitVec.ofNat 8 (2 ^ s.part.stripeData) }

/-- A frame for a page (R126, R213, R345). -/
def State.chooseFrame (s : State) (c : RoomCfg) (room page : Nat) : Option FrameAddr :=
  let h := s.home room page
  let order := s.wingsByDistance h
  if c.braced then
    let (st, _) := s.stripeOf page
    let (noWings, noCellars) := s.stripeSkip (s.stripe room st)
    s.allocate (order.filter fun w => !noWings.contains w) noCellars
  else s.allocate order []

/-- Assigns a frame to a page with its map entry, its journal record and, for a braced room, its stripe record
(R126, R346); nothing when no frame is to be had. -/
def State.allocPage (s : State) (c : RoomCfg) (room page : Nat) : Option State :=
  let (st, m) := s.stripeOf page
  let s := if c.braced then s.allocParity room st else s
  match s.chooseFrame c room page with
  | none => none
  | some a =>
    let s := s.useFrame a room (s.localIndex page) (s.home room page) 0 2
    let s := if c.braced then
        let x := s.stripe room st
        s.setStripe room st { x with members := x.members.set m (some a) }
      else s
    let p := s.page room page
    let e := { p.entry with frame := some a, lost := false }
    let s := s.setPage room page { p with entry := e }
    some ((s.journalEntry room page e).roomCount room 13 1)

/-! ### Discarded writes (R128) -/

/-- A write that cannot be stored: its data is discarded, the page poisoned and the write counted (R128). -/
def State.discardWrite (s : State) (requester room page line : Nat) : State :=
  let p := s.page room page
  let e := { p.entry with poison := true }
  let s := s.setPage room page { p with entry := e, rewritten := some 0 }
  let s := (s.dropPageSlices room page).journalEntry room page e
  let s := s.modRoom room fun r => { r with allocFail := satAdd 32 r.allocFail 1 }
  s.emitReq (srcAlloc (s.home room page) 0) requester 2 6 (page * 4096 + line * 64)

/-- A write to a page cannot be stored whatever frames are free (R128). -/
def State.unstorable (s : State) (c : RoomCfg) (p : Page) : Bool :=
  s.readOnly || p.entry.isSealed || s.keyEmpty c

/-! ### Storing a line -/

/-- Queues the parity delta of one line of a braced page (R348). -/
def State.sendDelta (s : State) (c : RoomCfg) (room page line : Nat) (old new : Line × Mac)
    (free : Option FrameAddr := none) : State :=
  if c.braced && (old != new || free.isSome) then
    let (st, _) := s.stripeOf page
    let w := s.parityWing room st
    let s := s.count (512 + 768 * s.home room page + 736) 1
    { s with br := { s.br with deltas := s.br.deltas ++
        [{ wing := w, stripe := stripeKey room st, position := line, dct := old.1 ^^^ new.1, dmac := old.2 ^^^ new.2,
           free := free }] } }
  else s

/-- Puts a sealed line in the page's Larder slot: dirty in normal mode, clean in write-through mode (R166, R298). -/
def Slot.write (sl : Slot) (line : Nat) (x : StoredLine) (dirty : Bool) (beat : Nat) : Slot :=
  let bit := BitVec.ofNat 64 (2 ^ line)
  { sl with
    valid := sl.valid ||| bit
    dirty := if dirty then sl.dirty ||| bit else sl.dirty
    since := if dirty && sl.dirty == 0 then beat % 2 ^ 32 else sl.since
    lines := put sl.lines line x }

/-- Puts a line of a page under its counters: seals it, stores it in the slot, mirrors it for a braced room and sends
its parity delta. -/
def State.sealInto (s : State) (c : RoomCfg) (key : Key) (room page line : Nat) (data : Line) (poison dirty : Bool)
    (old : Line × Mac) : State :=
  let p := s.page room page
  let b := p.block (s.floorOf c)
  let x := encryptLine key room page line b data poison
  let sl := (p.slot.getD (Slot.fresh s.beat)).write line x dirty s.beat
  let mirror := c.braced && dirty
  let s := s.setPage room page
    { p with
      slot := some sl
      tier := if dirty then 2 else max 1 p.tier
      mirror := if mirror then put p.mirror line x else p.mirror
      mirrorOn := if mirror then s.standIn (s.home room page) else p.mirrorOn }
  let s := s.count (512 + 768 * s.home room page + 448) 1
  s.sendDelta c room page line old (x.ct, x.mac)

/-- Re-encrypts a page under a higher MAJOR: every line whose minor is not 0 is sealed again with minor 1 (R324, R335). -/
def State.reencrypt (s : State) (c : RoomCfg) (key : Key) (room page : Nat) (dirty : Bool) : State :=
  let p := s.page room page
  let b := p.block (s.floorOf c)
  let major := min majorEnd (b.major + if b.suspect then 2 ^ 28 else 1)
  let used := (b.minors.filter fun x => x.2 != 0).map Prod.fst
  let texts := used.map fun l =>
    (l, s.storedLine p l, match s.storedLine p l with | some x => decryptLine key room page l b x | none => 0)
  let nb : CounterBlock := { major := major, minors := used.map fun l => (l, 1), suspect := false }
  let (s, p) := s.setBlock c room page p nb
  let s := s.setPage room page { p with entry := { p.entry with isSealed := p.entry.isSealed || major == majorEnd } }
  let s := texts.foldl
    (fun s (l, old, t) =>
      let oc := match old with | some x => (x.ct, x.mac) | none => (0, 0)
      s.sealInto c key room page l t (match old with | some x => x.poison | none => true) dirty oc)
    s
  let w := s.home room page
  let s := (s.satReg .LKS_CTR_STAT_REENCRYPT 0 1).emit (srcLockset w 3)
  let s := s.count (512 + 768 * w + 451) 1
  if major == majorEnd then
    ((s.satReg .LKS_CTR_STAT_SEALED 0 1).emit (srcLockset w 2)).journalEntry room page (s.page room page).entry
  else s

/-- Advances a line's minor counter by one (R321). -/
def State.advance (s : State) (c : RoomCfg) (room page line : Nat) : State :=
  let p := s.page room page
  let b := p.block (s.floorOf c)
  let (s, p) := s.setBlock c room page p { b with minors := put b.minors line (b.minor line + 1) }
  s.setPage room page p

/-- Poison flags for the lines a write leaves out, when it is the first to a page that reads as poison or is LOST
(R305, R337, R362): each such line is stored poisoned, with a minor counter above 0. -/
def State.poisonOthers (s : State) (c : RoomCfg) (key : Key) (room page line : Nat) (dirty : Bool) : State :=
  let others := (List.range 64).filter fun l => l != line
  let s := others.foldl
    (fun s l =>
      let b := (s.page room page).block (s.floorOf c)
      let s := if b.minor l = 0 then s.advance c room page l else s
      (s.sealInto c key room page l 0 true dirty (s.contribution (s.floorOf c) (s.page room page) l)).listPoison
        room page l)
    s
  let p := s.page room page
  s.setPage room page { p with entry := { p.entry with poison := false, lost := false }, causePoison := false }

/-- Makes a page dirty: its journal record the first time (R173), its place in the counters. -/
def State.becomeDirty (s : State) (room page : Nat) (was : Bool) : State :=
  if was then s
  else
    let p := s.page room page
    let s := s.setPage room page { p with journalled := true }
    (s.journalPage room page true).count 384 1

/-- The write-through log entry of a written line (R298 step 2). -/
def State.logWrite (s : State) (c : RoomCfg) (room page line : Nat) : State :=
  let p := s.page room page
  let ml := line / 4
  let lines := (List.range 4).filterMap fun i => (s.storedLine p (4 * ml + i)).map fun x => (4 * ml + i, x)
  let e : LogEntry := { wing := s.home room page, room := room, page := page, ml := ml, seq := s.md.logSeq + 1,
                        lines := lines, entry := p.entry, ctr := p.block (s.floorOf c) }
  (({ s with md := { s.md with log := s.md.log ++ [e], logSeq := s.md.logSeq + 1 } } : State).count 387 1)

/-- Pages a wing holds pinned. -/
def State.pinnedOn (s : State) (w : Nat) : Nat :=
  s.ti.pages.countP fun x => s.home (keyRoom x.1) (keyPage x.1) == w &&
    (match x.2.slot with | some sl => sl.pinned || x.2.entry.pinned | none => false)

/-- Starts a promotion: MOVING and TIER 3, with the slot the page has or a free one (R165). -/
def State.promote (s : State) (room page : Nat) (pin : Bool) : State :=
  let s := s.takeSlot room page
  let p := s.page room page
  match p.slot with
  | some sl =>
    if sl.moving then s
    else
      let s := s.setPage room page { p with slot := some { sl with moving := true, pinned := sl.pinned || pin }, tier := 3 }
      { s with ti := { s.ti with promoting := s.ti.promoting ++ [pageKey room page] } }
  | none => s

/-- A TIER 1 room's backed pages are promoted and pinned, until half the wing's page area is held (R169). -/
def State.pinPolicy (s : State) (c : RoomCfg) (room page : Nat) : State :=
  let p := s.page room page
  let w := s.home room page
  let held := match p.slot with | some sl => sl.pinned | none => false
  if c.tier != 1 || held || !p.backed then s
  else if 2 * (s.pinnedOn w + 1) ≤ s.slots w then (s.setFlag .LAR_STATUS_PIN_SHORT w false).promote room page true
  else s.setFlag .LAR_STATUS_PIN_SHORT w true

/-- In SERVING, the backed pages of TIER 1 rooms and those a ring command pinned are promoted and pinned: after a start,
when a room's policy changes, and when pages are unpinned (R169, R387). -/
def State.repin (s : State) : State :=
  let one := fun (s : State) (x : Nat × Page) =>
    let room := keyRoom x.1
    let page := keyPage x.1
    let p := s.page room page
    let held := match p.slot with | some sl => sl.pinned | none => false
    match s.room room with
    | none => s
    | some r =>
      if held || !p.backed || p.entry.lost || p.entry.poison then s
      else if p.entry.pinned then s.promote room page true
      else s.pinPolicy r.cfg room page
  if s.pw.dev != .serving then s else s.ti.pages.foldl one s

/-- Counts a write in the page's sketch while it is not wholly valid in the Larder, and promotes it at PROMOTE_WRITES
(R164, R165). -/
def State.sketchWrite (s : State) (c : RoomCfg) (room page : Nat) : State :=
  let p := s.page room page
  let w := s.home room page
  let whole := match p.slot with | some sl => sl.valid == BitVec.allOnes 64 | none => false
  if c.tier != 0 || whole then s
  else
    let x := s.sketchOf room page
    let x := { x with writes := satAdd 6 x.writes 1 }
    let s := { s with ti := { s.ti with sketch := put s.ti.sketch (s.sketchKey room page) x } }
    if s.flag .PAN_TIER_ENABLE w && max 1 (min 63 (s.reg .PAN_TIER_PROMOTE_WRITES w)) ≤ x.writes then
      s.promote room page false
    else s

/-- Counts a media read of a default-policy page, and promotes it at PROMOTE_READS (R164, R165). -/
def State.sketchRead (s : State) (c : RoomCfg) (room page : Nat) : State :=
  let w := s.home room page
  if c.tier != 0 then s
  else
    let x := s.sketchOf room page
    let x := { x with reads := satAdd 8 x.reads 1 }
    let s := { s with ti := { s.ti with sketch := put s.ti.sketch (s.sketchKey room page) x } }
    if s.flag .PAN_TIER_ENABLE w && max 1 (s.reg .PAN_TIER_PROMOTE_READS w) ≤ x.reads then s.promote room page false
    else s

/-- Marks a line of a page poisoned under R128 as rewritten in full; the page's POISON clears with the last one. -/
def State.noteRewritten (s : State) (room page line : Nat) (full : Bool) : State :=
  let p := s.page room page
  match p.rewritten with
  | none => s
  | some m =>
    let m := if full then m ||| BitVec.ofNat 64 (2 ^ line) else m
    if m == BitVec.allOnes 64 then
      let e := { p.entry with poison := false }
      (s.setPage room page { p with entry := e, rewritten := none }).journalEntry room page e
    else s.setPage room page { p with rewritten := some m }

/-- The bytes a write leaves in a line: the new ones, and the old ones where the mask is clear; poison when the write
carries it, or when it is partial and the line was poison (log entry 13). -/
def State.merged (s : State) (room page line : Nat) (data : Line) (mask : BitVec 64) (poison : Bool) : Line × Bool :=
  if fullMask mask then (data, poison)
  else match s.lineNow room page line with
    | some old => (mergeLine old data mask, poison)
    | none => (mergeLine 0 data mask, true)

/-- Stores a written line whose page has a frame: counters, cipher, slot, mirror, journals and the home slice
(R18, R166, R173, R298, R321, R324). -/
def State.putLine (s : State) (c : RoomCfg) (key : Key) (room page line : Nat) (data : Line) (mask : BitVec 64)
    (poison : Bool) : State :=
  let dirty := !s.writeThrough
  let was := (s.page room page).dirty
  let (text, bad) := s.merged room page line data mask poison
  let first := (s.page room page).entry.poison && (s.page room page).rewritten.isNone || (s.page room page).entry.lost
  let s := s.takeSlot room page
  let b := (s.page room page).block (s.floorOf c)
  let re := b.suspect || b.minor line == 127
  let s := if re then s.reencrypt c key room page dirty else s
  let s := if first then s.poisonOthers c key room page line dirty else s
  let p := s.page room page
  let old := s.contribution (s.floorOf c) p line
  let s := if re && b.minor line != 0 then s else s.advance c room page line
  let s := s.sealInto c key room page line text bad dirty old
  let s := if dirty then s.becomeDirty room page was else s.logWrite c room page line
  let s := if bad then s.listPoison room page line else s.unlistPoison room page line
  let s := s.noteRewritten room page line (fullMask mask && !bad)
  let s := s.dropSlices room page line none
  let s := s.install (s.home room page) room page line
    { data := text, poison := bad, st := if dirty then .m else .e, dirty := false }
  let p := s.page room page
  let s := s.setPage room page { p with written := p.written || s.tracked room page }
  (s.sketchWrite c room page).pinPolicy c room page

/-- A write of one line at its home tracker: stored, or discarded under R128. The host copies other than the writer's
are already gone. -/
def State.storeLine (s : State) (requester room page line : Nat) (data : Line) (mask : BitVec 64) (poison : Bool) :
    State :=
  match s.room room with
  | none => s
  | some r =>
    let p := s.page room page
    match s.roomKey r.cfg with
    | none => s.discardWrite requester room page line
    | some key =>
      if s.unstorable r.cfg p then s.discardWrite requester room page line
      else if p.backed && !p.entry.lost then s.putLine r.cfg key room page line data mask poison
      else
        let s1 := match p.entry.frame with | some a => s.freeFrame a | none => s
        match s1.allocPage r.cfg room page with
        | some s' =>
          let s' := if p.entry.lost then
              let q := s'.page room page
              s'.setPage room page { q with entry := { q.entry with lost := true } }
            else s'
          s'.putLine r.cfg key room page line data mask poison
        | none => s.discardWrite requester room page line

/-! ### Release (R130 to R136) -/

/-- A map entry R130 calls unbacked: all zeros, or only SEALED set. -/
def Page.untouched (p : Page) : Bool :=
  !p.backed && !p.entry.poison && !p.entry.lost && !p.entry.pinned && p.slot.isNone

/-- The frame of a released page: overwritten first by a secure release (R131); for a braced room it waits for its
deltas (R350); a frame that cannot be reached is journalled (R133). -/
def State.releaseFrame (s : State) (c : RoomCfg) (room page : Nat) (p : Page) (secure : Bool) : State × Bool :=
  let (st, m) := s.stripeOf page
  let lines := ((p.block (s.floorOf c)).minors.filter fun x => x.2 != 0).map Prod.fst
  let olds := lines.map fun l => (l, s.contribution (s.floorOf c) p l)
  let x := s.stripe room st
  let parityAway := c.braced && (match x.parity with | some a => !s.frameUp a | none => false)
  let s := if c.braced && secure && !parityAway then
      olds.foldl
        (fun s (l, o) =>
          let x := s.stripe room st
          let cur := x.at_ l
          s.setStripe room st { x with lines := put x.lines l (cur.1 ^^^ o.1, cur.2 ^^^ o.2), dirty := true })
        s
    else s
  let s := if c.braced then
      let x := s.stripe room st
      s.setStripe room st { x with members := x.members.set m none }
    else s
  match p.entry.frame with
  | none => (s, secure && parityAway)
  | some a =>
    let away := !s.frameUp a
    if p.entry.lost then (s, false)
    else if secure then
      if away || parityAway then
        let left := (if away then [a.key] else []) ++
          (if parityAway then (match x.parity with | some q => [q.key] | none => []) else [])
        let s := { s with md := { s.md with overwrites := s.md.overwrites ++ left } }
        (if away then s else s.freeFrame a, true)
      else
        let s := match s.frame a with
          | some f => s.setFrame a { f with lines := [], pcount := satAdd 32 f.pcount 16 }
          | none => s
        (s.freeFrame a, false)
    else if c.braced && !olds.isEmpty then
      let n := olds.length
      let s := (olds.zipIdx).foldl
        (fun s (lo, i) => s.sendDelta c room page lo.1 lo.2 (0, 0) (if i + 1 == n then some a else none)) s
      (s, false)
    else (s.freeFrame a, false)

/-- Releases a page, plainly or securely (R130, R131, R135, R136); answers whether an overwrite is deferred (R133). -/
def State.releasePage (s : State) (room page : Nat) (secure : Bool) : State × Bool :=
  match s.room room with
  | none => (s, false)
  | some r =>
    let p := s.page room page
    if p.untouched then (s, false)
    else
      let s := (s.invalidatePage room page).dropPageSlices room page
      let (s, deferred) := s.releaseFrame r.cfg room page p secure
      let s := if secure then { s with md := { s.md with log := s.md.log.filter fun e =>
          !(e.room == room && e.page == page) } } else s
      let b := p.block (s.floorOf r.cfg)
      let major := min majorEnd (b.major + 1)
      let blank : CounterBlock := { major := major, minors := [], suspect := false }
      let newlySealed := major == majorEnd && !p.entry.isSealed
      let e : MapEntry := { frame := none, poison := false, isSealed := p.entry.isSealed || newlySealed,
                            pinned := false, lost := false }
      let q := { Page.blank with entry := e, released := if s.tracked room page then some secure else none }
      let (s, q) := if p.entry.isSealed then (s, { q with ctr := p.ctr, ctrMedia := p.ctrMedia })
        else s.setBlock r.cfg room page { q with ctrMedia := p.ctrMedia } blank
      let s := (s.setPage room page q).journalEntry room page e
      let s := if newlySealed then (s.satReg .LKS_CTR_STAT_SEALED 0 1).emit (srcLockset (s.home room page) 2) else s
      let s := if p.journalled then (s.journalPage room page false).count 385 1 else s
      let moves := s.md.queue.filter fun o => o.kind == .migrate (pageKey room page) || o.kind == .rebuild (pageKey room page)
      let s := moves.foldl (fun s o => s.freeFrame o.at_) s
      let s := { s with
        ti := { s.ti with
          promoting := s.ti.promoting.filter fun k => k != pageKey room page
          demoting := s.ti.demoting.filter fun k => k != pageKey room page }
        md := { s.md with queue := s.md.queue.filter fun o =>
          o.kind.page? != some (pageKey room page) }
        hp := { s.hp with poisonList := s.hp.poisonList.filter fun x => !(x.1 == room && x.2.1 == page) } }
      let s := s.modRoom room fun r =>
        { r with
          plain := if secure then r.plain else satAdd 32 r.plain 1
          secure := if secure then satAdd 32 r.secure 1 else r.secure
          deferred := if deferred then satAdd 8 r.deferred 1 else r.deferred }
      ((s.roomCount room (if secure then 15 else 14) 1).spareLevels, deferred)

/-- Releases a list of pages; answers whether any overwrite is deferred. -/
def State.releasePages (s : State) (room : Nat) (pages : List Nat) (secure : Bool) : State × Bool :=
  pages.foldl (fun (s, d) p => let (s, d') := s.releasePage room p secure; (s, d || d')) (s, false)

end Sys2Proof.Machine
end

