-- ==== Sys2Proof/Machine/MediaOps.lean ====
section
/-! DEFINITION. Media operations: queueing write-backs and parity programs, admission to a slot, and what a completed
or failed program leaves. -/

namespace Sys2Proof.Machine

/-! ### Queueing -/

/-- A program or erase as it is first queued. -/
def mediaOp (kind : OpKind) (position : Nat) (a : FrameAddr) (ml : Nat) : MediaOp where
  kind := kind
  position := position
  cellar := a.cellar
  at_ := a
  ml := ml
  lines := []
  tag := 0
  suspended := false
  suspending := false

/-- A media line of a page has a dirty host line in its slot. -/
def Page.mlDirty (p : Page) (ml : Nat) : Bool :=
  match p.slot with
  | some sl => (List.range 4).any fun i => sl.dirty.getLsbD (4 * ml + i)
  | none => false

/-- A write-back of a media line already waits or runs. -/
def State.opQueued (s : State) (kind : OpKind) (ml : Nat) : Bool :=
  (s.md.queue ++ s.md.inflight).any fun o => o.kind == kind && o.ml == ml

/-- Queues the parity media lines of a stripe that waits for nothing else (R349). -/
def State.queueParity (s : State) (room stripe position : Nat) : State :=
  let x := s.stripe room stripe
  let key := stripeKey room stripe
  let d := s.part.stripeData
  let memberDirty := (List.range d).any fun i => (s.page room (stripe * d + i)).dirty
  let unsettled := s.br.deltas.any fun e => e.stripe == key
  if !x.dirty || memberDirty || unsettled then s
  else match x.parity with
    | none => s
    | some a =>
      if !s.frameUp a then s.setStripe room stripe { x with dirty := false, vacant := x.vacant ||| BitVec.ofNat 8 (2 ^ d) }
      else
        let mls := (List.range 16).filter fun ml => x.lines.any fun l => l.1 / 4 == ml
        mls.foldl (fun s ml => if s.opQueued (.parity key) ml then s else s.queueOp (mediaOp (.parity key) position a ml)) s

/-- The last dirty line of a page is in media: the page is clean (R170, R174). The counter block is programmed first
(R334), then the clean record. -/
def State.becomeClean (s : State) (room page : Nat) : State :=
  let p := s.page room page
  let tier := match s.room room with | some r => r.cfg.tier | none => 0
  let k := pageKey room page
  let gone := tier == 2 || s.ti.demoting.contains k
  let slot := if gone then none else p.slot
  let s := s.setPage room page
    { p with slot := slot, tier := if gone then 0 else min p.tier 1, ctrMedia := p.ctr, mirror := [], mirrorOn := none,
             journalled := false }
  let s := { s with ti := { s.ti with demoting := s.ti.demoting.filter fun x => x != k } }
  let s := if gone && p.slot.isSome then s.satReg .PAN_TIER_STAT_DEMOTIONS (s.home room page) 1 else s
  let s := (if p.journalled then s.journalPage room page false else s).count 385 1
  match s.room room with
  | some r => if r.cfg.braced then s.queueParity room (s.stripeOf page).1 5 else s
  | none => s

/-- A write-back of a page whose frame is away: a braced member is left VACANT with its parity current (R354); a plain
page is LOST (R361). -/
def State.writeBackAway (s : State) (c : RoomCfg) (room page : Nat) : State :=
  let p := s.page room page
  let slot := p.slot.map fun sl => { sl with dirty := 0 }
  if c.braced then
    let (st, m) := s.stripeOf page
    let x := s.stripe room st
    let s := s.setStripe room st { x with vacant := x.vacant ||| BitVec.ofNat 8 (2 ^ m) }
    (s.setPage room page { p with slot := slot }).becomeClean room page
  else
    let e := { p.entry with lost := true }
    ((s.setPage room page { p with slot := slot, entry := e }).journalEntry room page e).becomeClean room page

/-- Queues the write-back of a page's dirty media lines (R170, R205). -/
def State.queueWriteBack (s : State) (room page position : Nat) : State :=
  let p := s.page room page
  match s.room room with
  | none => s
  | some r =>
    if !p.dirty then s
    else if s.away p then s.writeBackAway r.cfg room page
    else match p.entry.frame with
      | none => s
      | some a =>
        let k := pageKey room page
        ((List.range 16).filter p.mlDirty).foldl
          (fun s ml => if s.opQueued (.writeBack k) ml then s else s.queueOp (mediaOp (.writeBack k) position a ml)) s

/-- Every dirty page, oldest SINCE first (R302 step 3). -/
def State.dirtyPages (s : State) : List (Nat × Page) :=
  sortBy (fun (x : Nat × Page) => match x.2.slot with | some sl => sl.since | none => 0) (s.ti.pages.filter fun x => x.2.dirty)

/-- Moves a waiting write-back or parity program up to a position. -/
def MediaOp.hasten (o : MediaOp) (position : Nat) : MediaOp :=
  match o.kind with
  | .writeBack _ | .parity _ => { o with position := min o.position position }
  | _ => o

/-- Queues every dirty page for write-back at a position; what already waits moves up to it (R297, R302). -/
def State.writeBackAll (s : State) (position : Nat) : State :=
  let s := { s with md := { s.md with queue := s.md.queue.map fun (o : MediaOp) => o.hasten position } }
  s.dirtyPages.foldl (fun (s : State) (x : Nat × Page) => s.queueWriteBack (keyRoom x.1) (keyPage x.1) position) s

/-! ### Admission (R191, R254, R255) -/

/-- Programs and erases a channel may run (R225). -/
def State.progSlots (s : State) (c : Nat) : Nat :=
  let n := s.reg .CEL_CTRL_PROG_SLOTS c
  if n = 0 || 16 < n then 16 else n

/-- A read waits for a bank of a package. -/
def State.readQueued (s : State) (m : MediaProfile) (a : FrameAddr) : Bool :=
  s.hp.pend.any fun q => q.wait == .media && (match q.todo with
    | l :: _ => match (s.page q.room l.page).entry.frame with
      | some b => b.cellar == a.cellar && b.pkg == a.pkg && m.bank b.frame == m.bank a.frame
      | none => false
    | [] => false)

/-- The allowance a cadence frame gives an operation's class on a channel is not spent (R254). -/
def State.allowance (s : State) (o : MediaOp) : Bool :=
  let (mig, reb, ref) := lookD s.md.slots o.cellar (0, 0, 0)
  match o.kind with
  | .migrate _ => mig < s.reg .CEL_CTRL_MIG_SLOTS o.cellar
  | .rebuild _ => reb < s.reg .WING_BRACE_REBUILD_SLOTS (o.cellar / 4)
  | .refresh => ref < s.reg .WING_CAL_REFRESH_SLOTS (o.cellar / 4)
  | _ => true

/-- A write-back is not held: its positions have settled (R349), and no migration copy of its page runs or waits for
its switch (R217). -/
def State.settled (s : State) (o : MediaOp) : Bool :=
  match o.kind with
  | .writeBack k =>
    let key := stripeKey (keyRoom k) (s.stripeOf (keyPage k)).1
    (s.br.deltas.all fun d => !(d.stripe == key && d.position / 4 == o.ml)) &&
      !s.md.wear.contains k && !(s.md.inflight.any fun x => x.kind == (OpKind.migrate k))
  | _ => true

/-- An operation may start in a slot of its channel now (R191, R254, R255). -/
def State.admits (s : State) (o : MediaOp) : Bool :=
  match s.profile o.cellar with
  | none => false
  | some m =>
    let here := s.md.inflight.filter fun x => x.cellar == o.cellar
    let pkg := here.filter fun x => x.at_.pkg == o.at_.pkg
    let wing := s.md.inflight.filter fun x => x.cellar / 4 == o.cellar / 4
    let u := o.cellar * 8 + o.at_.pkg
    let draining := s.reg .HALL_DRAIN_STATUS_STEP 0 != 0
    here.length < s.progSlots o.cellar && pkg.length < m.progPerPkg &&
    (pkg.all fun x => m.bank x.at_.frame != m.bank o.at_.frame) && !s.readQueued m o.at_ &&
    (s.packages o.cellar).contains o.at_.pkg && s.cellarUp o.cellar &&
    !(if draining then s.md.drainHeld else s.md.held).contains u &&
    (o.position ≤ 2 || (wing.length + 1) * m.progCurrent ≤ s.reg .WING_CAL_PROG_MA (o.cellar / 4)) &&
    s.allowance o && s.settled o

/-- The operation that a channel's slot goes to: the first admitted in order of position (R254). -/
def State.slotChoice (s : State) (c : Nat) : Option MediaOp :=
  (leastBy MediaOp.position (s.md.queue.filter fun o => o.cellar == c && s.admits o))

/-- The lowest tag no operation of a channel uses (R185). -/
def State.freeTag (s : State) (c : Nat) : Nat :=
  (((List.range 64).filter fun t => !(s.md.inflight.any fun o => o.cellar == c && o.tag == t)).head?).getD 63

/-! ### Building the media line (R205, R206) -/

/-- The host lines of a media line as a write-back builds them: dirty lines from the slot, zero for minor 0, other valid
lines from the slot, the rest read from media; poison where that read fails on a plain page (R205, R206). -/
def State.buildLine (s : State) (room page ml : Nat) (readOk : Bool) : SMap StoredLine :=
  let p := s.page room page
  let c := match s.room room with | some r => some r.cfg | none => none
  let b := p.block (match c with | some c => s.floorOf c | none => 0)
  (List.range 4).map fun i =>
    let l := 4 * ml + i
    let media := s.frameLine p l
    let x : StoredLine :=
      match p.slotLine l with
      | some x => x
      | none =>
        if b.minor l = 0 then { ct := 0, mac := 0, poison := false }
        else if readOk then media.getD { ct := 0, mac := 0, poison := true }
        else match (match c with | some c => if c.braced then s.rebuilt room page l else none | none => none) with
          | some x => x
          | none => { (media.getD { ct := 0, mac := 0, poison := true }) with poison := true }
    (l, x)

/-- What an operation programs, taken as it is issued. -/
def State.opLines (s : State) (o : MediaOp) (readOk : Bool) : SMap StoredLine :=
  match o.kind with
  | .writeBack k => s.buildLine (keyRoom k) (keyPage k) o.ml readOk
  | .migrate k =>
    let p := s.page (keyRoom k) (keyPage k)
    match p.entry.frame with
    | some a => (match s.frame a with | some f => f.lines | none => [])
    | none => []
  | .rebuild k =>
    let room := keyRoom k
    let page := keyPage k
    let p := s.page room page
    let floor := match s.room room with | some r => s.floorOf r.cfg | none => 0
    let used := ((p.block floor).minors.filter fun x => x.2 != 0).map Prod.fst
    used.filterMap fun l => (s.rebuilt room page l).map fun x => (l, x)
  | .parity k =>
    let x := s.stripe (k / 2 ^ 40) (k % 2 ^ 40)
    (x.lines.filter fun l => l.1 / 4 == o.ml).map fun l => (l.1, { ct := l.2.1, mac := l.2.2, poison := false })
  | .logApply _ => o.lines
  | _ => (match s.frame o.at_ with | some f => f.lines | none => [])

/-- Counts an operation against its class's allowance in the cadence frame (R254). -/
def State.spend (s : State) (o : MediaOp) : State :=
  let (mig, reb, ref) := lookD s.md.slots o.cellar (0, 0, 0)
  let v := match o.kind with
    | .migrate _ => (mig + 1, reb, ref)
    | .rebuild _ => (mig, reb + 1, ref)
    | .refresh => (mig, reb, ref + 1)
    | _ => (mig, reb, ref)
  if v = (mig, reb, ref) then s else { s with md := { s.md with slots := put s.md.slots o.cellar v } }

/-- Issues an operation: PROGRAM or ERASE with a tag, its lines taken, PCOUNT up by one for a program (R205 step 6). -/
def State.issue (s : State) (o : MediaOp) (lines : SMap StoredLine) : State :=
  let tag := s.freeTag o.cellar
  let erase := o.kind == .erase
  let s := { s with md := { s.md with
    queue := s.md.queue.erase o
    inflight := s.md.inflight ++ [{ o with tag := tag, lines := lines }] } }
  let s := s.count (512 + 768 * (o.cellar / 4) + 64 * (o.cellar % 4) + (if erase then 4 else 3)) 1
  let s := s.spend o
  if erase || o.kind == .metadata || o.kind == .flush then s
  else match s.frame o.at_ with
    | some f => s.setFrame o.at_ { f with pcount := satAdd 32 f.pcount 1 }
    | none => s

/-! ### Completion (R207, R219) -/

/-- The page a frame holds. -/
def State.pageOf (s : State) (a : FrameAddr) : Option (Nat × Nat) :=
  (s.ti.pages.find? fun x => x.2.entry.frame == some a).map fun x => (keyRoom x.1, keyPage x.1)

/-- Adds programmed lines to a frame. -/
def State.programLines (s : State) (a : FrameAddr) (lines : SMap StoredLine) : State :=
  match s.frame a with
  | some f => s.setFrame a { f with lines := lines.foldl (fun m x => put m x.1 x.2) f.lines, stale := false,
                                    wroteAt := s.beat }
  | none => s

/-- Clears DIRTY of the lines whose programmed content is still the slot's (R207). -/
def Slot.settleLines (sl : Slot) (lines : SMap StoredLine) : Slot :=
  lines.foldl
    (fun sl x => if look sl.lines x.1 == some x.2 then { sl with dirty := sl.dirty &&& ~~~BitVec.ofNat 64 (2 ^ x.1) }
      else sl)
    sl

/-- A write-back's program is done. -/
def State.wroteBack (s : State) (k : Nat) (o : MediaOp) : State :=
  let room := keyRoom k
  let page := keyPage k
  let s := s.programLines o.at_ o.lines
  let p := s.page room page
  match p.slot with
  | none => s
  | some sl =>
    let sl' := sl.settleLines o.lines
    let s := s.setPage room page { p with slot := some sl' }
    let s := s.count (512 + 768 * s.home room page + 262) 1
    if sl.dirty != 0 && sl'.dirty == 0 then s.becomeClean room page else s

/-- A frame on a package that answers, of a cellar in service. -/
def State.frameReachable (s : State) (a : FrameAddr) : Bool :=
  s.cellarUp a.cellar && (s.packages a.cellar).contains a.pkg

/-- A frame whose page has moved away is overwritten before it is free again; one that cannot be reached waits for its
unit (R132, R133). A retired frame stays as it is. -/
def State.leaveFrame (s : State) (a : FrameAddr) : State :=
  match s.frame a with
  | none => s
  | some f =>
    if f.st == 4 then s
    else
      let s := { s with md := { s.md with
        overwrites := if s.md.overwrites.contains a.key then s.md.overwrites else s.md.overwrites ++ [a.key] } }
      if s.frameReachable a then s.queueOp (mediaOp .overwrite 5 a 0) else s

/-- An overwritten frame that no page and no stripe holds goes back to the pool. -/
def State.overwritten (s : State) (a : FrameAddr) : State :=
  let s := { s with md := { s.md with overwrites := s.md.overwrites.filter fun x => x != a.key } }
  match s.frame a with
  | none => s
  | some f =>
    let s := s.setFrame a { f with lines := [], pcount := satAdd 32 f.pcount 16 }
    if (f.st == 2 || f.st == 5) && f.role == 0 && (s.pageOf a).isNone then s.freeFrame a else s

/-- A rebuilt member is in its frame (R367): the stripe's VACANT bit clears; a frame it sat in before is left (R132). -/
def State.rebuiltMember (s : State) (k : Nat) (o : MediaOp) : State :=
  let room := keyRoom k
  let page := keyPage k
  let (st, m) := s.stripeOf page
  let s := s.programLines o.at_ o.lines
  let x := s.stripe room st
  let s := s.setStripe room st { x with members := x.members.set m (some o.at_),
                                        vacant := x.vacant &&& ~~~BitVec.ofNat 8 (2 ^ m) }
  let p := s.page room page
  let e := { p.entry with frame := some o.at_ }
  let s := if p.entry.frame == some o.at_ then s
    else
      let s := (s.setPage room page { p with entry := e }).journalEntry room page e
      match p.entry.frame with
      | some a => s.leaveFrame a
      | none => s
  let s := s.count (512 + 768 * s.home room page + 738) 1
  { s with br := { s.br with rebuildPtr := put s.br.rebuildPtr (16 + o.cellar) (stripeKey room st + 1) } }

/-- An operation completed and passed its verify (R188). -/
def State.opDone (s : State) (o : MediaOp) : State :=
  let s := { s with md := { s.md with inflight := s.md.inflight.erase o } }
  match o.kind with
  | .writeBack k => s.wroteBack k o
  | .logApply _ => s.programLines o.at_ o.lines
  | .retire _ => s.programLines o.at_ o.lines
  | .migrate k =>
    let s := s.programLines o.at_ o.lines
    { s with md := { s.md with wear := if s.md.wear.contains k then s.md.wear else s.md.wear ++ [k] } }
  | .rebuild k => s.rebuiltMember k o
  | .parity k =>
    let room := k / 2 ^ 40
    let st := k % 2 ^ 40
    let s := s.programLines o.at_ o.lines
    let more := (s.md.queue ++ s.md.inflight).any fun x => x.kind == .parity k
    let x := s.stripe room st
    if more then s else s.setStripe room st { x with dirty := false }
  | .refresh =>
    let s := { s with md := { s.md with refresh := s.md.refresh.filter fun x => x.1 != o.at_.key } }
    let s := match s.frame o.at_ with
      | some f => s.setFrame o.at_ { f with age := s.ageUnit, ageUnknown := false }
      | none => s
    (s.satReg .WING_REFRESH_DONE o.at_.wing 1).count (512 + 768 * o.at_.wing + 705) 1
  | .erase =>
    match s.frame o.at_ with
    | some f =>
      if s.sparePool < s.spareTarget then
        let u := o.cellar * 8 + o.at_.pkg
        let n := s.spareFrames o.cellar o.at_.pkg
        let s := { s with md := { s.md with spare := put s.md.spare u (n + 1) } }
        (s.setFrame o.at_ { f with st := 3 }).spareLevels
      else s.setFrame o.at_ { f with st := 1 }
    | none => s
  | .overwrite => s.overwritten o.at_
  | .metadata | .flush => s

/-! ### Retirement (R219, R221, R222) -/

/-- The spare a retirement takes: same cellar, then same wing, then other wings in ring order (R221). -/
def State.chooseSpare (s : State) (a : FrameAddr) (skipWings : List Nat) : Option FrameAddr :=
  let inCellar := fun c =>
    let pkgs := sortBy (fun p => 2 ^ 32 - s.spareFrames c p) ((List.range 8).filter fun p => s.packageOpen c p)
    let pkgs := if c == a.cellar && s.packageOpen c a.pkg then a.pkg :: pkgs.filter (fun p => p != a.pkg) else pkgs
    pkgs.findSome? fun p =>
      if s.spareFrames c p = 0 then none
      else
        let l := s.listed c p
        match l.find? fun x => x.2.st == 3 && !s.erasing (frameAt c p x.1) with
        | some x => some (frameAt c p x.1)
        | none =>
          match s.profile c with
          | some m =>
            let gap := firstGap (m.frames - m.spares) (l.map Prod.fst)
            if gap < m.frames then some (frameAt c p gap) else none
          | none => none
  let wings := a.wing :: ((s.ringAfter a.wing).filter fun w => w != a.wing)
  let cellars := a.cellar ::
    ((wings.filter fun w => !skipWings.contains w).flatMap fun w => (List.range 4).map fun i => 4 * w + i).filter
      fun c => c != a.cellar
  (cellars.filter s.cellarOpen).findSome? inCellar

/-- Takes a spare into use for a page. -/
def State.useSpare (s : State) (a : FrameAddr) (room index home : Nat) : State :=
  let u := a.cellar * 8 + a.pkg
  let n := s.spareFrames a.cellar a.pkg
  let s := s.useFrame a room index home 0 2
  { s with md := { s.md with spare := put s.md.spare u (n - 1) } }

/-- Moves a page off a frame that is to be retired, onto a spare or else a free frame, and retires the frame. With no
frame to be had, the page's lines stay in its slot, pinned (R219, R222). -/
def State.retireMove (s : State) (a : FrameAddr) (extra : SMap StoredLine) : State :=
  match s.pageOf a with
  | none => s.retireFrame a
  | some (room, page) =>
    match s.room room with
    | none => s.retireFrame a
    | some r =>
      let (st, m) := s.stripeOf page
      let skip := if r.cfg.braced && s.part != .y2 then
          ((s.stripe room st).frames.map FrameAddr.wing).filter fun w => w != a.wing
        else []
      let old := match s.frame a with | some f => f.lines | none => []
      let lines := extra.foldl (fun m x => put m x.1 x.2) old
      let target := match s.chooseSpare a skip with
        | some b => some (b, true)
        | none => (s.chooseFrame r.cfg room page).map fun b => (b, false)
      match target with
      | none =>
        let p := s.page room page
        s.setPage room page { p with slot := p.slot.map fun sl => { sl with pinned := true } }
      | some (b, isSpare) =>
        let index := s.localIndex page
        let home := s.home room page
        let s := if isSpare then s.useSpare b room index home else s.useFrame b room index home 0 2
        let s := s.programLines b lines
        let s := if r.cfg.braced then
            let x := s.stripe room st
            s.setStripe room st { x with members := x.members.set m (some b) }
          else s
        let p := s.page room page
        let e := { p.entry with frame := some b }
        let s := (s.setPage room page { p with entry := e }).journalEntry room page e
        let s := { s with md := { s.md with queue := s.md.queue.map fun (o : MediaOp) =>
          if o.kind == (OpKind.writeBack (pageKey room page)) then { o with at_ := b, cellar := b.cellar } else o } }
        let p := s.page room page
        let s := match p.slot with
          | some sl =>
            let sl' := sl.settleLines extra
            let s := s.setPage room page { p with slot := some sl' }
            if sl.dirty != 0 && sl'.dirty == 0 then s.becomeClean room page else s
          | none => s
        s.retireFrame a

/-- An operation failed its verify (R215, R219, R220). -/
def State.opFailed (s : State) (o : MediaOp) : State :=
  let s := { s with md := { s.md with inflight := s.md.inflight.erase o } }
  let c := o.cellar
  let erase := o.kind == .erase
  let s := (s.setReg .CEL_ERR_LOC_FRAME c o.at_.frame).setReg .CEL_ERR_LOC_PKG c o.at_.pkg
  let s := (s.setReg .CEL_ERR_LOC_LINE c o.ml).setReg .CEL_ERR_LOC_KIND c (if erase then 5 else 4)
  let s := s.setReg .CEL_ERR_LOC_BITS c 0
  if erase then ((s.satReg .CEL_ERR1_ERASE_FAIL c 1).emit (srcCellar c 4)).retireFrame o.at_
  else
    let s := (s.satReg .CEL_ERR1_PROG_FAIL c 1).emit (srcCellar c 3)
    match o.kind with
    | .migrate k =>
      let s := { s with md := { s.md with wear := s.md.wear.filter fun x => x != k } }
      s.retireFrame o.at_
    | .writeBack _ => s.retireMove o.at_ o.lines
    | .parity k =>
      let room := k / 2 ^ 40
      let st := k % 2 ^ 40
      let x := s.stripe room st
      let s := (s.setStripe room st { x with parity := none }).retireFrame o.at_
      (s.allocParity room st).queueParity room st 5
    | .overwrite =>
      let s := { s with md := { s.md with overwrites := s.md.overwrites.filter fun x => x != o.at_.key } }
      s.retireMove o.at_ []
    | _ => s.retireMove o.at_ []

end Sys2Proof.Machine
end

