-- ==== Sys2Proof/Machine/HostReq.lean ====
section
/-! DEFINITION. Host requests: the ingress steps, credits and turns, trackers in arrival order, snoops, the directory,
what a read or a write of one line does and how a request is answered. -/

namespace Sys2Proof.Machine

/-! ### Kinds of request -/

/-- A request stores data. -/
def ReqKind.writes : ReqKind → Bool
  | .memWr | .memWrPtl | .uioWr | .atomic => true
  | .memRd | .memRdData | .memInv | .memInvNt | .uioRd => false

/-- A request brings data back. -/
def ReqKind.reads : ReqKind → Bool
  | .memRd | .memRdData | .uioRd => true
  | .memWr | .memWrPtl | .memInv | .memInvNt | .uioWr | .atomic => false

/-- A request asks for a CXL.mem invalidation only. -/
def ReqKind.invalidates : ReqKind → Bool
  | .memInv | .memInvNt => true
  | _ => false

/-- A request came as UIO. -/
def ReqKind.uio : ReqKind → Bool
  | .uioRd | .uioWr => true
  | _ => false

/-- A request writes its lines or asks for ownership of them (R262). -/
def Req.owns (q : Req) : Bool :=
  q.kind.writes || (q.mv == .a && (q.kind == .memRd || q.kind.invalidates))

/-- The key of the line at the head of a request. -/
def Req.key (q : Req) : Option Nat := q.todo.head?.map fun o => lineKey q.room o.page o.line

/-! ### Answers -/

/-- A request's answer as it leaves: held in Recovery with its room, discarded while the link is down (R67, R68). -/
def State.answer (s : State) (room : Nat) (o : Out) : State :=
  match s.hp.link with
  | .l0 => s.send o
  | .recovery => { s with hp := { s.hp with held := s.hp.held ++ [(room, o)] } }
  | .down | .training => s

/-- Gives a credit back (R96). -/
def State.credit (s : State) (room : Nat) : State := s.modRoom room fun r => { r with inUse := r.inUse - 1 }

/-- The data words of an answer: a poisoned line carries data the spec does not give (R74). -/
def State.answerLines (s : State) (got : List (Line × Bool)) : List Line × State :=
  got.foldl
    (fun (acc : List Line × State) (x : Line × Bool) =>
      if x.2 then (acc.1 ++ [Config.poisonData acc.2.fresh], { acc.2 with fresh := acc.2.fresh + 1 })
      else (acc.1 ++ [x.1], acc.2))
    ([], s)

/-- The bytes a UIO read wants, in lines of its own (R87). -/
def packBytes (lines : List Line) (skip length : Nat) : List Line :=
  let bs := ((lines.flatMap fun l => bytesOf l 0 64).drop skip).take length
  (List.range ((length + 63) / 64)).map fun i => lineOf (bs.drop (64 * i))

/-- TYPE of a sample record (R529). -/
def ReqKind.sampleType : ReqKind → Nat
  | .memRd | .memRdData | .memInv | .memInvNt => 0
  | .memWr => 1 | .memWrPtl => 2 | .atomic => 3 | .uioRd => 4 | .uioWr => 5

/-- A sample record: its times are free values, and TOTAL is their sum (R529 to R531). -/
def State.sampleRecord (s : State) (who room page line type source flags : Nat) : State :=
  let w := s.home room page
  if s.flag .PMC_SMP_PTR_FULL w then s.satReg .PMC_SMP_PTR_SKIPPED w 1
  else
    let n := s.reg .PMC_SMP_PTR_NEXT w
    let fw := match (s.page room page).entry.frame with | some a => a.wing | none => 0
    let times := (List.range 5).map fun i => (Config.freeValue (s.fresh + i)).toNat % 2 ^ 29
    let ticks := (Config.freeValue (s.fresh + 5)).toNat % 2 ^ 32
    let s := { s with fresh := s.fresh + 6 }
    let b := n + 2 ^ 32 * who + 2 ^ 48 * room + 2 ^ 64 * (page * 4096 + line * 64) +
      2 ^ 128 * type + 2 ^ 136 * source + 2 ^ 144 * flags + 2 ^ 152 * (w + 8 * fw) +
      2 ^ 160 * ofBytes ((times.sum :: times).flatMap fun x => toBytes 4 x) + 2 ^ 384 * s.beat + 2 ^ 448 * ticks
    let s := { s with me := { s.me with samples := put s.me.samples (w * 2 ^ 20 + n) (BitVec.ofNat 512 b) } }
    let full := n + 1 == 2 ^ 20 && !s.flag .PMC_SMP_CFG_WRAP 0
    (s.setReg .PMC_SMP_PTR_NEXT w ((n + 1) % 2 ^ 20)).setFlag .PMC_SMP_PTR_FULL w full

/-- Writes the sample record of a marked request into its home wing's buffer (R529). -/
def State.sample (s : State) (q : Req) (page line : Nat) : State :=
  if q.mark then s.sampleRecord (q.requester % 4096) q.room page line q.kind.sampleType q.source q.flags else s

/-- Answers a finished request: its response, its credit, its counters (R66, R96, R528, R532). -/
def State.respond (s : State) (q : Req) (kind : RespKind) (page line : Nat) : State :=
  let poison := q.got.any fun x => x.2
  let n := q.got.length
  let (lines, s) := if q.kind.reads then s.answerLines q.got else ([], s)
  let lines := if q.kind == .uioRd then packBytes lines q.skip q.length else lines
  let s := s.answer q.room (.resp q.requester q.tag kind lines poison)
  let s := if s.hp.link == .recovery then s else s.credit q.room
  let s := s.count 129 1
  let s := if q.kind.reads then (s.roomCount q.room 0 1).roomCount q.room 4 (64 * n) else s
  let s := if poison then s.roomCount q.room 10 1 else s
  s.sample q page line

/-- Refuses a request under R72: it takes no credit and reaches no home. -/
def State.refuse (s : State) (requester tag : Nat) (kind : ReqKind) (addrKind address : Nat) (room : Option Nat) : State :=
  let rk := if kind.uio then (if kind.reads then RespKind.uioData else .uioDone)
    else if kind.reads then .memData else .cmp
  let s := s.answer 4096 (.resp requester tag rk (if kind.reads then [0] else []) kind.reads)
  let s := (s.satReg .HALL_HP_ERR_REFUSED 0 1).count 12 1
  let s := s.count 130 1
  let s := match room with | some r => s.roomCount r 11 1 | none => s
  s.emitReq srcRefused requester (if kind.writes then 2 else 1) addrKind address

/-- Completes a write and discards its data (R79, R280). -/
def State.discardQuietly (s : State) (requester tag : Nat) (kind : ReqKind) : State :=
  s.answer 4096 (.resp requester tag (if kind.uio then .uioDone else .cmp) [] false)

/-! ### The directory (R265 to R271) -/

/-- Adds a holder to a directory entry, turning it coarse at the fifth (R266). -/
def State.addHolder (_s : State) (e : DirEntry) (requester : Nat) : DirEntry :=
  let bit := fun (r : Nat) => BitVec.ofNat 64 (2 ^ groupOf r)
  if e.coarse then { e with groups := e.groups ||| bit requester }
  else if e.holders.contains requester then e
  else if e.holders.length < 4 then { e with holders := e.holders ++ [requester] }
  else
    { e with
      coarse := true
      holders := []
      groups := (e.holders ++ [requester]).foldl (fun g r => g ||| bit r) 0 }

/-- An entry with no holder. -/
def DirEntry.blank : DirEntry where
  hstate := .i
  coarse := false
  holders := []
  groups := 0
  slices := 0
  owner := none

/-- Puts a directory entry back; one with no host and no slice is not kept. -/
def State.setDir (s : State) (key : Nat) (e : DirEntry) : State :=
  { s with ti := { s.ti with dir :=
      if e.hstate == .i && e.slices == 0 && e.owner == none then del s.ti.dir key else put s.ti.dir key e } }

/-- Marks a requester in HOME_HOLDERS of a wing (R270). -/
def State.markHolder (s : State) (w requester : Nat) : State :=
  let i := w * 64 + requester / 64
  s.setReg .HOME_HOLDERS_HOLD i (s.reg .HOME_HOLDERS_HOLD i ||| 2 ^ (requester % 64))

/-- Removes a requester from an exact entry. -/
def DirEntry.remove (e : DirEntry) (requester : Nat) : DirEntry :=
  if e.coarse then e
  else
    let hs := e.holders.filter fun r => r != requester
    { e with holders := hs, hstate := if hs.isEmpty then .i else e.hstate }

/-- The directory's change and the response of R271 for the line at the head of a request. -/
def State.grant (s : State) (q : Req) (key : Nat) : State × RespKind :=
  let e := lookD s.ti.dir key DirEntry.blank
  let others := (s.entryHolders q.room e).filter fun r => r != q.requester
  let w := s.home q.room (keyPage (key / 64))
  let only : DirEntry := { DirEntry.blank with hstate := .a, holders := [q.requester] }
  match q.kind with
  | .uioRd => (s, .uioData)
  | .uioWr => (s.dropDir key, .uioDone)
  | .atomic => (s, .cmp)
  | .memRd | .memRdData =>
    if q.kind == .memRdData || q.mv == .s then
      if others.isEmpty && e.slices == 0 then ((s.setDir key only).markHolder w q.requester, .memDataE)
      else
        let e' := s.addHolder { e with hstate := .s } q.requester
        (((s.shareCopies key).setDir key e').markHolder w q.requester, .memDataS)
    else if q.mv == .a then
      (((s.dropSlices q.room (keyPage (key / 64)) (key % 64) (some w)).setDir key only).markHolder w q.requester,
        .memDataE)
    else (s, .memData)
  | .memInv | .memInvNt =>
    if q.mv == .a then
      (((s.dropSlices q.room (keyPage (key / 64)) (key % 64) (some w)).setDir key only).markHolder w q.requester, .cmpE)
    else (s.setDir key (e.remove q.requester), .cmp)
  | .memWr | .memWrPtl =>
    let held := e.hstate == .a && e.holders.contains q.requester
    (s.setDir key (if held && q.mv == .a then only else DirEntry.blank), .cmp)

/-- A request that adds an entry for its line when none is there. -/
def Req.takesEntry (q : Req) : Bool :=
  match q.kind with
  | .memRdData => true
  | .memRd => q.mv != .i
  | .memInv | .memInvNt => q.mv == .a
  | .memWr | .memWrPtl | .uioRd | .uioWr | .atomic => false

/-- Sets of a wing's directory: 512 bytes each, held twice (R159, R265). -/
def State.dirSets (s : State) : Nat :=
  match s.plan with
  | some p => p.larder.capacity * 2 ^ 30 * p.larder.dirShare / 64 / 1024
  | none => 1

/-- The directory set of a line (R265). -/
def State.dirSet (s : State) (key : Nat) : Nat :=
  Config.dirHash (keyRoom (key / 64)) (s.localIndex (keyPage (key / 64))) (key % 64) % max 1 s.dirSets

/-- Two lines have the same directory set. -/
def State.sameSet (s : State) (a b : Nat) : Bool :=
  s.home (keyRoom (a / 64)) (keyPage (a / 64)) == s.home (keyRoom (b / 64)) (keyPage (b / 64)) && s.dirSet a == s.dirSet b

/-- Entries of a line's set that are on their way out: their snoops are unanswered. -/
def State.dirLeaving (s : State) (key : Nat) : List Nat :=
  (((s.hp.snoops.map fun x => x.key).filter fun k => k != key && (look s.ti.dir k).isNone && s.sameSet k key)).dedup

/-- The entries of a line's set. -/
def State.dirEntries (s : State) (key : Nat) : List (Nat × DirEntry) :=
  s.ti.dir.filter fun x => s.sameSet x.1 key

/-- Holders an entry counts, for the choice of a victim. -/
def DirEntry.count (e : DirEntry) : Nat :=
  if e.coarse then (List.range 64).countP fun i => e.groups.getLsbD i else e.holders.length

/-- Evicts an entry: fewest holders first, and otherwise a free choice; its host holders are back-invalidated and its
slice copies dropped (R268). -/
def State.evictEntry (s : State) (key : Nat) : State :=
  let (v, s) := s.free
  let es := s.dirEntries key
  let n := v.toNat % max 1 es.length
  match leastBy (fun (x : Nat × DirEntry) => x.2.count) (es.drop n ++ es.take n) with
  | none => s
  | some (k, e) =>
    let room := keyRoom (k / 64)
    let w := s.home room (keyPage (k / 64))
    let hosts := (s.entryHolders room e).filter fun r => !s.hp.failed.contains r
    let s := (s.satReg .HOME_DIR_STAT_EVICTIONS w 1).count (512 + 768 * w + 386) 1
    let s := (s.dropSlices room (keyPage (k / 64)) (k % 64) (some w)).dropDir k
    hosts.foldl (fun s r => s.snoop r k .inv) s

/-- Makes room for an entry of a line; answers whether the request must wait until a victim has gone (R268). -/
def State.makeEntry (s : State) (key : Nat) : State × Bool :=
  if (look s.ti.dir key).isSome || s.ti.dir.length + s.hp.snoops.length < 16 then (s, false)
  else
    let leaving := s.dirLeaving key
    if (s.dirEntries key).length + leaving.length < 16 then (s, false)
    else if !leaving.isEmpty then (s, true)
    else
      let s := s.evictEntry key
      (s, !(s.dirLeaving key).isEmpty)

/-! ### Slice copies outside the home (R274, R275) -/

/-- Another wing's slice owns a line it has written: M there, and no other slice holds it (R274, R284). -/
def State.own (s : State) (v room page line : Nat) (data : Line) : State :=
  let key := lineKey room page line
  let x : PantryLine := { data := data, poison := false, st := .m, dirty := false }
  let s := s.dropSlices room page line none
  if v == s.home room page then s.install v room page line x
  else
    let (s, _) := s.makeEntry key
    let s := s.install v room page line x
    let e := lookD s.ti.dir key DirEntry.blank
    let e := { e with slices := BitVec.ofNat 8 (2 ^ v), owner := some v }
    { s with ti := { s.ti with dir := put s.ti.dir key e } }

/-- A line just stored moves to the slice of the wing that wrote it. -/
def State.ownWritten (s : State) (v room page line : Nat) : State :=
  match s.pantryLine room page line with
  | some x => s.own v room page line x.data
  | none => s

/-- An owner supplies a line: M becomes O, or S with OWNED cleared while OWNED_EN is 0 (R274, R275). -/
def State.forwarded (s : State) (room page line : Nat) : State :=
  let key := lineKey room page line
  match look s.ti.dir key with
  | some e =>
    match e.owner with
    | some v =>
      let keep := s.flag .HOME_CTRL_OWNED_EN (s.home room page)
      let moved := fun (x : PantryLine) => { x with st := if keep then .o else .s }
      let pantry := adjust s.ti.pantry (sliceKey v key) moved
      let dir := put s.ti.dir key { e with owner := if keep then some v else none }
      let s := { s with ti := { s.ti with pantry := pantry, dir := dir } }
      (s.satReg .HOME_BISNP_FORWARDS (s.home room page) 1).count (512 + 768 * s.home room page + 387) 1
    | none => s
  | none => s

/-- A slice takes a copy of a line its wing reads: E when no other slice and no host holds the line, S otherwise; an
owner elsewhere supplies it (R274, R275). -/
def State.share (s : State) (v room page line : Nat) (data : Line) : State :=
  let key := lineKey room page line
  let home := s.home room page
  if v == home || (look s.ti.pantry (sliceKey v key)).isSome then s
  else
    let s := s.forwarded room page line
    let (s, _) := s.makeEntry key
    let s := s.install v room page line { data := data, poison := false, st := .e, dirty := false }
    let e := lookD s.ti.dir key DirEntry.blank
    let e := { e with slices := e.slices ||| BitVec.ofNat 8 (2 ^ v) }
    { s with ti := { s.ti with dir := put s.ti.dir key e } }

/-- The holders a request must snoop, and how (R271). A takeover directory without an entry means that every holder of
an extent may hold the line (R359). -/
def State.mustSnoop (s : State) (q : Req) (key : Nat) : List Nat × SnoopKind :=
  let unknown := (look s.ti.dir key).isNone && s.ti.takeoverDir.contains (s.home q.room (keyPage (key / 64)))
  let e := lookD s.ti.dir key DirEntry.blank
  let all := if unknown then s.holders q.room else s.entryHolders q.room e
  let others := all.filter fun r => r != q.requester && !q.asked.contains r && !s.hp.failed.contains r
  if q.owns then (others, .inv)
  else if e.hstate == .a then
    if q.kind == .memRdData || (q.kind == .memRd && q.mv == .s) then (others, .data)
    else if q.kind.reads then (others, .cur)
    else ([], .inv)
  else ([], .inv)

/-- A snoop to one more requester fits the limits of R75. -/
def State.snoopFits (s : State) (requester : Nat) : Bool :=
  (s.hp.snoops.countP fun x => x.requester == requester) < 64 && s.hp.snoops.length < 4096

/-! ### Pending requests -/

/-- Replaces a pending request by its number. -/
def State.setReq (s : State) (q : Req) : State :=
  { s with hp := { s.hp with pend := s.hp.pend.map fun (x : Req) => if x.id == q.id then q else x } }

/-- Takes a pending request off the list. -/
def State.dropReq (s : State) (q : Req) : State :=
  { s with hp := { s.hp with pend := s.hp.pend.filter fun (x : Req) => x.id != q.id } }

/-- The line at the head of a request is done: the directory, the next line or the answer. -/
def State.lineDone (s : State) (q : Req) (data : Option (Line × Bool)) : State × Req :=
  match q.todo with
  | [] => (s, q)
  | o :: rest =>
    let key := lineKey q.room o.page o.line
    let (s, kind) := s.grant q key
    let got := match data with | some d => q.got ++ [d] | none => q.got
    let q := { q with todo := rest, got := got, asked := [], wait := .ready }
    if rest.isEmpty then ((s.dropReq q).respond q kind o.page o.line, q) else (s.setReq q, q)

/-- Adds to a reading's page: the clock reference bit (R161), the Pantry copy in the home slice (R146). -/
def State.touch (s : State) (room page : Nat) : State :=
  let p := s.page room page
  match p.slot with
  | some sl => s.setPage room page { p with slot := some { sl with ref := true } }
  | none => s

/-- What a read of one line meets. -/
inductive ReadAt where
  | done (data : Line) (poison : Bool) (source : Nat)
  | larder | media | hmb
  deriving DecidableEq, Repr

/-- The slice, other than the home's, that owns a line (R275). -/
def State.ownerSlice (s : State) (room page line : Nat) : Option PantryLine :=
  match look s.ti.dir (lineKey room page line) with
  | some e => e.owner.bind fun w => look s.ti.pantry (sliceKey w (lineKey room page line))
  | none => none

/-- The slice that a Pantry hit of a line reads: the home's, or the owner's. -/
def State.hitSlice (s : State) (room page line : Nat) : Option Nat :=
  let key := lineKey room page line
  let home := s.home room page
  if (look s.ti.pantry (sliceKey home key)).isSome then some home
  else match look s.ti.dir key with
    | some e => e.owner.filter fun w => (look s.ti.pantry (sliceKey w key)).isSome
    | none => none

/-- Writes PAN_ERR_LOC; the way is a free value (R181). -/
def State.panLoc (s : State) (w key kind : Nat) : State :=
  let (x, s) := s.free
  let s := (s.setReg .PAN_ERR_LOC_SET w (pantrySet key)).setReg .PAN_ERR_LOC_WAY w
    (x.toNat % max 1 (s.reg .PAN_CFG_WAYS w))
  (s.setReg .PAN_ERR_LOC_LINE w (key % 4)).setReg .PAN_ERR_LOC_KIND w kind

/-- An error on a Pantry-dirty line: it reads as poison until rewritten, or in parity mode the wing is lost, which is
the reaction to the event (R150, R485). -/
def State.panDirtyLost (s : State) (w key : Nat) : State :=
  let s := (s.satReg .PAN_ERR_DIRTY_LOST w 1).panLoc w key 3
  if s.flag .PAN_CFG_MODE w then (s.setFlag .PAN_STATUS_FAILED w true).emit (srcPantry w 3)
  else
    let room := keyRoom (key / 64)
    let page := keyPage (key / 64)
    let line := key % 64
    let p := s.page room page
    let bad := fun (sl : Slot) => { sl with
      lines := put sl.lines line { (lookD sl.lines line { ct := 0, mac := 0, poison := true }) with poison := true }
      valid := sl.valid ||| BitVec.ofNat 64 (2 ^ line) }
    let s := s.setPage room page { p with slot := p.slot.map bad, causePoison := true }
    ((s.listPoison room page line).dropSlice w key).emit (srcPantry w 2)

/-- A Pantry hit's check (R149, R150): one bit is corrected in ECC mode; anything worse, and any error in parity mode,
loses the line, which is fetched again when it was clean; a tag's error loses the lines of its sector. -/
def State.pantryChecked (s : State) (room page line : Nat) (check : PantryCheck) : State :=
  let key := lineKey room page line
  match s.hitSlice room page line with
  | none => s
  | some w =>
    let isDirty := fun (s : State) (k : Nat) =>
      match look s.ti.pantry (sliceKey w k) with | some x => x.dirty | none => false
    let lose := fun (s : State) (k : Nat) => if isDirty s k then s.panDirtyLost w k else s.dropSlice w k
    match check with
    | .clean => s
    | .tagParity =>
      let s := ((s.satReg .PAN_ERR_TAG_PARITY w 1).panLoc w key 4).emit (srcPantry w 4)
      (List.range 4).foldl (fun s i => lose s (key / 4 * 4 + i)) s
    | .oneBit | .manyBits =>
      if check == .oneBit && !s.flag .PAN_CFG_MODE w then
        ((s.satReg .PAN_ERR_CORRECTED w 1).panLoc w key 1).emit (srcPantry w 0)
      else if isDirty s key then s.panDirtyLost w key
      else (((s.satReg .PAN_ERR_REFETCHED w 1).panLoc w key 2).dropSlice w key).emit (srcPantry w 1)

/-- The leaf of a page in its home wing's map tree: 512 entries of 8 bytes to a node (R115). -/
def State.leafOf (s : State) (room page : Nat) : Nat := s.home room page * 2 ^ 30 + s.localIndex page / 512

/-- The 64-byte group of eight map entries a page's entry lies in (R121). -/
def State.entryGroup (s : State) (room page : Nat) : Nat :=
  room * 2 ^ 40 + s.home room page * 2 ^ 36 + s.localIndex page / 8

/-- A page that no home serves: of a plain room whose home wing is lost (R361), or of a wing that is down with none to
act for it. -/
def State.unreachable (s : State) (c : RoomCfg) (room page : Nat) : Bool :=
  let w := s.home room page
  (!c.braced && s.svc w == 5) || (!s.wingUp w && (look s.br.acting w).isNone && !s.br.window.contains w)

/-- Where a read of one line is served (R19, R125, R275, R316, R353, R362). -/
def State.readAt (s : State) (room page line : Nat) : ReadAt :=
  match s.room room with
  | none => .done 0 false 3
  | some r =>
    let p := s.page room page
    let b := p.block (s.floorOf r.cfg)
    if s.unreachable r.cfg room page || p.entry.poison || p.entry.lost then .done 0 true 2
    else if b.minor line = 0 || !(p.backed || p.slot.isSome) then .done 0 false 3
    else match s.roomKey r.cfg with
      | none => .done 0 true 2
      | some key =>
        match s.pantryLine room page line with
        | some x => .done x.data x.poison 0
        | none =>
          match s.ownerSlice room page line with
          | some x => .done x.data x.poison 5
          | none =>
            if s.hp.hmbLeaves.contains (room, s.leafOf room page) && !s.hp.hmbCached.contains (s.entryGroup room page) then
              .hmb
            else if p.slotHas line then .larder
            else if s.away p then
              if r.cfg.braced then
                match s.rebuilt room page line with
                | some x =>
                  if macOk key room page line b x then .done (decryptLine key room page line b x) false 4
                  else .done 0 true 4
                | none => .done 0 true 4
              else .done 0 true 2
            else .media

/-- A line that does not read as zero for want of content (R125). -/
def State.realLine (s : State) (room page line : Nat) : Bool :=
  match s.readAt room page line with
  | .done _ _ source => source != 3
  | .larder | .media | .hmb => true

/-- Counts a read by where it was served, and what a reconstruction leaves (R353, R356, R523, R532). -/
def State.countRead (s : State) (room page line source : Nat) (poison : Bool) : State :=
  let w := s.home room page
  match source with
  | 0 => (s.roomCount room 6 1).count (512 + 768 * w + 320) 1
  | 3 => s.roomCount room 9 1
  | 4 =>
    let pw := s.parityWing room (s.stripeOf page).1
    if poison then
      let s := ((s.satReg .WING_BRACE_STAT_DOUBLE pw 1).emit (srcBrace pw 1)).listPoison room page line
      let p := s.page room page
      s.setPage room page { p with causePoison := true }
    else (s.satReg .WING_BRACE_STAT_RECONSTRUCTED pw 1).count (512 + 768 * w + 737) 1
  | 5 => s.forwarded room page line
  | _ => s

/-! ### Atomics (R279 to R287) -/

/-- The fields of an atomic descriptor. -/
structure AtomicCmd where
  op : Nat
  size : Nat
  tag : Nat
  target : Nat
  opa : BitVec 128
  opb : BitVec 128
  seq : Word
  spare : Bool                 -- a reserved byte is not zero
  deriving DecidableEq, Repr

/-- Reads a descriptor. -/
def atomicOf (d : Line) : AtomicCmd where
  op := (d.extractLsb' 0 8).toNat
  size := (d.extractLsb' 8 8).toNat
  tag := (d.extractLsb' 32 32).toNat
  target := (d.extractLsb' 64 64).toNat
  opa := d.extractLsb' 128 128
  opb := d.extractLsb' 256 128
  seq := d.extractLsb' 384 64
  spare := d.extractLsb' 16 16 != 0 || d.extractLsb' 448 64 != 0

/-- The first aperture page of a window (R279). -/
def RoomCfg.apertureBase (c : RoomCfg) : Nat := c.pages - 4096

/-- A page lies in a room's aperture. -/
def RoomCfg.inAperture (c : RoomCfg) (page : Nat) : Bool := c.aperture && c.apertureBase ≤ page && page < c.pages

/-- A line is a descriptor slot. -/
def RoomCfg.descriptorLine (c : RoomCfg) (page line : Nat) : Bool := c.inAperture page && line < 32

/-- The status of a descriptor before its target is read, 1 when nothing is wrong (R283, R284 step 1). Reserved bytes,
and OPB outside CAS, must be zero; the upper half of an 8-byte operand is not read. -/
def AtomicCmd.check (a : AtomicCmd) (c : RoomCfg) : Nat :=
  let unused := a.op != 3 && a.opb != 0
  if a.op = 0 || 10 < a.op || a.spare || !(a.size == 8 || (a.size == 16 && a.op == 3)) || unused then 0x10
  else if a.target % a.size != 0 then 0x11
  else if c.size ≤ a.target || c.inAperture (a.target / 4096) then 0x12
  else 1

/-- The new value of an 8-byte operation; none when nothing is written (R283). -/
def atomicNew (op : Nat) (old opa : BitVec 64) : Option (BitVec 64) :=
  match op with
  | 1 => some (old + opa)
  | 2 => some opa
  | 4 => some (if old.slt opa then old else opa)
  | 5 => some (if old.slt opa then opa else old)
  | 6 => some (if old.ult opa then old else opa)
  | 7 => some (if old.ult opa then opa else old)
  | 8 => some (old &&& opa)
  | 9 => some (old ||| opa)
  | 10 => some (old ^^^ opa)
  | _ => none

/-- A descriptor executed on a line: STATUS, OLD, and the new line when it is written (R283, R284). -/
def AtomicCmd.run (a : AtomicCmd) (line : Line) : Nat × BitVec 128 × Option Line :=
  let off := 8 * (a.target % 64)
  if a.size == 16 then
    let old : BitVec 128 := line.extractLsb' off 128
    if old == a.opa then
      let m : Line := (BitVec.allOnes 128).setWidth 512 <<< off
      (1, old, if a.opb == old then none else some ((line &&& ~~~m) ||| (a.opb.setWidth 512 <<< off)))
    else (2, old, none)
  else
    let old : BitVec 64 := line.extractLsb' off 64
    let m : Line := (BitVec.allOnes 64).setWidth 512 <<< off
    let opa := a.opa.setWidth 64
    let new := if a.op == 3 then (if old == opa then some (a.opb.setWidth 64) else none) else atomicNew a.op old opa
    match new with
    | some v =>
      (1, old.setWidth 128, if v == old then none else some ((line &&& ~~~m) ||| (BitVec.setWidth 512 v <<< off)))
    | none => (if a.op == 3 then 2 else 0x10, old.setWidth 128, none)

/-- A result record (R283). -/
def AtomicCmd.result (a : AtomicCmd) (status : Nat) (old : BitVec 128) : Line :=
  BitVec.ofNat 512 (status + 2 ^ 32 * a.tag + 2 ^ 64 * a.seq.toNat + 2 ^ 128 * old.toNat)

/-- The lines an atomic's service needs: its target, when the check passes, and its result slot. -/
def Req.atomicKeys (q : Req) (c : RoomCfg) : List Nat :=
  match q.todo with
  | [] => []
  | o :: _ =>
    let a := atomicOf o.data
    let r := lineKey q.room o.page (o.line + 32)
    if a.check c == 1 then [lineKey q.room (a.target / 4096) (a.target / 64 % 64), r] else [r]

/-- The operation on the target line (R284 steps 2 to 4): the executing wing's slice gains the line in M, and the home
writes it when it changed. -/
def State.atomicOn (s : State) (requester room page line w : Nat) (a : AtomicCmd) : State × Nat × BitVec 128 :=
  match s.lineNow room page line with
  | none => (s, 0x13, 0)
  | some l =>
    let (st, old, new) := a.run l
    match new with
    | some n =>
      let s := s.storeLine requester room page line n (BitVec.allOnes 64) false
      (if s.lineNow room page line == some n then s.own w room page line n else s, st, old)
    | none => (if s.realLine room page line then s.own w room page line l else s, st, old)

/-- Executes a descriptor and writes its result (R284 to R287, R360). -/
def State.runAtomic (s : State) (q : Req) (c : RoomCfg) (o : LineOp) : State :=
  let a := atomicOf o.data
  let w := s.home q.room o.page
  let slot := lineKey q.room o.page o.line
  let ok := a.check c
  let page := a.target / 4096
  let line := a.target / 64 % 64
  let (s, status, old) :=
    if s.readOnly then (s, 0, (0 : BitVec 128))
    else if ok != 1 then (s, ok, 0)
    else if (s.page q.room page).entry.isSealed then (s, 0x14, 0)
    else match look s.ti.reissued slot with
      | some (seq, res) =>
        if seq == a.seq.toNat && s.br.window.contains w then
          (s, (res.extractLsb' 0 8).toNat, res.extractLsb' 128 128)
        else
          s.atomicOn q.requester q.room page line w a
      | none => s.atomicOn q.requester q.room page line w a
  let res := a.result status old
  let s := { s with ti := { s.ti with reissued := put s.ti.reissued slot (a.seq.toNat, res) } }
  let s := s.storeLine q.requester q.room o.page (o.line + 32) res (BitVec.allOnes 64) false
  let good := status == 1 || status == 2
  let s := if s.readOnly then s
    else if good then s.satReg .HOME_ATOMIC_EXECUTED w 1 else s.satReg .HOME_ATOMIC_FAILED w 1
  (s.roomCount q.room 3 1).count (512 + 768 * w + 388) 1

/-! ### Serving -/

/-- An earlier pending request stands before this one at its line's tracker (R262). -/
def State.behind (s : State) (q : Req) (keys : List Nat) : Bool :=
  let earlier := s.hp.pend.takeWhile fun (x : Req) => x.id != q.id
  earlier.any fun x =>
    (x.owns || q.owns) && (match s.room x.room with
      | some r =>
        let mine := if x.kind == .atomic then x.atomicKeys r.cfg else x.todo.map fun o => lineKey x.room o.page o.line
        mine.any keys.contains
      | none => false)

/-- A wing's write-through log is full (R299). -/
def State.logFull (s : State) (w : Nat) : Bool := 16384 ≤ s.md.log.countP fun e => e.wing == w

/-- A write of a page finds no room: the budget for a clean page, or its wing's log in write-through mode (R176, R178,
R299). -/
def State.noRoom (s : State) (c : RoomCfg) (room page : Nat) : Bool :=
  let p := s.page room page
  let w := s.home room page
  !s.unstorable c p && (if s.writeThrough then s.logFull w else !p.dirty && !s.budgetAdmits w)

/-- A request waits paced on a wing. -/
def State.pacedOn (s : State) (w : Nat) (q : Req) : Bool :=
  q.wait == .paced && (match q.todo with | o :: _ => s.home q.room o.page == w | [] => false)

/-- A write that would make a clean page dirty must wait, for the budget or behind those already waiting on its wing
(R176, R177). -/
def State.mustPace (s : State) (q : Req) (c : RoomCfg) (page : Nat) : Bool :=
  let w := s.home q.room page
  let earlier := s.hp.pend.takeWhile fun (x : Req) => x.id != q.id
  let dirty := (s.page q.room page).dirty && !s.writeThrough
  !dirty && !s.unstorable c (s.page q.room page) &&
    (q.wait == .paced || earlier.any (s.pacedOn w) || s.noRoom c q.room page)

/-- Marks a request waiting, with what the wait counts (R176, R183). -/
def State.hold (s : State) (q : Req) (why : Wait) : State :=
  if q.wait == why then s
  else
    let s := s.setReq { q with wait := why, flags := if why == .paced then q.flags ||| 0x10 else q.flags }
    if why == .paced then
      ((s.satReg .HALL_DIRTY_PACE_PACED 0 1).count 386 1).roomCount q.room 12 1
    else s

/-- Sends the snoops a request still needs, as many as fit. -/
def State.sendSnoops (s : State) (q : Req) (key : Nat) (targets : List Nat) (kind : SnoopKind) : State :=
  let (s, asked) := targets.foldl
    (fun (acc : State × List Nat) r =>
      if acc.1.snoopFits r then (acc.1.snoop r key kind, acc.2 ++ [r]) else acc)
    (s, q.asked)
  s.setReq { q with asked := asked, wait := .snoop, flags := q.flags ||| 8 }

/-- An unanswered snoop of a line holds a request; a write from the snooped requester is ordered past it (R272). -/
def State.snoopHolds (s : State) (q : Req) (key : Nat) : Bool :=
  let open_ := s.hp.snoops.filter fun x => x.key == key
  if q.kind == .memWr || q.kind == .memWrPtl then
    !open_.isEmpty && !(open_.any fun x => x.requester == q.requester)
  else !open_.isEmpty

/-- A write from a requester that owes a BIRsp for the line (R272). -/
def State.bypasses (s : State) (q : Req) (key : Nat) : Bool :=
  (q.kind == .memWr || q.kind == .memWrPtl) &&
    s.hp.snoops.any fun x => x.key == key && x.requester == q.requester

/-- An open migration range notes a page it received a line of (R386, R388). -/
def State.noteReceived (s : State) (q : Req) (o : LineOp) : State :=
  if q.kind != .uioWr then s
  else
    let offset := o.page * 4096 + o.line * 64
    let one := fun (g : OpenRange) =>
      if g.room == q.room && g.source == q.requester && g.base ≤ offset && offset < g.base + g.length &&
        !g.pages.contains o.page then { g with pages := g.pages ++ [o.page] } else g
    { s with rg := { s.rg with ranges := s.rg.ranges.map one } }

/-- Stores the line at the head of a write, or discards it where a plain page cannot be reached (R362). -/
def State.serveWrite (s : State) (q : Req) (c : RoomCfg) (o : LineOp) : State :=
  if s.unreachable c q.room o.page then
    s.emitReq srcRefused q.requester 2 6 (o.page * 4096 + o.line * 64)
  else (s.storeLine q.requester q.room o.page o.line o.data o.mask o.poison).noteReceived q o

/-- Counts a served write (R532). -/
def State.countWrite (s : State) (q : Req) (o : LineOp) : State :=
  let s := s.roomCount q.room (if fullMask o.mask then 1 else 2) 1
  s.roomCount q.room 5 ((List.range 64).countP fun i => o.mask.getLsbD i)

/-- What is left of a request once the line at its head is done. -/
def Req.rest? (q : Req) : Option Req := if q.todo.isEmpty then none else some q

/-- The line at the head is done, with what was read; the request goes on while lines are left. -/
def State.doneWith (s : State) (q : Req) (data : Option (Line × Bool)) : State × Option Req :=
  let r := s.lineDone q data
  (r.1, r.2.rest?)

/-- A former room forwards the line to where its pages went (R433). -/
def State.serveForward (s : State) (q : Req) (o : LineOp) : State × Option Req :=
  let s := s.send (.forward q.room (o.page * 4096 + o.line * 64) q.kind.writes q.tag)
  let line := (Config.poisonData s.fresh, (Config.freeValue s.fresh).getLsbD 0)
  ({ s with fresh := s.fresh + 1 } : State).doneWith q (if q.kind.reads then some line else none)

/-- A descriptor executes once its target and its result slot stand alone (R262, R284, R286). -/
def State.serveAtomic (s : State) (q : Req) (c : RoomCfg) (o : LineOp) : State :=
  let keys := q.atomicKeys c
  if s.behind q keys then s
  else if keys.any fun k => s.hp.snoops.any fun x => x.key == k then s.hold q .snoop
  else match (keys.map fun k => (k, (s.mustSnoop q k).1)).find? fun x => !x.2.isEmpty with
    | some (k, targets) => s.sendSnoops { q with asked := [] } k targets .inv
    | none =>
      if (keys.map fun k => keyPage (k / 64)).any fun p => s.mustPace q c p then s.hold q .paced
      else
        let s := keys.foldl (fun s k => s.dropDir k) s
        ((s.runAtomic q c o).dropReq q).respond q .cmp o.page o.line

/-- A read of a descriptor slot returns zero, and no request takes a copy of one (R280). -/
def State.serveDescriptor (s : State) (q : Req) (o : LineOp) : State × Option Req :=
  let kind : RespKind := if q.kind == .uioRd then .uioData else if q.kind.reads then .memData else .cmp
  let q := { q with todo := q.todo.tail, got := q.got ++ [(0, false)], asked := [], wait := .ready }
  if q.todo.isEmpty then ((s.dropReq q).respond q kind o.page o.line, none) else (s.setReq q, some q)

/-- A read: from the Pantry, the owner, the stripe or zero at once, or once the Larder, the media or the host map buffer
has answered. -/
def State.serveRead (s : State) (q : Req) (o : LineOp) : State × Option Req :=
  let s := s.pantryChecked q.room o.page o.line q.pantry
  let q := { q with pantry := .clean }
  match s.readAt q.room o.page o.line with
  | .done d bad src =>
    ((s.countRead q.room o.page o.line src bad).touch q.room o.page).doneWith { q with source := src } (some (d, bad))
  | .larder => (s.hold q .larder, none)
  | .media => (s.hold q .media, none)
  | .hmb => (s.hold q .hmb, none)

/-- A write stores, or waits for the budget (R176). -/
def State.serveStore (s : State) (q : Req) (c : RoomCfg) (o : LineOp) : State × Option Req :=
  if s.mustPace q c o.page then (s.hold q .paced, none)
  else ((s.serveWrite q c o).countWrite q o).doneWith q none

/-- A request whose line no snoop holds and no earlier request stands before. -/
def State.serveOpen (s : State) (q : Req) (c : RoomCfg) (o : LineOp) (key : Nat) : State × Option Req :=
  let m := s.mustSnoop q key
  if !m.1.isEmpty && !s.bypasses q key then (s.sendSnoops q key m.1 m.2, none)
  else if q.kind.writes then s.serveStore q c o
  else if c.descriptorLine o.page o.line then s.serveDescriptor q o
  else
    let r := if q.takesEntry then s.makeEntry key else (s, false)
    if r.2 then (r.1.hold q .snoop, none)
    else if q.kind.invalidates then r.1.doneWith q none
    else r.1.serveRead q o

/-- The home of a page is not serving yet: a failover window, or tags not yet invalidated (R148, R358). -/
def State.homeWaits (s : State) (c : RoomCfg) (room page : Nat) : Bool :=
  (s.br.window.contains (s.home room page) || !s.flag .PAN_STATUS_INIT_DONE (s.actingHome (s.home room page))) &&
    !s.unreachable c room page

/-- Serves the line at the head of a pending request, or leaves it waiting with its reason. Answers the state and the
request when more of it may be served at once. -/
def State.serveLine (s : State) (q : Req) : State × Option Req :=
  match q.todo, s.room q.room with
  | o :: _, some r =>
    let key := lineKey q.room o.page o.line
    if r.forwarding then s.serveForward q o
    else if r.state == .frozen && !(q.kind == .uioWr && s.rangeOpen q.requester q.room (o.page * 4096 + o.line * 64)) then
      (s.hold q .frozen, none)
    else if s.homeWaits r.cfg q.room o.page then (s, none)
    else if q.kind == .atomic then (s.serveAtomic q r.cfg o, none)
    else if s.snoopHolds q key then (s.hold q .snoop, none)
    else if s.behind q [key] && !s.bypasses q key then (s, none)
    else s.serveOpen q r.cfg o key
  | _, _ => (s, none)

/-- Serves a pending request line by line until it waits or is done. -/
def State.serve : Nat → State → Req → State
  | 0, s, _ => s
  | n + 1, s, q =>
    match s.serveLine q with
    | (s, some q') => State.serve n s q'
    | (s, none) => s

/-- One pass over the trackers in arrival order. -/
def State.pass (s : State) : State :=
  (s.hp.pend.map Req.id).foldl
    (fun s i =>
      match s.hp.pend.find? fun (x : Req) => x.id == i with
      | some q => State.serve q.todo.length s q
      | none => s)
    s

/-! ### Admission (R96 to R98) -/

/-- A room has a waiting request and a free credit; nothing is admitted outside SERVING (R302, R306). -/
def State.admissible (s : State) (room : Nat) : Bool :=
  match s.room room with
  | some r => s.pw.dev == .serving && r.inUse < r.limit && s.hp.ingress.any fun (q : Req) => q.room == room
  | none => false

/-- The rooms in turn order, after the one admitted last. -/
def State.turnOrder (s : State) : List Nat :=
  let ks := s.rooms.map Prod.fst
  (ks.filter fun k => s.hp.turn < k) ++ ks.filter fun k => k ≤ s.hp.turn

/-- The room the arbiter admits from next: one with tokens first (R97). -/
def State.nextRoom (s : State) : Option Nat :=
  let ready := s.turnOrder.filter s.admissible
  match ready.find? fun k => match s.room k with | some r => r.tokens != 0 | none => false with
  | some k => some k
  | none => ready.head?

/-- Whether the request being admitted is sampled (R525, R529). -/
def State.takesSample (s : State) (room : Nat) : Bool :=
  let rate := min 24 (s.reg .PMC_SMP_CFG_RATE_LOG2 0)
  let marked := fun (q : Req) => q.mark
  s.me.sampleNext ||
    (s.flag .PMC_SMP_CFG_ENABLE 0 && s.me.admitted % 2 ^ rate == 0 &&
      (!s.flag .PMC_SMP_CFG_ROOM_ONLY 0 || s.reg .PMC_SMP_CFG_ROOM 0 == room) && s.hp.pend.countP marked < 64)

/-- Admits one request: a credit, a token, a place at its tracker. -/
def State.admitOne (s : State) : State :=
  if s.pw.dev != .serving then s
  else match s.nextRoom with
    | none => s
    | some room =>
      match takeFirst (fun (q : Req) => q.room == room) s.hp.ingress with
      | none => s
      | some (q, rest) =>
        let mark := s.takesSample room
        let w := match q.todo with | o :: _ => s.home room o.page | [] => 0
        let s := s.modRoom room fun r => { r with inUse := r.inUse + 1, tokens := r.tokens - 1 }
        let s := { s with
          hp := { s.hp with ingress := rest, pend := s.hp.pend ++ [{ q with mark := mark }], turn := room }
          me := { s.me with admitted := s.me.admitted + 1, sampleNext := false } }
        s.count (512 + 768 * w + 384) 1

/-- Admission and service until nothing more can move. -/
def State.settleN : Nat → State → State
  | 0, s => s
  | n + 1, s => State.settleN n (s.admitOne.pass)

/-- Follows pacing's level (source 228). -/
def State.paceLevel (s : State) : State := s.level srcPacing s.pacing

/-- Lets the port and the trackers go on after a change. -/
def State.settle (s : State) : State := (State.settleN (s.hp.ingress.length + 1) s).paceLevel

/-! ### Ingress (R71, R72) -/

/-- The stream whose check failed turns insecure; keys end that (R90). -/
def State.ideFailed (s : State) (uio : Bool) : State :=
  let io := s.reg .HALL_HP_LINK_IDE_IO 0
  let bit := if uio then (((List.range 4).find? fun i => io.testBit i).getD 0) + 1 else 0
  let s := { s with hp := { s.hp with insecure := s.hp.insecure ||| BitVec.ofNat 5 (2 ^ bit) } }
  let s := if bit = 0 then s.setFlag .HALL_HP_LINK_IDE_MEM 0 false
    else s.setReg .HALL_HP_LINK_IDE_IO 0 (io &&& (0xF ^^^ 2 ^ (bit - 1)))
  (s.count 13 1).emit srcIdeFailure

/-- The stream that carries a request is insecure, and refuses all traffic (R90; log entry 14). -/
def State.insecure (s : State) (uio : Bool) : Bool :=
  if uio then s.hp.insecure.toNat / 2 != 0 && s.reg .HALL_HP_LINK_IDE_IO 0 == 0 else s.hp.insecure.getLsbD 0

/-- The line accesses of a UIO request at a room offset. -/
def uioLines (offset length : Nat) (data : Option (List Byte)) : List LineOp :=
  let first := offset / 64
  let last := (offset + length - 1) / 64
  (List.range (last + 1 - first)).map fun i =>
    let n := first + i
    let lo := max offset (64 * n)
    let hi := min (offset + length) (64 * n + 64)
    let bytes : List Byte := match data with
      | some bs => List.replicate (lo - 64 * n) 0 ++ (bs.drop (lo - offset)).take (hi - lo)
      | none => []
    { page := n / 64, line := n % 64, data := lineOf bytes
      mask := BitVec.ofNat 64 ((2 ^ (hi - lo) - 1) * 2 ^ (lo - 64 * n)), poison := false }

/-- Counts a request's arrival (R523). -/
def ReqKind.counter : ReqKind → Nat
  | .memRd => 3 | .memRdData => 4 | .memWr | .atomic => 5 | .memWrPtl => 6 | .memInv | .memInvNt => 7 | .uioRd => 8
  | .uioWr => 9

/-- Puts a request that passed R71 steps 1 to 5 at the ingress. -/
def State.enqueue (s : State) (requester room tag : Nat) (kind : ReqKind) (mv : Meta) (ops : List LineOp)
    (skip length : Nat) (check : PantryCheck) : State :=
  let q : Req := { id := s.hp.nextId, requester := requester, room := room, kind := kind, mv := mv, tag := tag,
                   todo := ops, got := [], skip := skip, length := length, wait := .ready, asked := [], mark := false,
                   pantry := check, source := 2, flags := 0 }
  { s with hp := { s.hp with ingress := s.hp.ingress ++ [q], nextId := s.hp.nextId + 1 } }

/-- What a decoded and permitted request does at the port: a viral port discards writes (R79), a descriptor slot takes
only its owner's whole lines (R280), anything else waits for its credit. -/
def State.accept (s : State) (requester room tag : Nat) (kind : ReqKind) (mv : Meta) (ops : List LineOp)
    (skip length : Nat) (check : PantryCheck) : State :=
  match s.room room with
  | none => s
  | some r =>
    if s.flag .HALL_HP_LINK_VIRAL_IN 0 && kind.writes then s.discardQuietly requester tag kind
    else if kind.writes && ops.any fun o => r.cfg.descriptorLine o.page o.line then
      match ops with
      | [o] =>
        if (kind == .memWr || kind == .uioWr) && fullMask o.mask && !o.poison &&
            o.page == r.cfg.apertureBase + requester then
          (s.enqueue requester room tag .atomic .i ops 0 0 check).settle
        else (s.satReg .HOME_ATOMIC_REFUSED (s.home room o.page) 1).discardQuietly requester tag kind
      | o :: _ => (s.satReg .HOME_ATOMIC_REFUSED (s.home room o.page) 1).discardQuietly requester tag kind
      | [] => s
    else (s.enqueue requester room tag kind mv ops skip length check).settle

/-- The ingress steps of R71 for a request of `length` bytes. -/
def State.hostRequest (s : State) (h : HostReq) (kind : ReqKind) (mv : Meta) (length : Nat)
    (ops : Nat → List LineOp) : State :=
  if s.hp.link != .l0 || !s.pw.dev.hallOn then s
  else
    let requester := s.requesterOf h.requester.val
    let s := ((s.count kind.counter 1).count 128 1).count 0 1
    let active := if kind.uio then s.reg .HALL_HP_LINK_IDE_IO 0 != 0 else s.flag .HALL_HP_LINK_IDE_MEM 0
    if active && !h.ideOk then (s.count 130 1).ideFailed kind.uio
    else if s.insecure kind.uio then s.count 130 1
    else if s.pw.dev == .draining then s.count 130 1
    else if s.pw.dev == .halted || s.hp.failed.contains requester then
      s.refuse requester h.tag kind 3 h.hpa.toNat none
    else match s.decodeHpa requester h.hpa.toNat with
      | none => s.refuse requester h.tag kind 3 h.hpa.toNat none
      | some (region, dpa) =>
        match s.roomAt dpa with
        | none => s.refuse requester h.tag kind 4 dpa none
        | some room =>
          match s.room room with
          | none => s.refuse requester h.tag kind 4 dpa none
          | some r =>
            let offset := dpa - r.cfg.base
            let opened := kind == .uioWr && s.rangeOpen requester room offset
            if (s.mayAccess requester region dpa == some room && s.mayAccess requester region (dpa + length - 1) ==
                some room) || opened then
              let skip := if kind.uio then offset % 64 else 0
              s.accept requester room h.tag kind mv (ops offset) skip (if kind == .uioRd then length else 0) h.pantry
            else s.refuse requester h.tag kind 4 dpa (some room)

/-- The single line of a CXL.mem request. -/
def memLine (data : Line) (mask : BitVec 64) (poison : Bool) (offset : Nat) : List LineOp :=
  [{ page := offset / 4096, line := offset / 64 % 64, data := data, mask := mask, poison := poison }]

/-- MEM_RD (R271). -/
def execMemRd (q : HostReq) (mv : Meta) (s : State) : Result :=
  .next (s.hostRequest q .memRd mv 64 (memLine 0 0 false))

/-- MEM_RD_DATA (R271): a shared read. -/
def execMemRdData (q : HostReq) (s : State) : Result :=
  .next (s.hostRequest q .memRdData .s 64 (memLine 0 0 false))

/-- MEM_WR (R18, R271). -/
def execMemWr (q : HostReq) (mv : Meta) (data : Line) (poison : Bool) (s : State) : Result :=
  .next (s.hostRequest q .memWr mv 64 (memLine data (BitVec.allOnes 64) poison))

/-- MEM_WR_PTL: the enabled bytes are merged at the home tracker (R18, R271). -/
def execMemWrPtl (q : HostReq) (mv : Meta) (data : Line) (enables : BitVec 64) (poison : Bool) (s : State) : Result :=
  .next (s.hostRequest q .memWrPtl mv 64 (memLine data enables poison))

/-- MEM_INV (R271). -/
def execMemInv (q : HostReq) (mv : Meta) (s : State) : Result :=
  .next (s.hostRequest q .memInv mv 64 (memLine 0 0 false))

/-- MEM_INV_NT: handled as MemInv (R271). -/
def execMemInvNt (q : HostReq) (mv : Meta) (s : State) : Result :=
  .next (s.hostRequest q .memInvNt mv 64 (memLine 0 0 false))

/-- UIO_READ: a MemRd with meta value I, completed in address order (R87, R271). -/
def execUioRead (q : HostReq) (length : Nat) (s : State) : Result :=
  if uioOk length then .next (s.hostRequest q .uioRd .i length fun offset => uioLines offset length none)
  else .fault .malformedRequest

/-- UIO_WRITE: a MemWr with meta value I (R87, R271). -/
def execUioWrite (q : HostReq) (bytes : List Byte) (s : State) : Result :=
  if uioOk bytes.length then
    .next (s.hostRequest q .uioWr .i bytes.length fun offset => uioLines offset bytes.length (some bytes))
  else .fault .malformedRequest

/-- ATOMIC_DESCRIPTOR: a 64-byte descriptor written by the aperture page's own requester (R279 to R287). -/
def execAtomicDescriptor (requester : Requester) (room : RoomNo) (slot : Fin 32) (data : Line) (s : State) : Result :=
  let req := s.requesterOf requester.val
  match s.room room.val with
  | none => .next s
  | some r =>
    let page := r.cfg.apertureBase + req
    let dpa := r.cfg.base + page * 4096 + slot.val * 64
    if s.hp.link != .l0 || !s.pw.dev.hallOn || !r.cfg.aperture || s.pw.dev == .draining then .next s
    else
      let s := ((s.count 5 1).count 128 1).count 0 1
      if s.pw.dev == .halted || s.hp.failed.contains req ||
          s.mayAccess req r.cfg.region dpa != some room.val then
        .next (s.refuse req 0 .memWr 4 dpa (some room.val))
      else .next (s.accept req room.val 0 .memWr .i
        [{ page := page, line := slot.val, data := data, mask := BitVec.allOnes 64, poison := false }] 0 0 .clean)

end Sys2Proof.Machine
end

