-- ==== Sys2Proof/Machine/Stores.lean ====
section
/-! DEFINITION. The small stores: the Cupboard's pages, spread counters and records, the Attic buffer and area, the
checkpoint of maps and counter trees, and the Cupboard anchor. -/

namespace Sys2Proof.Machine

/-! ### Cupboard pages (R508 to R515) -/

/-- A page's bytes 0 to 55 with SEQ and CHECK added (R512). -/
def framed (data : BitVec 512) (seq : Nat) : BitVec 512 :=
  let body := bytesOf data 0 56 ++ toBytes 4 seq
  BitVec.ofNat 512 (ofBytes (body ++ toBytes 4 (crc32 body).toNat))

/-- A page is valid (R512). -/
def pageValid (v : BitVec 512) : Bool :=
  let body := bytesOf v 0 60
  (crc32 body).toNat == (v.extractLsb' 480 32).toNat && v.setWidth 480 != BitVec.allOnes 480

/-- A counter page (R513). -/
def counterPage (k value : Nat) : BitVec 512 :=
  let v : Word := BitVec.ofNat 64 value
  framed (BitVec.ofNat 512 (v.toNat + 2 ^ 64 * (~~~v).toNat + 2 ^ 128 * k)) 0

/-- The VALUE of a valid page of a counter. -/
def counterOf (k : Nat) (v : BitVec 512) : Option Nat :=
  let value : Word := v.extractLsb' 0 64
  if pageValid v && v.extractLsb' 64 64 == ~~~value && (v.extractLsb' 128 16).toNat == k then some value.toNat else none

/-- The content of a Cupboard page. -/
def State.cpbPage (s : State) (page : Nat) : BitVec 512 := lookD s.cb.pages page (BitVec.allOnes 512)

/-- Puts a page's content; a page of all ones is not listed. -/
def State.setCpbPage (s : State) (page : Nat) (v : BitVec 512) : State :=
  { s with cb := { s.cb with pages := if v = BitVec.allOnes 512 then del s.cb.pages page else put s.cb.pages page v } }

/-- The valid, usable pages of a counter with their values. -/
def State.counterPages (s : State) (k : Nat) : List (Nat × Nat) :=
  (s.cb.pages.filter fun x => x.1 / 128 == k && !s.cb.worn.contains x.1).filterMap fun x =>
    (counterOf k x.2).map fun v => (x.1, v)

/-- The page that holds a counter's value, and the value (R513). -/
def State.counterAt (s : State) (k : Nat) : Option (Nat × Nat) :=
  leastBy (fun x => 2 ^ 64 - x.2) (s.counterPages k)

/-- The value of a spread counter, 0 when it has no valid page. -/
def State.counterValue (s : State) (k : Nat) : Nat := match s.counterAt k with | some x => x.2 | none => 0

/-- The next usable page of a counter after a page, never that page itself (R514). -/
def State.nextCounterPage (s : State) (k : Nat) (holder : Option Nat) : Option Nat :=
  let start := match holder with | some p => p % 128 + 1 | none => 0
  ((List.range 128).map fun i => 128 * k + (start + i) % 128).find? fun p =>
    !s.cb.worn.contains p && holder != some p

/-- A counter saturates: its bit, and source 146 once (R516). -/
def State.saturate (s : State) (k : Nat) : State :=
  let v := s.reg .CPB_STATUS_SATURATED 0
  if v.testBit k then s else (s.setReg .CPB_STATUS_SATURATED 0 (v ||| 2 ^ k)).emit srcSpreadFull

/-- Queues a page write. -/
def State.queuePage (s : State) (w : PageWrite) : State := { s with cb := { s.cb with queue := s.cb.queue ++ [w] } }

/-- The holder and the value of a counter once the queued advances are done. -/
def State.counterAhead (s : State) (k : Nat) : Option (Nat × Nat) :=
  match (s.cb.queue.filter fun w => w.counter == some k).getLast? with
  | some w => (counterOf k w.value).map fun v => (w.page, v)
  | none => s.counterAt k

/-- Advances a spread counter to a higher value (R514, R516). -/
def State.advanceCounter (s : State) (k value : Nat) : State :=
  let at_ := s.counterAhead k
  let now := match at_ with | some x => x.2 | none => 0
  if (s.reg .CPB_STATUS_SATURATED 0).testBit k || value ≤ now then s
  else match s.nextCounterPage k (at_.map Prod.fst) with
    | none => s.saturate k
    | some p =>
      let s := s.queuePage { page := p, value := counterPage k value, counter := some k, record := none }
      if value + 1 = 2 ^ 64 then s.saturate k else s

/-- Writes one copy of a record: its pages in order, the record whole with the last (R517). -/
def State.queueCopy (s : State) (pages : List Nat) (seq : Nat) (r : CpbRecord) : State :=
  (pages.zipIdx).foldl
    (fun s (p, i) =>
      let data := Config.recordPage p s.fresh
      let s := { s with fresh := s.fresh + 1 }
      s.queuePage { page := p, value := framed data seq, counter := none,
                    record := if i + 1 == pages.length then some r else none })
    s

/-- The SEQ of a record page as it stands. -/
def State.pageSeq (s : State) (page : Nat) : Nat :=
  let v := s.cpbPage page
  if pageValid v then (v.extractLsb' 448 32).toNat else 0

/-- Writes a two-copy record, copy 0 first (R307). -/
def State.queueRecord (s : State) (copy0 copy1 : List Nat) (r : CpbRecord) : State :=
  let seq := (max (s.pageSeq (copy0.headD 0)) (s.pageSeq (copy1.headD 0)) + 1) % 2 ^ 32
  (s.queueCopy copy0 seq r).queueCopy copy1 seq r

/-- A record whole in one of its copies is what the Cupboard holds. -/
def State.applyRecord (s : State) : CpbRecord → State
  | .anchor a beat seq => { s with cb := { s.cb with anchor := some (a, beat, seq) } }
  | .sources rows =>
    { s with cb := { s.cb with sources := rows.foldl (fun m x => put m x.1 x.2) s.cb.sources } }
  | .pool r => { s with cb := { s.cb with pool := some r } }
  | .floors r => { s with cb := { s.cb with fwFloors := r } }
  | .boot r => { s with cb := { s.cb with boot := some r } }
  | .reservoir r => { s with cb := { s.cb with reservoir := some r } }
  | .escrow k => { s with cb := { s.cb with escrow := some k } }
  | .corrections l => { s with cb := { s.cb with corrections := l } }
  | .rails m => { s with cb := { s.cb with rails := m } }
  | .worn => s
  | .training c => { s with cb := { s.cb with training := s.cb.training ||| BitVec.ofNat 8 (2 ^ c) } }

/-- The worn map of a counter is written again (R515). -/
def State.queueWorn (s : State) (k : Nat) : State := s.queueRecord [2810 + k] [2827 + k] .worn

/-- Word `i` of a Cupboard page is returned to a CPB_DATA read (R521). -/
def State.answerCpb (s : State) (x : Nat × Nat × Nat × Half) : State :=
  let (page, i, requester, half) := x
  s.deliver requester (0x40040 + 8 * i) half (wordAt (s.cpbPage page) i)

/-- The running page write ends, its read-back matching or not (R509, R510, R515, R520). -/
def State.pageEnd (s : State) (ok : Bool) : State :=
  match s.cb.queue with
  | [] => s
  | w :: rest =>
    let s := ({ s with cb := { s.cb with queue := rest } }).count 194 1
    if ok then
      let s := s.setCpbPage w.page w.value
      let s := { s with cb := { s.cb with failed := s.cb.failed.filter fun p => p != w.page } }
      match w.record with
      | some r => s.applyRecord r
      | none => s
    else
      let s := s.setCpbPage w.page (Config.recordPage w.page s.fresh)
      let s := { s with fresh := s.fresh + 1 }
      let s := (s.satReg .CPB_WEAR_WRITE_FAILS 0 1).emit srcCupboardFail
      match w.counter with
      | none =>
        let s := { s with cb := { s.cb with failed := w.page :: s.cb.failed.filter fun p => p != w.page } }
        let pair := if w.page < 2827 then w.page + 17 else w.page - 17
        if 2810 ≤ w.page && w.page < 2844 && s.cb.failed.contains pair then
          (s.setFlag .CPB_STATUS_MAP_LOST 0 true : State)
        else s
      | some k =>
        let s := { s with cb := { s.cb with worn := s.cb.worn ++ [w.page] } }
        let s := (s.emit srcWornSkipped).queueWorn k
        match s.nextCounterPage k (some w.page) with
        | none => s.saturate k
        | some p => { s with cb := { s.cb with queue := { w with page := p } :: s.cb.queue } }

/-- A page write ends, and the CPB_DATA reads that waited for it are served ahead of every queued write (R509). -/
def State.pageDone (s : State) (ok : Bool) : State :=
  let s := s.pageEnd ok
  let due := s.cb.waiting
  due.foldl State.answerCpb { s with cb := { s.cb with waiting := [] } }

/-- Every queued page write ends well: what drain step 6 waits for. -/
def State.finishPages : Nat → State → State
  | 0, s => s
  | n + 1, s => if s.cb.queue.isEmpty then s else State.finishPages n (s.pageDone true)

/-- A page whose write lost power (R511): erase phase or program phase, group by group, as a free value decides. -/
def tornPage (old new f : BitVec 512) (phase : Nat) : BitVec 512 :=
  if phase % 17 = 0 then old ||| f
  else
    let done := 32 * (phase % 17 - 1)
    let low := BitVec.ofNat 512 (2 ^ done - 1)
    let mid := BitVec.ofNat 512 ((2 ^ 32 - 1) * 2 ^ done)
    (new &&& low) ||| ((new ||| f) &&& mid) ||| ~~~(low ||| mid)

/-- Power leaves the Cupboard: the running write is torn and the queue is lost (R511). -/
def State.cupboardOff (s : State) : State :=
  match s.cb.queue with
  | [] => s
  | w :: _ =>
    let f := Config.recordPage w.page s.fresh
    let phase := (Config.freeValue (s.fresh + 1)).toNat
    let s := s.setCpbPage w.page (tornPage (s.cpbPage w.page) w.value f phase)
    { s with fresh := s.fresh + 2, cb := { s.cb with queue := [], waiting := [] } }

/-! ### The Attic (R496 to R501) -/

/-- Bytes a record takes (R498). -/
def AtticRec.bytes (r : AtticRec) : Nat := (16 + 8 * r.body.length + 15) / 16 * 16

/-- Bytes in the retained buffer. -/
def State.atticBytes (s : State) : Nat := (s.at_.buffer.map AtticRec.bytes).sum

/-- A record for the retained buffer, or dropped when it does not fit (R497). -/
def State.attic (s : State) (r : AtticRec) : State :=
  if s.atticBytes + r.bytes ≤ 262144 then
    ({ s with at_ := { s.at_ with buffer := s.at_.buffer ++ [r] } }).count 195 1
  else (s.satReg .ATC_PART_DROPPED r.part 1).emit srcAtticDropped

/-- A record the Hall writes on its own account. -/
def State.atticNote (s : State) (part severity type : Nat) (body : List Word) : State :=
  s.attic { part := part, severity := severity, forced := false, type := type, beat := s.beat, source := 0xFFFF,
            body := body }

/-- A partition, empty when nothing was written to it. -/
def State.atticPart (s : State) (p : Nat) : AtticPart :=
  lookD s.at_.parts p { counter := 0, base := 0, since := 0, next := 0, slots := [] }

/-- Slots of a partition (R43). -/
def State.partSlots (s : State) (p : Nat) : Nat := match s.plan with | some x => x.attic.getD p 0 | none => 0

/-- A slot that does not read as empty (R504; log entry 15). -/
def AtticPart.held (a : AtticPart) (i : Nat) : Option AtticSlot :=
  (look a.slots i).bind fun x => if a.base < x.seq then some x else none

/-- Slots of a partition that lie in unreadable stripes (R502). -/
def State.deadSlots (s : State) (p : Nat) : List Nat :=
  if s.flag .ATC_STATUS_AREA_LOST 0 then
    (List.range (s.partSlots p)).filter fun i => Config.atticLost (s.wings.filter fun w => s.svc w == 5) p i
  else []

/-- The slot a record of a general partition goes to; `dead` slots are not used (R500, R502). -/
def AtticPart.general (a : AtticPart) (n : Nat) (dead : List Nat) (severity : Nat) : Option Nat :=
  let live := a.slots.filter fun x => a.base < x.2.seq && !dead.contains x.1
  let gap := firstGap 0 (sortBy (fun (i : Nat) => i) (live.map Prod.fst ++ dead))
  if gap < n then some gap
  else
    let low := live.filter fun x => x.2.record.severity ≤ severity
    match leastBy (fun x => x.2.record.severity) low with
    | none => none
    | some x => (leastBy (fun y => y.2.seq) (low.filter fun y => y.2.record.severity == x.2.record.severity)).map Prod.fst

/-- The slot a record of a privileged partition goes to, and whether it is kept: the first 4,096 since the last clear in
slot order, the later ones round the rest (R501, R502). -/
def AtticPart.kept (a : AtticPart) (n : Nat) (dead : List Nat) : Option (Nat × Bool) :=
  let usable := (List.range (min 4096 n)).filter fun i => a.since ≤ i && !dead.contains i
  match usable.head? with
  | some i => some (i, true)
  | none =>
    let m := n - 4096
    ((List.range m).map fun i => 4096 + (a.next + i) % m).find? (fun i => !dead.contains i) |>.map fun i => (i, false)

/-- Programs one record into its partition (R499 to R501). -/
def State.flushOne (s : State) (r : AtticRec) : State :=
  let a := s.atticPart r.part
  let n := s.partSlots r.part
  let dead := s.deadSlots r.part
  let slot := if r.part = 9 || r.part = 10 then a.kept n dead else (a.general n dead r.severity).map fun i => (i, false)
  match slot with
  | none => s.satReg .ATC_PART_DROPPED r.part 1
  | some (i, keep) =>
    let seq := a.counter + 2
    let a := { a with
      counter := seq
      since := if keep then i + 1 else a.since
      next := if keep || (r.part != 9 && r.part != 10) then a.next else i - 4096 + 1
      slots := put a.slots i { seq := seq, kept := keep, record := r } }
    { s with at_ := { s.at_ with parts := put s.at_.parts r.part a } }

/-- An Attic flush: every buffered record is programmed (R497). -/
def State.flushAttic (s : State) : State :=
  let s := s.at_.buffer.foldl State.flushOne s
  let s := { s with at_ := { s.at_ with buffer := [] } }
  (s.satReg .ATC_STATUS_FLUSHES 0 1).count 196 1

/-! ### Checkpoints and the anchor (R331, R332) -/

/-- The journal as the checkpoint leaves it: the last record of each page whose last record is dirty (R174). -/
def lastDirty (j : List (Nat × Nat × Nat × Bool)) : List (Nat × Nat × Nat × Bool) :=
  let latest : SMap (Nat × Nat × Nat × Bool) := j.foldl (fun m x => put m (pageKey x.2.1 x.2.2.1) x) []
  (latest.filter fun x => x.2.2.2.2).map Prod.snd

/-- A of the next root checkpoint (R331, R516). -/
def State.nextAnchor (s : State) : Nat :=
  s.counterValue 0 + if (s.reg .CPB_STATUS_SATURATED 0).testBit 0 then 0 else 1

/-- The newest root checkpoint (R307). -/
def State.rootCkpt (s : State) : Option RootCkpt :=
  match s.md.rootCkpt with
  | (some a, some b) => if a.seq < b.seq then some b else some a
  | (some a, none) => some a
  | (none, b) => b

/-- The slot table is programmed on the lowest-numbered enabled wing in service and on the next one (R312). -/
def State.putSlotTable (s : State) (t : SMap KeySlot) : State :=
  { s with md := { s.md with slotTable := t, slotHome := (s.wings.filter fun w => s.serves w).take 2 } }

/-- Map, counter blocks, trees and descriptors are programmed, then the root checkpoint in both copies (R331). -/
def State.checkpointNow (s : State) : State :=
  let map : SMap MapEntry := (s.ti.pages.filter fun x => x.2.entry != Page.blank.entry).map fun x => (x.1, x.2.entry)
  let journal := lastDirty s.md.journal
  let a := s.nextAnchor
  let root : RootCkpt := { anchor := a, beat := s.beat, seq := (match s.rootCkpt with | some r => r.seq | none => 0) + 1,
                           versions := s.lk.versions }
  let hist := [Fld.CEL_HIST_COUNT, .HALL_JUNCTION_HIST_COUNT]
  let s := { s with
    ti := { s.ti with pages := mapPages s.ti.pages fun _ p => { p with ctrMedia := p.ctr } }
    md := { s.md with
      frames := mapAll s.md.frames fun _ f => { f with pcountCk := f.pcount, ageCk := f.age }
      hists := s.regs.filter fun x => hist.contains (keyFld x.1)
      ckptMap := map
      mapJournal := []
      journal := journal
      journalMark := journal.length
      rootCkpt := (some root, some root) } }
  let s := if s.lk.lock.isSome then s else s.putSlotTable s.lk.slots
  (s.setReg .LKS_ANCHOR_A 0 a).setReg .LKS_CKPT_LAST_BEAT 0 s.beat

/-- The fields of nine sources that one page of the source record holds (R519). -/
def State.sourceRows (s : State) (n : Nat) : List (Nat × Nat × Nat × Nat × Nat) :=
  ((List.range 9).filter fun i => 9 * n + i < 2048).map fun i =>
    let k := 9 * n + i
    (k, s.reg .FLT_SRC_COUNT k, s.reg .FLT_SRC_BUCKET_EN k, s.reg .FLT_SRC_DEPTH k, s.reg .FLT_SRC_LEAK k)

/-- The Cupboard anchor: the spread counter is advanced to the last checkpoint's A, then the anchor record and one page
of the source record are written (R332, R517, R519). -/
def State.anchorNow (s : State) : State :=
  match s.rootCkpt with
  | none => s
  | some r =>
    let pair := (s.cb.anchorPair + 1) % 128
    let n := r.anchor / 2 % 228
    let s := s.advanceCounter 0 r.anchor
    let s := { s with cb := { s.cb with anchorPair := pair } }
    let s := s.queueRecord [2048 + 2 * pair] [2049 + 2 * pair] (.anchor r.anchor s.beat r.seq)
    s.queueCopy [2304 + 228 * (r.anchor % 2) + n] (r.anchor % 2 ^ 32) (.sources (s.sourceRows n))

end Sys2Proof.Machine
end

