-- ==== Sys2Proof/Machine/Units.lean ====
section
/-! DEFINITION. The loss of a package, a cellar, a Larder channel or a wing: pages LOST or reconstructed, the acting
home, the rebuild, and what waits on the unit (R197, R351 to R362). -/

namespace Sys2Proof.Machine

/-- A page of a plain room loses its data: LOST, with nothing of it left in the tiers (R361, R362). -/
def State.losePage (s : State) (room page : Nat) : State :=
  let p := s.page room page
  if p.entry.lost then s
  else
    let k := pageKey room page
    let e := { p.entry with lost := true }
    let s := (s.dropPageSlices room page).setPage room page { p with entry := e, slot := none, tier := 0, mirror := [],
                                                                      mirrorOn := none }
    let s := { s with
      md := { s.md with queue := s.md.queue.filter fun (o : MediaOp) => o.kind.page? != some k }
      ti := { s.ti with
        promoting := s.ti.promoting.filter fun x => x != k
        demoting := s.ti.demoting.filter fun x => x != k } }
    s.journalEntry room page e

/-- A wing's register blocks can be reached: its domain PD6 + 5w is on and its Hall module up (R544). -/
def State.wingReached (s : State) (w : Nat) : Bool := (s.reg .FBX_PD_ON 0).testBit (6 + 5 * w) && s.flag .COR_LINK_UP w

/-- A room is braced. -/
def State.isBraced (s : State) (room : Nat) : Bool := match s.room room with | some r => r.cfg.braced | none => false

/-- Queues the rebuild of a braced page's member onto a frame that passes the stripe's rules (R361, R367). -/
def State.queueRebuild (s : State) (room page : Nat) (wings skip : List Nat) : State :=
  let (st, m) := s.stripeOf page
  let x := s.stripe room st
  let k := pageKey room page
  if s.opQueued (.rebuild k) 0 then s
  else match s.allocate wings (skip ++ (if s.part == .y2 then x.frames.map FrameAddr.cellar else [])) with
    | some a =>
      let s := s.useFrame a room (s.localIndex page) (s.home room page) 0 2
      s.queueOp (mediaOp (.rebuild k) 6 a 0)
    | none => s.setStripe room st { x with vacant := x.vacant ||| BitVec.ofNat 8 (2 ^ m) }

/-- The pages whose frame passes a test. -/
def State.pagesOn (s : State) (hit : FrameAddr → Bool) : List (Nat × Nat) :=
  (s.ti.pages.filter fun x => match x.2.entry.frame with | some a => hit a && !x.2.entry.lost | none => false).map
    fun x => (keyRoom x.1, keyPage x.1)

/-- The stripes with a member on frames that pass a test, counted for HALL_SVC STRIPES (R374). -/
def State.stripesOn (s : State) (hit : FrameAddr → Bool) : Nat :=
  s.br.stripes.countP fun x => x.2.frames.any hit

/-- The data of frames is lost: plain pages go LOST, and what waits or runs on the frames is dropped; write-backs of
braced pages leave their members VACANT (R354, R361). -/
def State.loseFrames (s : State) (hit : FrameAddr → Bool) : State :=
  let pages := s.pagesOn hit
  let s := { s with md := { s.md with
    queue := s.md.queue.filter fun (o : MediaOp) => !hit o.at_
    inflight := s.md.inflight.filter fun (o : MediaOp) => !hit o.at_ } }
  pages.foldl
    (fun s (room, page) =>
      if s.isBraced room then
        match s.room room with
        | some r => if (s.page room page).dirty then s.writeBackAway r.cfg room page else s
        | none => s
      else s.losePage room page)
    s

/-- Rebuild of the braced pages on lost frames, onto other cellars of the same wing, or on the NPX-Y2 any cellar that
holds no member (R361). -/
def State.rebuildFrames (s : State) (wing cellar : Nat) (pages : List (Nat × Nat)) : State :=
  pages.foldl
    (fun s (room, page) =>
      if s.isBraced room then s.queueRebuild room page (if s.part == .y2 then s.wings else [wing]) [cellar] else s)
    s

/-- Sets a unit's service state and cause (R363, R374). -/
def State.setSvc (s : State) (u state cause : Nat) : State :=
  (s.setReg .HALL_SVC_STATE u state).setReg .HALL_SVC_CAUSE u cause

/-- A cellar is lost (R357, R361). -/
def State.loseCellar (s : State) (c : Nat) : State :=
  if !s.cellars.contains c || s.svc (16 + c) == 5 then s
  else
    let hit := fun (a : FrameAddr) => a.cellar == c
    let pages := s.pagesOn hit
    let n := s.stripesOn hit
    let s := (s.setSvc (16 + c) 5 2).setReg .HALL_SVC_STRIPES (16 + c) n
    let s := s.loseFrames hit
    (s.rebuildFrames (c / 4) c pages).settle

/-- A package is marked failed (R197): its frames are lost, and with the last package its cellar. -/
def State.losePackage (s : State) (c p : Nat) : State :=
  if (s.reg .CEL_STATUS_FAILED c).testBit p then s
  else
    let s := s.setReg .CEL_STATUS_FAILED c (s.reg .CEL_STATUS_FAILED c ||| 2 ^ p)
    let s := s.emit (srcCellar c 6)
    if (s.packages c).isEmpty then (s.setFlag .CEL_STATUS_BUS_FAULT c true).loseCellar c
    else
      let hit := fun (a : FrameAddr) => a.cellar == c && a.pkg == p
      let pages := s.pagesOn hit
      let s := s.loseFrames hit
      (s.rebuildFrames (c / 4) c pages).settle

/-- The pages homed on a wing. -/
def State.homedOn (s : State) (w : Nat) : List (Nat × Page) :=
  s.ti.pages.filter fun x => s.home (keyRoom x.1) (keyPage x.1) == w

/-- A whole page reads as poison from now on, for a cause of R143 when `cause` holds. -/
def State.poisonPage (s : State) (room page : Nat) (cause : Bool) : State :=
  let p := s.page room page
  let e := { p.entry with poison := true }
  let s := (s.dropPageSlices room page).setPage room page
    { p with entry := e, slot := none, tier := 0, mirror := [], mirrorOn := none
             causePoison := p.causePoison || cause, rewritten := none }
  let k := pageKey room page
  let s := { s with
    md := { s.md with queue := s.md.queue.filter fun (o : MediaOp) => o.kind != (OpKind.writeBack k) }
    ti := { s.ti with
      promoting := s.ti.promoting.filter fun x => x != k
      demoting := s.ti.demoting.filter fun x => x != k } }
  s.journalEntry room page e

/-- What is left of a page when its home's Larder is gone: a dirty braced page from its mirror, a dirty plain page LOST,
a clean page from its frame (R361). -/
def State.larderGone (s : State) (x : Nat × Page) : State :=
  let room := keyRoom x.1
  let page := keyPage x.1
  let p := x.2
  if !p.dirty then s.setPage room page { p with slot := none, tier := 0 }
  else if s.isBraced room then
    match p.mirrorOn with
    | some v =>
      if s.wingUp v then
        let bits : BitVec 64 := p.mirror.foldl (fun b y => b ||| BitVec.ofNat 64 (2 ^ y.1)) 0
        let since := match p.slot with | some sl => sl.since | none => 0
        let sl : Slot := { Slot.fresh since with valid := bits, dirty := bits, lines := p.mirror }
        s.setPage room page { p with slot := some sl, mirrorOn := none }
      else (s.poisonPage room page true).emit (srcBrace v 1)
    | none => s.poisonPage room page true
  else s.losePage room page

/-- The directory of a wing goes with it; what the acting home takes over starts without entries (R359). -/
def State.dropDirOf (s : State) (w : Nat) : State :=
  { s with ti := { s.ti with dir := s.ti.dir.filter fun x => s.home (keyRoom (x.1 / 64)) (keyPage (x.1 / 64)) != w } }

/-- A wing's slice goes: its own lines, and its copies of lines homed elsewhere, which their homes strike out (R278). -/
def State.dropSliceOf (s : State) (w : Nat) : State :=
  { s with ti := { s.ti with
    pantry := s.ti.pantry.filter fun x => x.1 / 2 ^ 54 != w
    dir := (s.ti.dir.map fun x => (x.1, { x.2 with
      slices := x.2.slices &&& ~~~BitVec.ofNat 8 (2 ^ w)
      owner := if x.2.owner == some w then none else x.2.owner })).filter fun x =>
        x.2.hstate != .i || x.2.slices != 0 || x.2.owner != none } }

/-- The failover window opens on a wing whose partner, or stand-in, will act as home (R358). -/
def State.openWindow (s : State) (w : Nat) : State :=
  match s.standIn w with
  | none => s
  | some v =>
    if s.br.window.contains w || (look s.br.acting w).isSome then s
    else ({ s with br := { s.br with window := s.br.window ++ [w] } }).emit (srcBrace v 0)

/-- The requests of plain rooms that a lost wing held are answered: reads with poison, writes discarded (R360). -/
def State.answerLost (s : State) : State := s.settle

/-- A Larder channel is lost (R357, R358, R361). -/
def State.loseLarder (s : State) (w : Nat) : State :=
  if !s.wings.contains w || s.svc (8 + w) == 5 then s
  else
    let s := (s.setSvc (8 + w) 5 2).emit (srcLarder w 5)
    let s := ((s.setFlag .LAR_STATUS_TRAINED w false).setFlag .LAR_STATUS_OUT_OF_SERVICE w true)
    let s := (s.homedOn w).foldl State.larderGone s
    let s := (s.dropSliceOf w).dropDirOf w
    (s.openWindow w).answerLost

/-- A wing's Stair commands complete with LOST (R406). -/
def State.loseChannels (s : State) (w : Nat) : State :=
  { s with rg := { s.rg with
    chans := s.rg.chans.map fun (x : Nat × Channel) =>
      if x.1 / 32 == w && !x.2.done then (x.1, { x.2 with done := true, status := 0x1D }) else x
    waiters := s.rg.waiters.filter fun c => c / 32 != w } }

/-- The wings that are lost. -/
def State.lostWings (s : State) : List Nat := s.wings.filter fun w => s.svc w == 5

/-- A wing is lost (R357, R358, R361). With a second wing gone, stripes of the Attic area cannot be read (R502). -/
def State.loseWing (s : State) (w : Nat) : State :=
  if !s.wings.contains w || s.svc w == 5 then s
  else
    let hit := fun (a : FrameAddr) => a.wing == w
    let n := s.stripesOn hit
    let s := (s.setSvc w 5 2).setReg .HALL_SVC_STRIPES w n
    let s := (s.homedOn w).foldl State.larderGone s
    let s := s.loseFrames hit
    let s := ((s.dropSliceOf w).dropDirOf w).loseChannels w
    let s := s.openWindow w
    let s := if 2 ≤ s.lostWings.length && !s.flag .ATC_STATUS_AREA_LOST 0 then
        (s.setFlag .ATC_STATUS_AREA_LOST 0 true).emit srcAtticLost
      else s
    s.answerLost

end Sys2Proof.Machine
end

