-- ==== Sys2Proof/Machine/Drain.lean ====
section
/-! DEFINITION. Stopping: the power-down sequence, what power takes with it, the drain and its marker, halts and
LOCKDOWN (R301 to R305, R338, R439 to R455). -/

namespace Sys2Proof.Machine

/-! ### Levels that follow the state -/

/-- RES_NTC is inside the charging window (R474). -/
def State.inChargeWindow (s : State) : Bool :=
  let v := signed16 (s.reg .PRC_RES_STATUS_TEMP 0)
  signed16 (s.reg .CHM_WIN1_CHG_LO 0) ≤ v && v ≤ signed16 (s.reg .CHM_WIN1_CHG_HI 0)

/-- The charger is on: every state except DRAINING and OFF, RES_NTC in its window, no test holding it low (R292). -/
def State.chargerWanted (s : State) : Bool :=
  s.pw.dev != .draining && s.pw.dev != .off && s.pw.dev != .noVstby && s.pw.straps.isSome &&
    s.res.st != .held && !(s.res.st == .failed && s.res.ntcOnly) && s.inChargeWindow &&
    (s.res.st != .testing || s.res.rising) && s.reg .HALL_DRAIN_STATUS_STEP 0 == 0

/-- RES_CHG_EN follows the state. -/
def State.charger (s : State) : State := s.setFlag .PRC_RES_STATUS_CHG_EN 0 s.chargerWanted

/-- The codes of R291. -/
def ResState.code : ResState → Nat
  | .absent => 0 | .charging => 1 | .ready => 2 | .testing => 3 | .held => 4 | .failed => 5

/-! ### The sequencer (R447 to R450) -/

/-- The fixed Hall sequence: step k raises REG_EN(k − 1), waits on MON(k − 1), delay 100 µs (one unit of 100 µs),
timeout 10 ms. -/
def hallStep (k : Nat) : StepCfg where
  enable := BitVec.ofNat 48 (2 ^ (k - 1))
  wait := BitVec.ofNat 32 (2 ^ (k - 1))
  delay := 1
  timeout := 100

/-- The record of the step in progress or last run. -/
def State.stepCfg (s : State) (hall : Bool) (k : Nat) : StepCfg :=
  if hall then hallStep k
  else match s.plan with
    | some p => p.steps.getD (k - 1) { enable := 0, wait := 0, delay := 0, timeout := 0 }
    | none => { enable := 0, wait := 0, delay := 0, timeout := 0 }

/-- The monitor whose rail an enable feeds stops being checked when the enable drops: those a step waits on (R448). -/
def State.stopMonitors (s : State) (wait : BitVec 32) : State :=
  (bitsOf wait).foldl (fun s m => s.setReg .FBX_MON_STATE m 0) s

/-- Drops a step's enables; a SLUMBER entry keeps the DRAM rails and DDR5 RESET_n (R441). -/
def State.dropStep (s : State) (hall : Bool) (k : Nat) : State :=
  let c := s.stepCfg hall k
  let keep := if s.pw.shutdownTo == .slumber then Config.dramEnables else 0
  let s := { s with pw := { s.pw with enables := s.pw.enables &&& (~~~c.enable ||| keep) } }
  s.stopMonitors c.wait

/-- Starts reversing from the highest step reached: a power-down (2) or a reversal after a fault (3). -/
def State.reverse (s : State) (phase : Nat) : State :=
  let s := { s with pw := { s.pw with delaying := true, minOffDone := false } }
  (s.setReg .FBX_SEQ_PHASE 0 phase).dropStep (s.flag .FBX_SEQ_HALL 0) (s.reg .FBX_SEQ_STEP 0)

/-- A step has been reached: there is something to reverse. -/
def State.stepReached (s : State) : Bool := s.reg .FBX_SEQ_STEP 0 != 0

/-! ### What power takes with it -/

/-- A page as the media know it: its programmed counter block; its map entry comes back from the map journal. -/
def Page.offline (p : Page) (keepLarder : Bool) : Page :=
  if keepLarder then { p with mirror := [], mirrorOn := none }
  else { Page.blank with ctrMedia := p.ctrMedia }

/-- A stripe as its parity frame holds it (R346, R347). -/
def State.offlineStripe (s : State) (x : Stripe) : Stripe :=
  let lines := match x.parity with
    | some a => (match s.frame a with | some f => f.lines.map fun l => (l.1, (l.2.ct, l.2.mac)) | none => [])
    | none => []
  { x with lines := lines, dirty := false }

/-- The Hall and the wings lose their rails: every volatile thing goes. What stays is media, flash, Cupboard, and the
Porch's own state with the Attic's retained buffer. The manager's pool state is metadata on the cellars (R424). A wake from SLUMBER finds the Larders as they were (R441). -/
def State.powerLost (s : State) (keepLarder : Bool) : State :=
  let s := s.cupboardOff
  { s with
    plan := none
    rooms := []
    flash := { s.flash with target := none, erased := false }
    hp := { State.reset.hp with nextId := s.hp.nextId, extents := s.hp.extents, decoders := s.hp.decoders }
    ti := { State.reset.ti with
      pages := mapPages s.ti.pages fun _ p => p.offline keepLarder }
    md := { s.md with
      queue := [], inflight := [], held := [], drainHeld := [], skipped := [], refresh := [], wear := [], slots := [], scrub := [], misses := []
      newDevice := false }
    lk := { s.lk with slots := [], eph := 0, buffer := 0, versions := [], lock := none }
    br := { State.reset.br with stripes := s.br.stripes.map fun (x : Nat × Stripe) => (x.1, s.offlineStripe x.2) }
    rg := State.reset.rg
    pl := { State.reset.pl with
      directory := s.pl.directory, quotas := s.pl.quotas, escrow := s.pl.escrow, members := s.pl.members
      mirrored := s.pl.mirrored }
    fl := { State.reset.fl with first := s.fl.first, errLatch := s.fl.errLatch }
    me := State.reset.me }

/-- Every sequenced enable drops at once (R453). -/
def State.dropEnables (s : State) : State :=
  let s := { s with pw := { s.pw with enables := 0, minOffDone := false } }
  (List.range 32).foldl (fun s m => if s.reg .FBX_MON_STATE m == 3 then s else s.setReg .FBX_MON_STATE m 0) s

/-! ### Power-up (R447, R449, R464, R552) -/

/-- Every monitor of the step's wait-for-good set is running (R447). -/
def State.stepGood (s : State) : Bool :=
  (bitsOf (s.stepCfg (s.flag .FBX_SEQ_HALL 0) (s.reg .FBX_SEQ_STEP 0)).wait).all fun m => s.reg .FBX_MON_STATE m == 2

/-- Raises a step's enables and starts its monitors; an empty wait-for-good set is good at once (R444, R447). -/
def State.raiseStep (s : State) (hall : Bool) (k : Nat) : State :=
  let c := s.stepCfg hall k
  let s := { s with pw := { s.pw with enables := s.pw.enables ||| c.enable, minOffDone := false } }
  let s := (bitsOf c.wait).foldl (fun s m => if s.reg .FBX_MON_STATE m == 2 then s else s.setReg .FBX_MON_STATE m 1) s
  let s := ((s.setReg .FBX_SEQ_STEP 0 k).setFlag .FBX_SEQ_HALL 0 hall).setReg .FBX_SEQ_PHASE 0 1
  { s with pw := { s.pw with delaying := s.stepGood } }

/-- RETRIES that R449 reloads: the loaded image's, else the one the Cupboard keeps, else 3. -/
def State.retries (s : State) : Nat :=
  match s.plan with
  | some p => p.retries
  | none => match s.cb.boot with | some (r, _) => r | none => 3

/-- Fields that keep their value at the entry to POWERING: what the Porch holds (R552), rack time (R238) and the
conditions the Porch and the Chimney measure, which go on (R460, R469). -/
def Fld.kept (f : Fld) : Bool :=
  f.desc.reset == .porch || (Block.prcRt.rows.any fun r => r.fld == f) ||
  [Fld.PRC_IN_STATUS_VIN, .PRC_IN_STATUS_VIN_GOOD, .PRC_IN_STATUS_VSTBY,
   .PRC_RES_STATUS_CHG_EN, .PRC_RES_STATUS_VOLTS, .PRC_RES_STATUS_TEMP,
   .CHM_TS_TEMP, .CHM_TS_VALID, .CHM_TS_FAST, .CHM_TS_COUNT].contains f

/-- The blocks of a wing (R541). -/
def wingBlocks : List Block := [.pan, .lar, .cel, .wing, .home, .str, .fltW, .pmcW, .lksW]

/-- A register key is of an RW field of a wing block, which the Hall writes back at a wake (R545). -/
def wingRwKey (k : Nat) : Bool :=
  wingBlocks.any fun b => b.rows.any fun r =>
    r.fld == keyFld k && r.base ≤ keyInst k && r.fld.desc.type == .rw

/-- The fields of R552 return to their values at the entry to POWERING. -/
def State.powerRegs (s : State) (wake : Bool) : State :=
  { s with regs := s.regs.filter fun x =>
      (keyFld x.1).kept || (wake && wingRwKey x.1) }

/-- The fixed windows of MON0 to MON3 (R446, *Sequences*): glitch filter 10 µs, qualification 1 ms. -/
def State.fixedMons (s : State) : State :=
  (List.range 4).foldl
    (fun s m =>
      let w := Config.fuseWindow m
      let s := (s.setReg .FBX_MON_LOW m w.1).setReg .FBX_MON_HIGH m w.2
      (s.setReg .FBX_MON_GLITCH m 10).setReg .FBX_MON_QUAL m 100)
    s

/-- Enters POWERING: the fields of R552 and Hall step 1. -/
def State.enterPowering (s : State) : State :=
  let wake := s.pw.dev == .slumber
  let s := (s.powerRegs wake).fixedMons
  let s := { s with pw := { s.pw with
    wakeLatched := false, fromSlumber := wake, slumbering := false, chipReset := false, shutdownTo := .off } }
  let s := (s.goto .powering).setReg .HALL_STATE_HALT_CAUSE 0 0
  s.charger.raiseStep true 1

/-- Every valid sensor of TS0 to TS7 reads below the throttle level (R464). -/
def State.hallCool (s : State) : Bool :=
  (List.range 8).all fun i =>
    !s.flag .CHM_TS_VALID i || signed16 (s.reg .CHM_TS_TEMP i) < signed16 (s.reg .CHM_LEVELS_THROTTLE 0)

/-- Acts on a latched on request or wake in STANDBY or SLUMBER while VIN is good and the Hall is cool (R464). -/
def State.tryPower (s : State) : State :=
  if (s.pw.dev == .standby || s.pw.dev == .slumber) && (s.flag .FBX_SEQ_ON_LATCHED 0 || s.pw.wakeLatched) &&
      s.flag .PRC_IN_STATUS_VIN_GOOD 0 && s.hallCool then s.enterPowering
  else s

/-- The power-down is over: the last Hall step's enables have dropped (R448). -/
def State.poweredOff (s : State) : State :=
  let target : DevState := s.pw.shutdownTo
  let s := s.powerLost (target == DevState.slumber)
  let s := (s.setReg .FBX_SEQ_PHASE 0 0).setReg .FBX_SEQ_STEP 0 0
  let s := (s.setFlag .FBX_SEQ_HALL 0 false).setReg .HALL_DRAIN_STATUS_STEP 0 0
  let s := (s.setFlag .FBX_SEQ_OFF_LATCHED 0 false).setReg .FBX_PD_ON 0 0
  let s := { s with pw := { s.pw with
    delaying := false, switching := []
    enables := if target == DevState.slumber then s.pw.enables &&& Config.dramEnables else 0 } }
  let s := if s.pw.dev == target then s else s.goto target
  s.charger.tryPower

/-- The wings and every rail but the Hall's are down: the end of a halt's drain (R440). An off request latched meanwhile
acts now. -/
def State.wingsOff (s : State) : State :=
  let s := { s with
    ti := { State.reset.ti with
      pages := mapPages s.ti.pages fun _ p => p.offline false }
    md := { s.md with queue := [], inflight := [], held := [], drainHeld := [], refresh := [], wear := [], slots := [] }
    br := { s.br with acting := [], window := [], deltas := []
                      stripes := s.br.stripes.map fun (x : Nat × Stripe) => (x.1, s.offlineStripe x.2) }
    rg := State.reset.rg
    pw := { s.pw with delaying := false, switching := [] } }
  let s := (s.setReg .FBX_PD_ON 0 (s.reg .FBX_PD_ON 0 % 64)).setReg .HALL_DRAIN_STATUS_STEP 0 0
  let s := ((s.setReg .FBX_SEQ_STEP 0 4).setFlag .FBX_SEQ_HALL 0 true).setReg .FBX_SEQ_PHASE 0 0
  if s.flag .FBX_SEQ_OFF_LATCHED 0 then
    let s := { s with pw := { s.pw with shutdownTo := .off } }
    (s.setFlag .FBX_SEQ_OFF_LATCHED 0 false).reverse 2
  else s.charger

/-- Every rail beyond the Hall's is down after a Hall BIST failure: the device stays in BOOT with no image (R50, R534). -/
def State.bootRailsOff (s : State) : State :=
  let s := { s with plan := none, pw := { s.pw with delaying := false, switching := [], boot := none, shutdownTo := .off } }
  let s := (s.setReg .FBX_PD_ON 0 (s.reg .FBX_PD_ON 0 % 64)).setReg .HALL_FP_STATUS_ACTIVE 0 0
  let s := s.setFlag .HALL_FLASH_CTRL_WP_ACTIVE 0 false
  ((s.setReg .FBX_SEQ_STEP 0 4).setFlag .FBX_SEQ_HALL 0 true).setReg .FBX_SEQ_PHASE 0 0

/-! ### Drain -/

/-- Requests that wait for the dirty budget are not at their trackers (R176): they are discarded, and their credits
return. -/
def State.dropPaced (s : State) : State :=
  let due := s.hp.pend.filter fun (q : Req) => q.wait == .paced
  due.foldl (fun (s : State) (q : Req) => (s.dropReq q).credit q.room) (s.count 130 due.length)

/-- Discards what waits for the budget until nothing does: a request behind one of them may come to wait next. -/
def State.dropPacedN : Nat → State → State
  | 0, s => s
  | n + 1, s => if s.pacing then State.dropPacedN n s.dropPaced.settle else s

/-- Requests not yet at a tracker are handled as at DL_Down (R68, R176, R302 step 1). -/
def State.dropIngress (s : State) : State :=
  let n := s.hp.ingress.length
  let s := ({ s with hp := { s.hp with ingress := [] } }).count 130 n
  State.dropPacedN s.hp.pend.length s

/-- A drain ends a migration's freeze, because fetch stops and its last round cannot complete: the room serves what is at
its trackers (R302 step 1, R432, R434). -/
def State.endFreeze (s : State) : State :=
  { s with
    rooms := s.rooms.map fun (x : Nat × Room) =>
      if x.2.state == .frozen then (x.1, { x.2 with state := .serving }) else x
    pl := { s.pl with mig := s.pl.mig.map fun (m : Migration) => if m.step = 3 then { m with step := 2 } else m } }

/-- A charge test is abandoned; it runs again at the next READY (R293). -/
def State.abandonTest (s : State) : State :=
  if s.res.st == .testing then
    { s with res := { s.res with st := .charging, testDue := true, rising := false } }
  else s

/-- Step 8: the power-down sequence, from the highest step reached (R448). -/
def State.startPowerDown (s : State) : State :=
  if s.pw.shutdownTo == .halted && (s.flag .FBX_SEQ_HALL 0 || !s.stepReached) then s.wingsOff
  else if s.stepReached then s.reverse 2 else s.poweredOff

/-- A frame's package is outside the drain-write window (R474, R475). -/
def State.drainHolds (s : State) (a : Option FrameAddr) : Bool :=
  match a with
  | some a => s.md.drainHeld.contains (a.cellar * 8 + a.pkg)
  | none => false

/-- A drain has something left to write back; packages outside the drain-write window are not waited for (R475). -/
def State.drainPending (s : State) : Bool :=
  (s.ti.pages.any fun x => x.2.dirty && !s.md.skipped.contains x.1 && !s.drainHolds x.2.entry.frame) ||
  (s.br.stripes.any fun x => x.2.dirty && !s.drainHolds x.2.parity) ||
  (s.md.queue.any fun o => o.position ≤ 2 && !s.drainHolds (some o.at_)) || !s.md.inflight.isEmpty

/-- The pages step 3 leaves unwritten are skipped, each with its Attic record (R304, R475). -/
def State.skipRest (s : State) : State :=
  let left := (s.ti.pages.filter fun x => x.2.dirty && !s.md.skipped.contains x.1).map Prod.fst
  let s := { s with md := { s.md with skipped := s.md.skipped ++ left } }
  s.md.skipped.foldl (fun s k => s.atticNote 8 1 0x03 [BitVec.ofNat 64 (keyRoom k), BitVec.ofNat 64 (keyPage k)]) s

/-- The marker of step 7, in both copies (R302, R303). -/
def State.putMarker (s : State) (m : Marker) : State := { s with md := { s.md with markers := (some m, some m) } }

/-- The newest marker sequence number in media. -/
def State.markerSeq (s : State) : Nat :=
  max (match s.md.markers.1 with | some m => m.seq | none => 0) (match s.md.markers.2 with | some m => m.seq | none => 0)

/-- A marker for the present state. -/
def State.marker (s : State) (kind skipped : Nat) : Marker where
  kind := kind
  seq := s.markerSeq + 1
  anchor := s.counterValue 0
  beat := s.beat
  imageSeq := match s.plan with | some p => p.imageSeq | none => 0
  amdSeq := s.reg .HALL_AMD_SEQ 0
  stop := s.reg .HALL_DRAIN_STATUS_LAST_STOP 0
  skipped := skipped
  ms := (Config.freeValue s.fresh).toNat % 2 ^ 32

/-- The unit record, rewritten before the marker (R577). -/
def State.putUnitRecord (s : State) : State :=
  match s.plan with
  | none => s
  | some p =>
    let r : UnitRecord := { units := p.units, media := p.media, larder := p.larder,
                            persistent := s.rooms.any fun x => x.2.cfg.persistent }
    { s with md := { s.md with unitRecord := (some r, some r) } }

/-- LOCKDOWN steps 4 and 5: every key is zeroed and the cause recorded (R338). -/
def State.lockFinish (s : State) : State :=
  match s.lk.lock with
  | none => s
  | some (room, index, line, kind, wing) =>
    let s := { s with lk := { s.lk with
      slots := s.lk.slots.map fun (x : Nat × KeySlot) => (x.1, { x.2 with key := 0 }), eph := 0, buffer := 0
      lock := none } }
    let s := ((s.setReg .LKS_LOCK_LOC_ROOM 0 room).setReg .LKS_LOCK_LOC_INDEX 0 index).setReg .LKS_LOCK_LOC_LINE 0 line
    let s := (s.setReg .LKS_LOCK_LOC_KIND 0 kind).setReg .LKS_LOCK_LOC_WING 0 wing
    s.atticNote 9 3 0x06 [BitVec.ofNat 64 3]

/-- Drain steps 4 to 8, once step 3 has nothing left (R302). -/
def State.finishDrain (s : State) : State :=
  let s := s.skipRest
  let skipped := s.md.skipped.length
  let s := s.checkpointNow
  let s := s.flushAttic
  let s := s.anchorNow
  let s := State.finishPages (s.cb.queue.length + 256) s
  let s := s.putUnitRecord
  let s := s.putMarker (s.marker (if skipped = 0 then 1 else 2) skipped)
  let s := if skipped = 0 then s.setFlag .HALL_STATE_UNCLEAN_RAIL 0 false else s
  let s := { s with fresh := s.fresh + 1 }
  let s := { s with rt := { s.rt with drainBeat := s.beat } }
  let s := s.lockFinish
  let s := s.setReg .HALL_DRAIN_STATUS_STEP 0 8
  let s := if s.pw.slumbering then
      s.wings.foldl (fun s w => s.setFlag .LAR_STATUS_SELF_REFRESH w true) s
    else s
  s.startPowerDown

/-- The write-back of Pantry-dirty lines, drain step 2 (R302). -/
def State.drainPantry (s : State) : State :=
  let due := s.ti.pantry.filter fun x => x.2.dirty
  due.foldl
    (fun s x =>
      let k := x.1 % 2 ^ 54
      s.storeLine 0 (keyRoom (k / 64)) (keyPage (k / 64)) (k % 64) x.2.data (BitVec.allOnes 64) x.2.poison)
    s

/-- Drain steps 2 and 3: the Pantry-dirty lines go to their Larder slots, and every dirty data and parity line is queued
for write-back (R302). -/
def State.drainWrites (s : State) : State :=
  let s := (s.setReg .HALL_DRAIN_STATUS_STEP 0 2).drainPantry
  let s := (s.setReg .HALL_DRAIN_STATUS_STEP 0 3).writeBackAll 1
  s.br.stripes.foldl (fun s x => s.queueParity (x.1 / 2 ^ 40) (x.1 % 2 ^ 40) 1) s

/-- Drain steps 2 and 3 follow step 1 once every request at a tracker is complete (R302). -/
def State.drainTrackers (s : State) : State :=
  if s.hp.pend.isEmpty then s.drainWrites else s

/-- Drain steps 4 to 8 follow step 3 once it has nothing left (R302). -/
def State.drainEnd (s : State) : State :=
  if s.reg .HALL_DRAIN_STATUS_STEP 0 == 3 && !s.drainPending then s.finishDrain else s

/-- Goes on with a drain as far as it can (R302). -/
def State.drainAdvance (s : State) : State :=
  if s.reg .HALL_DRAIN_STATUS_STEP 0 == 1 then (State.dropPacedN s.hp.pend.length s).drainTrackers.drainEnd
  else s.drainEnd

/-- BIST runs end as ABORTED when a drain starts (R534). -/
def State.abortBist (s : State) : State :=
  let one := fun (s : State) (r : Nat × Nat × Bool) =>
    let s := s.setReg .BST_STATUS_STATE r.1 5
    if s.svc r.1 == 3 then s.setReg .HALL_SVC_STATE r.1 2 else s
  let s := s.me.running.foldl one s
  { s with
    br := { s.br with readmit := s.br.readmit.filter fun u => s.me.running.all fun r => r.1 != u }
    me := { s.me with running := [] } }

/-- Starts a drain: DRAINING, or HALTED for a halt's drain, with its cause and where the power-down ends
(R301, R302, R440). -/
def State.drainStart (s : State) (stop : Nat) (endsIn : DevState) : State :=
  let s := if s.pw.dev == .halted then s else s.goto .draining
  let s := { s with pw := { s.pw with shutdownTo := endsIn } }
  let s := s.setReg .HALL_DRAIN_STATUS_LAST_STOP 0 stop
  let s := s.endFreeze.dropIngress.settle.abandonTest.abortBist
  let s := { s with md := { s.md with skipped := [] } }
  let s := s.setReg .HALL_DRAIN_STATUS_STEP 0 1
  s.charger.drainAdvance

/-- A drain is cut off with no marker: V_MIN, or the reservoir path (R304, R446). The Porch drops every enable, the
Hall's too; a thermal shutdown still ends in THERMAL_LATCH. -/
def State.drainCut (s : State) : State :=
  let s := { s with pw := { s.pw with
    slumbering := false
    shutdownTo := if s.pw.shutdownTo == DevState.thermalLatch then .thermalLatch else .off } }
  s.dropEnables.poweredOff

/-! ### Halts (R338, R440, R480, R490) -/

/-- Signals viral (R78). -/
def State.viralOut (s : State) : State := (s.setFlag .HALL_HP_LINK_VIRAL_OUT 0 true).send .viral

/-- Enters HALTED with a cause, with a drain where there is something to drain: 1 LOCKDOWN, 2 COLLECTOR, 3 CHIP. A halt
in BOOT or RECOVERY drains nothing (R439; log entry 16); one in DRAINING leaves the drain running. -/
def State.halt (s : State) (cause : Nat) : State :=
  match s.pw.dev with
  | .serving =>
    let s := (s.goto .halted).setReg .HALL_STATE_HALT_CAUSE 0 cause
    s.viralOut.drainStart (cause + 2) .halted
  | .draining =>
    let s := (s.goto .halted).setReg .HALL_STATE_HALT_CAUSE 0 cause
    let s := { s with pw := { s.pw with shutdownTo := .halted } }
    (s.viralOut.setReg .HALL_DRAIN_STATUS_LAST_STOP 0 (cause + 2))
  | .boot | .recovery =>
    let s := (s.goto .halted).setReg .HALL_STATE_HALT_CAUSE 0 cause
    s.viralOut.lockFinish
  | _ => s

/-- LOCKDOWN (R338): source 0, the halt, and the cause kept until steps 4 and 5. -/
def State.lockdown (s : State) (room index line kind wing : Nat) : State :=
  let s := match s.lk.lock with
    | some _ => s
    | none => { s with lk := { s.lk with lock := some (room, index, line, kind, wing) } }
  let s := (s.setFlag .LKS_STATUS_LOCKDOWN 0 true).advanceCounter 1 (s.counterValue 1 + 1)
  (s.post (plainEvent srcMacFailure) true).halt 1

end Sys2Proof.Machine
end

