-- ==== Sys2Proof/Machine/Power.lean ====
section
/-! DEFINITION. Power: VSTBY and straps, on and off requests, rail monitors and rail faults, the reversal of a sequence,
retries, and the switching of power-domain groups (R439 to R458, R564 to R571). The steps of a power-up go on in
Boot.lean. -/

namespace Sys2Proof.Machine

/-! ### VSTBY and straps -/

/-- VSTBY_RISE: no VSTBY to OFF, with everything the Porch holds at its first value (R439, R552). -/
def execVstbyRise (s : State) : Result :=
  if s.pw.dev != .noVstby then .next s
  else
    let s := { s with
      regs := []
      pw := { State.reset.pw with pwrOn := s.pw.pwrOn }
      res := { State.reset.res with stored := s.cb.reservoir }
      rt := State.reset.rt }
    .next (s.goto .off)

/-- VSTBY_LOSS: from every state; the enables go high-impedance and everything held under VSTBY is lost (R439, R568). -/
def execVstbyLoss (s : State) : Result :=
  if s.pw.dev == .noVstby then .next s
  else
    let s := s.powerLost false
    .next { s with
      regs := []
      pw := { State.reset.pw with pwrOn := s.pw.pwrOn }
      res := State.reset.res
      rt := State.reset.rt
      fl := State.reset.fl
      at_ := { s.at_ with buffer := [] }
      hp := { s.hp with link := .down } }

/-- STRAP_SAMPLE: the straps are kept until VSTBY falls; STRAP[7:6] of 1 acts as 0; the enables are driven (R564,
R565). -/
def execStrapSample (straps : BitVec 8) (s : State) : Result :=
  if s.pw.dev == .noVstby || s.pw.straps.isSome then .next s
  else
    let v := if straps.toNat / 64 == 1 then straps &&& 0x3F#8 else straps
    .next ({ s with pw := { s.pw with straps := some v, highZ := false } } : State).charger

/-! ### Off, standby and requests -/

/-- The minimum off time is over: STANDBY, and POWERING if an on request is latched or PWR_ON is high (R439, R451). -/
def State.standby (s : State) : State :=
  let s := s.goto .standby
  let s := if s.pw.pwrOn then s.setFlag .FBX_SEQ_ON_LATCHED 0 true else s
  s.tryPower

/-- MINIMUM_OFF_TIME_EXPIRY (R439). -/
def execMinimumOffTimeExpiry (s : State) : Result :=
  if s.pw.enables != 0 || s.pw.straps.isNone then .next s
  else
    let s := { s with pw := { s.pw with minOffDone := true } }
    .next (match s.pw.dev with | .off => s.standby | _ => s)

/-- Enters OFF from a state in which nothing is left to power down; the minimum off time may be over already. -/
def State.enterOff (s : State) : State :=
  let s := (s.goto .off).setFlag .FBX_SEQ_OFF_LATCHED 0 false
  let s := s.charger
  if s.pw.minOffDone then s.standby else s

/-- Reverses a power-up to OFF (R450). -/
def State.reverseToOff (s : State) : State :=
  let s := { s with pw := { s.pw with shutdownTo := .off } }
  let s := s.setFlag .FBX_SEQ_OFF_LATCHED 0 false
  if s.stepReached then s.reverse 2 else s.poweredOff

/-- A step waits for its monitors (R450). -/
def State.stepWaits (s : State) : Bool :=
  s.reg .FBX_SEQ_PHASE 0 == 1 && !s.stepGood

/-- An off request during a power-up: the step in progress runs to its end, and then the sequence reverses (R450). -/
def State.offInPowerUp (s : State) : State :=
  if s.reg .FBX_SEQ_PHASE 0 == 2 then s.setFlag .FBX_SEQ_ON_LATCHED 0 false
  else if s.stepWaits then (s.setFlag .FBX_SEQ_OFF_LATCHED 0 true).setFlag .FBX_SEQ_ON_LATCHED 0 false
  else s.reverseToOff

/-- The Porch lets the DRAM rails go: self-refresh is broken and the Larders are lost (R439, R463). -/
def State.breakSelfRefresh (s : State) : State :=
  let s := (s.powerLost false).setFlag .PRC_IN_STATUS_SR_BROKEN 0 true
  { s with pw := { s.pw with enables := 0 } }

/-- An off request, by state (R439, R442, R450 to R452). -/
def State.offRequest (s : State) : State :=
  match s.pw.dev with
  | .noVstby | .thermalLatch => s
  | .off | .standby =>
    let s := { s with pw := { s.pw with wakeLatched := false, chipReset := false } }
    s.setFlag .FBX_SEQ_ON_LATCHED 0 false
  | .powering | .boot => s.offInPowerUp
  | .recovery => (s.setFlag .FBX_SEQ_OFF_LATCHED 0 true).setFlag .FBX_SEQ_ON_LATCHED 0 false
  | .serving => s.drainStart 1 .off
  | .draining =>
    let s := { s with pw := { s.pw with
      chipReset := false, slumbering := false
      shutdownTo := if s.pw.shutdownTo == DevState.slumber then .off else s.pw.shutdownTo } }
    s.setFlag .FBX_SEQ_ON_LATCHED 0 false
  | .slumber =>
    let s := { s with pw := { s.pw with wakeLatched := false, minOffDone := false } }
    (s.breakSelfRefresh.setFlag .FBX_SEQ_ON_LATCHED 0 false).enterOff
  | .halted =>
    let s := s.setFlag .FBX_SEQ_ON_LATCHED 0 false
    if s.pw.shutdownTo == .off && s.reg .FBX_SEQ_PHASE 0 == 2 then s
    else if s.reg .HALL_DRAIN_STATUS_STEP 0 != 0 || s.reg .FBX_SEQ_PHASE 0 == 2 then
      s.setFlag .FBX_SEQ_OFF_LATCHED 0 true
    else s.reverseToOff
  | .seqFault =>
    let s := s.setFlag .FBX_SEQ_ON_LATCHED 0 false
    if s.reg .FBX_SEQ_PHASE 0 != 0 then { s with pw := { s.pw with shutdownTo := .off } } else s.enterOff

/-- An on request, by state (R439, R442, R449, R451, R452). The retry count is reloaded at each. -/
def State.onRequest (s : State) : State :=
  let more := s.setReg .FBX_SEQ_RETRIES_LEFT 0 s.retries
  match s.pw.dev with
  | .noVstby | .thermalLatch => s
  | .off | .draining => more.setFlag .FBX_SEQ_ON_LATCHED 0 true
  | .standby | .slumber => (more.setFlag .FBX_SEQ_ON_LATCHED 0 true).tryPower
  | .powering | .boot =>
    if s.reg .FBX_SEQ_PHASE 0 == 2 then more.setFlag .FBX_SEQ_ON_LATCHED 0 true
    else more.setFlag .FBX_SEQ_OFF_LATCHED 0 false
  | .recovery => more.setFlag .FBX_SEQ_OFF_LATCHED 0 false
  | .serving => more
  | .halted =>
    if s.reg .FBX_SEQ_PHASE 0 == 2 && s.pw.shutdownTo == .off then more.setFlag .FBX_SEQ_ON_LATCHED 0 true
    else more.setFlag .FBX_SEQ_OFF_LATCHED 0 false
  | .seqFault =>
    if s.reg .FBX_SEQ_PHASE 0 != 0 && s.pw.shutdownTo == .off then more.setFlag .FBX_SEQ_ON_LATCHED 0 true
    else if s.reg .FBX_SEQ_RETRIES_LEFT 0 == 0 then s
    else more

/-- ON_REQUEST: a rising edge on PWR_ON (R439). -/
def execOnRequest (s : State) : Result :=
  .next ({ s with pw := { s.pw with pwrOn := true } } : State).onRequest

/-- OFF_REQUEST: a falling edge on PWR_ON (R439). -/
def execOffRequest (s : State) : Result :=
  .next ({ s with pw := { s.pw with pwrOn := false } } : State).offRequest

/-- OFF_REQ: a write of 1 to FBX_CTRL OFF_REQ (R459). -/
def execOffReqWrite (s : State) : Result := .next s.offRequest

/-! ### Monitors (R443 to R446) -/

/-- A monitor is enabled: its RAILS record says so, and before any image MON0 to MON3 are the ROM's (R445). -/
def State.monEnabled (s : State) (m : Nat) : Bool :=
  match s.plan with
  | some p => match p.mons[m]? with | some c => c.enabled | none => false
  | none => m < 4

/-- A monitor watches the reservoir path (R446). -/
def State.monReservoir (s : State) (m : Nat) : Bool :=
  match s.plan with
  | some p => match p.mons[m]? with | some c => c.reservoir | none => false
  | none => false

/-- A conversion compared with its window; the length of an excursion is kept for the glitch filter (R443, R444). -/
def State.convert (s : State) (m reading : Nat) : State :=
  let out := reading < s.reg .FBX_MON_LOW m || s.reg .FBX_MON_HIGH m < reading
  let n := if out then lookD s.pw.outside m 0 + 1 else 0
  let s := (s.setReg .FBX_MON_READING m reading).setFlag .FBX_MON_OUTSIDE m out
  { s with pw := { s.pw with outside := if n = 0 then del s.pw.outside m else put s.pw.outside m (min n 256) } }

/-- MONITOR_CONVERSION: every enabled monitor, every 1 µs (R443). -/
def execMonitorConversion (mon : Mon) (reading : BitVec 12) (s : State) : Result :=
  if s.pw.dev == .noVstby || !s.monEnabled mon.val then .next s else .next (s.convert mon.val reading.toNat)

/-- The Porch's snapshot of all 32 conversions and the beat (R453). -/
def State.snapRails (s : State) : State :=
  let s := (List.range 32).foldl
    (fun s m => (s.setReg .FBX_SNAP_READING m (s.reg .FBX_MON_READING m)).setReg .FBX_SNAP_OUTSIDE m
      (s.reg .FBX_MON_OUTSIDE m)) s
  (s.setReg .FBX_SNAP_TIME_BEAT 0 s.beat).setFlag .FBX_SNAP_TIME_VALID 0 true

/-- Every sequenced enable drops at once, a snapshot is kept and the device enters SEQ_FAULT (R453, R571). An off
request latched during the power-up then acts. -/
def State.railFault (s : State) (m kind : Nat) : State :=
  let off := s.flag .FBX_SEQ_OFF_LATCHED 0
  let s := s.snapRails
  let s := if m < 32 then s.setReg .FBX_MON_STATE m 3 else s
  let s := (s.setReg .FBX_SEQ_FAULT_MON 0 (if m < 32 then m else 0)).setReg .FBX_SEQ_FAULT_KIND 0 kind
  let s := s.dropEnables.powerLost false
  let s := ((s.setReg .FBX_SEQ_PHASE 0 0).setReg .FBX_SEQ_STEP 0 0).setFlag .FBX_SEQ_HALL 0 false
  let s := (s.setReg .HALL_DRAIN_STATUS_STEP 0 0).setReg .FBX_PD_ON 0 0
  let s := { s with pw := { s.pw with
    delaying := false, railSnapshot := true, railMon := m, railHigh := kind == 3, switching := []
    slumbering := false, shutdownTo := .seqFault } }
  let s := if s.pw.dev == .seqFault then s else s.goto .seqFault
  let s := s.charger
  if off then s.enterOff else s

/-- RAIL_FAULT: a running monitor's excursion is longer than its glitch filter; a low excursion of the reservoir path
while a drain runs ends the drain as at V_MIN (R444, R446, R453 to R455). -/
def execRailFault (mon : Mon) (s : State) : Result :=
  let m := mon.val
  if s.reg .FBX_MON_STATE m != 2 || lookD s.pw.outside m 0 ≤ s.reg .FBX_MON_GLITCH m then .next s
  else
    let low := s.reg .FBX_MON_READING m < s.reg .FBX_MON_LOW m
    if low && s.monReservoir m && s.pw.dev == .draining then .next s.drainCut
    else .next (s.railFault m (if low then 2 else 3))

/-- LREF_LOSS: as a rail fault, in any state from POWERING to DRAINING, with kind 4 (R459, R571). -/
def execLrefLoss (s : State) : Result :=
  match s.pw.dev with
  | .powering | .boot | .recovery | .serving | .draining => .next (s.railFault 32 4)
  | .off | .standby | .slumber | .halted | .thermalLatch | .seqFault | .noVstby => .next s

/-! ### Step timeouts, reversal and retry (R448 to R450) -/

/-- A sequence fault: SEQ_FAULT at once, the monitor recorded, and a reversal through every step reached (R449). -/
def State.sequenceFault (s : State) (m : Nat) : State :=
  let s := (s.setReg .FBX_SEQ_FAULT_MON 0 m).setReg .FBX_SEQ_FAULT_KIND 0 1
  let s := { s with pw := { s.pw with shutdownTo := .seqFault } }
  (s.goto .seqFault).reverse 3

/-- The first monitor of the step's wait-for-good set that is not running. -/
def State.lateMonitor (s : State) : Nat :=
  ((bitsOf (s.stepCfg (s.flag .FBX_SEQ_HALL 0) (s.reg .FBX_SEQ_STEP 0)).wait).find? fun m =>
    s.reg .FBX_MON_STATE m != 2).getD 0

/-- STEP_TIMEOUT: a sequence fault, or with an off request latched the power-down it asked for; counted in both
(R449, R450). -/
def execStepTimeout (s : State) : Result :=
  if !(s.pw.dev == .powering || s.pw.dev == .boot) || !s.stepWaits then .next s
  else
    let m := s.lateMonitor
    let s := { s with pw := { s.pw with timeouts := s.pw.timeouts ++ [m] } }
    let s := s.satReg .FBX_RAILCNT_SEQ_TIMEOUTS m 1
    .next (if s.flag .FBX_SEQ_OFF_LATCHED 0 then s.reverseToOff else s.sequenceFault m)

/-- The next lower step drops, or the sequence is over; a halt's power-down leaves the Hall's steps up (R440, R448). -/
def State.stepDown (s : State) : State :=
  let k := s.reg .FBX_SEQ_STEP 0
  let hall := s.flag .FBX_SEQ_HALL 0
  if 1 < k then (s.setReg .FBX_SEQ_STEP 0 (k - 1)).dropStep hall (k - 1)
  else if hall then s.poweredOff
  else if s.pw.shutdownTo == .halted then s.wingsOff
  else if s.pw.shutdownTo == .boot then s.bootRailsOff
  else ((s.setReg .FBX_SEQ_STEP 0 4).setFlag .FBX_SEQ_HALL 0 true).dropStep true 4

/-- POWER_DOWN_STEP_DELAY (R448). -/
def execPowerDownStepDelay (s : State) : Result :=
  if (s.reg .FBX_SEQ_PHASE 0 == 2 || s.reg .FBX_SEQ_PHASE 0 == 3) && s.pw.delaying then .next s.stepDown else .next s

/-- SEQ_FAULT_RETRY: the backoff ends with a retry left (R449). -/
def execSeqFaultRetry (s : State) : Result :=
  let n := s.reg .FBX_SEQ_RETRIES_LEFT 0
  if s.pw.dev == .seqFault && s.reg .FBX_SEQ_PHASE 0 == 0 && n != 0 then
    .next (s.setReg .FBX_SEQ_RETRIES_LEFT 0 (n - 1)).enterPowering
  else .next s

/-! ### Power-domain groups (R456 to R458) -/

/-- The domains of a group (R37). -/
def State.groupDomains (s : State) (g : Nat) : List Nat :=
  match s.plan with
  | some p => (List.range 46).filter fun d => p.power.getD d 46 == g
  | none => []

/-- Puts a group's switching in order behind what waits (R457). -/
def State.switchGroup (s : State) (g : Nat) (on : Bool) : State :=
  let s := { s with pw := { s.pw with switching := s.pw.switching ++ [(g, on)] } }
  s.setFlag .FBX_PD_SWITCHING 0 true

/-- The groups that hold some domain of a list. -/
def State.groupsOf (s : State) (ds : List Nat) : List Nat :=
  match s.plan with
  | some p => (List.range 46).filter fun g => ds.any fun d => p.power.getD d 46 == g
  | none => []

/-- The domains of a wing (R456). -/
def wingDomains (w : Nat) : List Nat := (List.range 5).map fun i => 6 + 5 * w + i

/-- GROUP_SWITCH_DONE: the group in front is on or off, and the next may switch (R457). -/
def execGroupSwitchDone (group : Fin 46) (s : State) : Result :=
  match s.pw.switching with
  | (g, on) :: rest =>
    if g != group.val then .next s
    else
      let now := s.reg .FBX_PD_ON 0
      let v := (s.groupDomains g).foldl
        (fun v d => if on then v ||| 2 ^ d else if v.testBit d then v - 2 ^ d else v) now
      let s := { s with pw := { s.pw with switching := rest } }
      .next ((s.setReg .FBX_PD_ON 0 v).setFlag .FBX_PD_SWITCHING 0 !rest.isEmpty)
  | [] => .next s

end Sys2Proof.Machine
end

