-- ==== Sys2Proof/Machine/Reservoir.lean ====
section
/-! DEFINITION. The reservoir: its states, the charge test, the computed budget and what a change of the effective
budget starts (R291 to R300, R309). -/

namespace Sys2Proof.Machine

/-! ### The budget -/

/-- Entry to write-through mode: the level, and every dirty line written back at drain priority (R297, R298). -/
def State.writeThroughEntry (s : State) : State :=
  let s := s.setFlag .HALL_DIRTY_CALC_WRITE_THROUGH 0 true
  if s.pw.dev == .serving then (s.level srcWriteThrough true).writeBackAll 1 else s.level srcWriteThrough true

/-- WRITE_THROUGH clears once the budget is above 0 and no log entry is left: the reset records are programmed then
(R300). -/
def State.writeThroughExit (s : State) : State :=
  if !s.writeThrough && s.md.log.isEmpty then
    (s.setFlag .HALL_DIRTY_CALC_WRITE_THROUGH 0 false).level srcWriteThrough false
  else s

/-- What follows from a change of the effective budget: write-through entry or exit, the event of a budget that falls
below the dirty amount, and the paced writes that a rise lets go (R172, R178, R297, R300). -/
def State.budgetStep (s : State) (before : Nat) : State :=
  let now := s.effective
  let s := if now = 0 then (if before = 0 then s else s.writeThroughEntry) else s.writeThroughExit
  let s := if now < before && now < s.dirtyAmount && s.dirtyAmount ≤ before then s.emit srcBudgetBelow else s
  s.settle

/-- The usable energy and the computed budget are computed again (R294). -/
def State.computeBudget (s : State) : State :=
  if !s.pw.dev.hallOn || s.plan.isNone then s
  else
    let before := s.effective
    let b := s.budgetInputs
    let s := s.setReg .HALL_DIRTY_CALC_COMPUTED 0 (min b.pages (2 ^ 28 - 1))
    let s := s.setFlag .HALL_DIRTY_CALC_FLOOR 0 b.floor
    let s := s.setReg .PRC_RES_MEAS_ENERGY 0 (min (b.energy2 / 20000000) (2 ^ 32 - 1))
    s.budgetStep before

/-! ### States -/

/-- Moves the reservoir to a state, with the levels that follow it, the charger and the budget (R291 to R294). -/
def State.setReservoir (s : State) (r : ResState) : State :=
  let s := { s with res := { s.res with st := r } }
  let s := ((s.level srcResFailed (r == .failed)).level srcResAbsent (r == .absent)).level srcResHeld (r == .held)
  s.charger.computeBudget

/-- Back to CHARGING, or to HELD while RES_NTC is outside the charging window; a charge test follows at the next READY
(R292, R293, R296). -/
def State.recharge (s : State) : State :=
  let s := { s with res := { s.res with testDue := true, rising := false, ntcOnly := false } }
  let s := s.setReg .PRC_RES_STATUS_FAIL_CAUSE 0 0
  s.setReservoir (if s.inChargeWindow then .charging else .held)

/-- FAILED with a cause. -/
def State.reservoirFails (s : State) (cause : Nat) (ntcOnly : Bool) : State :=
  let s := { s with res := { s.res with ntcOnly := ntcOnly, rising := false } }
  (s.setReg .PRC_RES_STATUS_FAIL_CAUSE 0 cause).setReservoir .failed

/-- RES_SENSE_SAMPLE: the bank voltage is RES_SENSE times SENSE_GAIN / 256, in 10 mV (R294, R309). -/
def execResSenseSample (millivolts : Nat) (s : State) : Result :=
  if s.pw.dev == .noVstby then .next s
  else
    let v := millivolts * s.reg .PRC_RES_CFG1_SENSE_GAIN 0 / 2560
    .next (s.setReg .PRC_RES_STATUS_VOLTS 0 (min v 65535))

/-- RESERVOIR_READY: the plateau while charging gives V_FULL (R292). -/
def execReservoirReady (s : State) : Result :=
  if s.res.st != .charging || !s.flag .PRC_RES_STATUS_CHG_EN 0 then .next s
  else
    let s := { s with res := { s.res with vFull := some (s.reg .PRC_RES_STATUS_VOLTS 0) } }
    .next (s.setReservoir .ready)

/-- CHG_LIMIT_EXPIRY: no plateau within CHG_LIMIT (R292). -/
def execChgLimitExpiry (s : State) : Result :=
  if s.res.st == .charging && s.flag .PRC_RES_STATUS_CHG_EN 0 then .next (s.reservoirFails 1 false) else .next s

/-- RESERVOIR_ABSENT: below 0.5 V after 1 s of charging (R291). -/
def execReservoirAbsent (s : State) : Result :=
  if s.res.st == .charging && s.flag .PRC_RES_STATUS_CHG_EN 0 && s.reg .PRC_RES_STATUS_VOLTS 0 < 50 then
    .next (s.setReservoir .absent)
  else .next s

/-- A reading at least 1 °C inside the charging window (R474). -/
def State.wellInside (s : State) (t : Int) : Bool :=
  signed16 (s.reg .CHM_WIN1_CHG_LO 0) + 4 ≤ t && t ≤ signed16 (s.reg .CHM_WIN1_CHG_HI 0) - 4

/-- RES_NTC_SAMPLE: FAILED outside −40 °C to 125 °C, HELD outside the charging window, and back (R292, R296, R461). -/
def execResNtcSample (ohms : Nat) (s : State) : Result :=
  if s.pw.dev == .noVstby then .next s
  else
    let t := Config.ntcTemp ohms (s.reg .PRC_NTC_NTC_B 0) (10 * s.reg .PRC_NTC_NTC_NOM 0)
    if ohms < 10 || 10000000 < ohms || t < -160 || 500 < t then
      match s.res.st with
      | .failed => .next s
      | .absent => .next (s.reservoirFails 3 false)
      | .charging | .ready | .testing | .held => .next (s.reservoirFails 3 true)
    else
      let s := s.setReg .PRC_RES_STATUS_TEMP 0 (unsignedOf 16 t)
      match s.res.st with
      | .failed => .next (if s.res.ntcOnly then s.recharge else s.charger)
      | .held => .next (if s.wellInside t then s.recharge else s)
      | .absent => .next s.charger
      | .charging | .ready => .next (if s.inChargeWindow then s else s.setReservoir .held)
      | .testing => .next (if s.inChargeWindow then s else s.abandonTest.setReservoir .held)

/-! ### The charge test (R293) -/

/-- Step 1 of a charge test: the charger goes low, with ICHG and TEST_DROP as they stand. -/
def State.startTest (s : State) : State :=
  let s := { s with res := { s.res with
    testDue := false, rising := false, testIchg := s.reg .PRC_RES_CFG0_ICHG 0
    testDrop := max 1 (s.reg .PRC_RES_CFG0_TEST_DROP 0) } }
  s.setReservoir .testing

/-- CHARGE_TEST_START: READY with a test due, outside a drain (R293). -/
def execChargeTestStart (s : State) : Result :=
  if s.res.st == .ready && s.res.testDue && s.flag .PRC_RES_STATUS_CHG_EN 0 then .next s.startTest else .next s

/-- CHARGE_TEST_FALL_END: the fall by TEST_DROP, or what fell in 60 s; below 20 mV the test is inconclusive (R293). -/
def execChargeTestFallEnd (drop10mV ms : Nat) (s : State) : Result :=
  if s.res.st != .testing || s.res.rising || (drop10mV < s.res.testDrop && ms < 60000) then .next s
  else if drop10mV < s.res.testDrop && drop10mV < 2 then
    .next ((s.setFlag .PRC_RES_STATUS_INCONCLUSIVE 0 true).setReservoir .ready)
  else
    let s := { s with res := { s.res with rising := true, fallDrop := min drop10mV s.res.testDrop, fallMs := ms } }
    .next s.charger

/-- C = ICHG / (s_u + s_d), in 0.1 mF, from a drop in 10 mV and the two times in ms (R293). -/
def capacitance (ichg drop fallMs riseMs : Nat) : Nat := ichg * fallMs * riseMs / (drop * (fallMs + riseMs))

/-- CHARGE_TEST_RISE_END: C and V_FULL are stored, in the Cupboard too while the Hall is up (R293). -/
def execChargeTestRiseEnd (ms : Nat) (s : State) : Result :=
  if s.res.st != .testing || !s.res.rising || 60000 < ms then .next s
  else
    let c := min (2 ^ 32 - 1) (capacitance s.res.testIchg s.res.fallDrop s.res.fallMs ms)
    let kept := (c, s.res.vFull.getD 0)
    let s := { s with res := { s.res with stored := some kept, rising := false } }
    let s := (s.setReg .PRC_RES_MEAS_CAP 0 c).setFlag .PRC_RES_STATUS_INCONCLUSIVE 0 false
    let s := (s.setReg .PRC_RES_TEST_LAST_BEAT 0 s.beat).satReg .PRC_RES_TEST_TESTS 0 1
    let s := if s.pw.dev.hallOn then (s.queueRecord [2766] [2767] (.reservoir kept)).count 163 1 else s
    .next ((s.emit srcChargeTest).setReservoir .ready)

/-- CHARGE_TEST_RISE_TIMEOUT (R293). -/
def execChargeTestRiseTimeout (s : State) : Result :=
  if s.res.st == .testing && s.res.rising then .next (s.reservoirFails 2 false) else .next s

/-- TEST_NOW: a test when READY; back to CHARGING when ABSENT or FAILED (R292, R309). -/
def execTestNow (s : State) : Result :=
  match s.res.st with
  | .ready => .next (if s.flag .PRC_RES_STATUS_CHG_EN 0 then s.startTest else s)
  | .absent | .failed => .next s.recharge
  | .charging | .testing | .held => .next s

end Sys2Proof.Machine
end

