-- ==== Sys2Proof/Machine/Porch.lean ====
section
/-! DEFINITION. The Porch: the filtered input, input failure, the hold-off, wake decisions and the slumber request
(R460 to R466). -/

namespace Sys2Proof.Machine

/-- The median of the last three samples (R460). -/
def median3 : List Nat → Option Nat
  | [a, b, c] => some (max (min a b) (min (max a b) c))
  | _ => none

/-- VIN_SAMPLE: the filtered VIN, the failure count, a dip that ends in time, and VIN_GOOD when it falls (R460, R462,
R464). -/
def execVinSample (reading : BitVec 12) (s : State) : Result :=
  if s.pw.dev == .noVstby then .next s
  else
    let hist := (reading.toNat :: s.pw.vinHistory).take 3
    let s := { s with pw := { s.pw with vinHistory := hist } }
    match median3 hist with
    | none => .next s
    | some v =>
      let s := s.setReg .PRC_IN_STATUS_VIN 0 v
      let s := if v < s.reg .PRC_IN_CFG_VIN_OK 0 then s.setFlag .PRC_IN_STATUS_VIN_GOOD 0 false else s
      if v < s.reg .PRC_IN_CFG_VIN_FAIL 0 then
        .next { s with pw := { s.pw with vinLow := s.pw.vinLow + 1 } }
      else
        let dip := s.pw.vinLow != 0 && s.pw.failLimit != 0
        let s := { s with pw := { s.pw with vinLow := 0, failLimit := max 1 (s.reg .PRC_IN_CFG_FAIL_TIME 0) } }
        .next (if dip then ((s.satReg .PRC_IN_STATUS_DIPS 0 1).emit srcDip).count 162 1 else s)

/-- INPUT_FAILURE: the filtered VIN stayed below VIN_FAIL for FAIL_TIME; what it does, by state (R462, R463). -/
def execInputFailure (s : State) : Result :=
  if s.pw.dev == .noVstby || s.pw.failLimit = 0 || s.reg .PRC_IN_CFG_VIN_FAIL 0 ≤ s.reg .PRC_IN_STATUS_VIN 0 then .next s
  else
    let s := { s with pw := { s.pw with failLimit := 0 } }
    let s := (s.satReg .PRC_IN_STATUS_FAILS 0 1).emit srcInputFailure
    match s.pw.dev with
    | .serving => .next (s.drainStart 0 .off)
    | .powering | .boot => .next s.offInPowerUp
    | .recovery => .next (if s.reg .FBX_SEQ_PHASE 0 == 2 then s else s.reverseToOff)
    | .slumber => .next s.breakSelfRefresh
    | .off | .standby | .draining | .halted | .thermalLatch | .seqFault | .noVstby => .next s

/-- RESERVOIR_EXHAUSTED: the bank reaches V_MIN before step 7 of a drain (R304). -/
def execReservoirExhausted (s : State) : Result :=
  let k := s.reg .HALL_DRAIN_STATUS_STEP 0
  if 1 ≤ k && k < 7 && s.reg .PRC_RES_STATUS_VOLTS 0 ≤ s.reg .PRC_RES_CFG0_V_MIN 0 then .next s.drainCut else .next s

/-- VIN_GOOD: the filtered VIN stayed at or above VIN_OK for HOLDOFF_MS; latched requests are acted on (R464). -/
def execVinGood (s : State) : Result :=
  if s.pw.dev == .noVstby || s.reg .PRC_IN_STATUS_VIN 0 < s.reg .PRC_IN_CFG_VIN_OK 0 then .next s
  else .next (s.setFlag .PRC_IN_STATUS_VIN_GOOD 0 true).tryPower

/-- A wake decision: in SLUMBER only, and held off as an on request is (R464, R466). -/
def State.wake (s : State) : State :=
  if s.pw.dev == .slumber then ({ s with pw := { s.pw with wakeLatched := true } } : State).tryPower else s

/-- WAKE_N: low for 1 ms (R466). -/
def execWakeN (s : State) : Result :=
  if s.pw.dev == .noVstby then .next s else .next (s.setFlag .PRC_IN_STATUS_WAKE_N 0 false).wake

/-- WAKE: a write of 1 to PRC_SLUMBER WAKE (R476). -/
def execWakeWrite (s : State) : Result := .next s.wake

/-- WAKE_BEAT: BEAT reaches WAKE_BEAT while WAKE_ARM is set (R466). -/
def execWakeBeat (s : State) : Result :=
  if s.flag .PRC_SLUMBER_WAKE_ARM 0 && s.reg .PRC_WAKE_BEAT 0 ≤ s.beat then .next s.wake else .next s

/-- A requester holds an extent of an ephemeral room (R465). -/
def State.ephemeralHeld (s : State) : Bool :=
  s.hp.extents.any fun e => match s.room e.room with | some r => !r.cfg.persistent | none => false

/-- SLUMBER_REQ (R441, R465). -/
def execSlumberReq (s : State) : Result :=
  if s.pw.dev == .noVstby then .next s
  else if s.pw.dev != .serving || s.ephemeralHeld then
    .next ((s.setFlag .PRC_SLUMBER_REFUSED 0 true).emit srcSlumberRefused)
  else
    let s := s.setFlag .PRC_SLUMBER_REFUSED 0 false
    let s := s.setFlag .PRC_IN_STATUS_SR_BROKEN 0 false
    .next (({ s with pw := { s.pw with slumbering := true } } : State).drainStart 1 .slumber)

end Sys2Proof.Machine
end

