-- ==== Sys2Proof/Machine/Thermal.lean ====
section
/-! DEFINITION. The Chimney: sensor conversions, the three levels, the throttle stage and thermal shutdown
(R468 to R473). -/

namespace Sys2Proof.Machine

/-- A raw count as a temperature in 0.25 °C: linear between the trim counts at 25 °C and 105 °C (R468). -/
def sensorTemp (i count : Nat) : Int :=
  100 + ((count : Int) - Config.trim25 i) * 320 / ((Config.trim105 i : Int) - Config.trim25 i)

/-- The event source of a sensor (R478, R479). -/
def srcSensor (i : Nat) : Nat := if i < 8 then srcHallSensor i else srcWingSensor i

/-- The sensors of the Hall die, or of a wing's. -/
def dieSensors (d : Nat) : List Nat := if d = 0 then List.range 8 else (List.range 12).map fun k => 8 + 12 * (d - 1) + k

/-- A sensor's last reading. -/
def State.sensor (s : State) (i : Nat) : Int := signed16 (s.reg .CHM_TS_TEMP i)

/-- Every sensor of one die has converted, and is invalid (R468). -/
def State.dieBlind (s : State) (d : Nat) : Bool :=
  (dieSensors d).all fun i => !s.flag .CHM_TS_VALID i && s.reg .CHM_TS_TEMP i != 0x8000

/-- The sensors that count, with their readings. -/
def State.validSensors (s : State) : List (Nat × Int) :=
  ((List.range 104).filter fun i => s.flag .CHM_TS_VALID i).map fun i => (i, s.sensor i)

/-- The readings the levels compare: the valid ones, and the throttle level for a die with none (R468, R470). -/
def State.levelReadings (s : State) : List Int :=
  let t := signed16 (s.reg .CHM_LEVELS_THROTTLE 0)
  s.validSensors.map Prod.snd ++ ((List.range 9).filter s.dieBlind).map fun _ => t

/-- A level's status bit: set at the level, cleared below it by the hysteresis (R470). -/
def levelNow (was : Bool) (level : Int) (hyst : Nat) (rs : List Int) : Bool :=
  rs.any (fun r => level ≤ r) || (was && rs.any fun r => level - hyst ≤ r)

/-- The highest reading, of the lowest-numbered sensor that has it. -/
def State.hottest (s : State) : Option (Nat × Int) :=
  s.validSensors.foldl (fun acc x => match acc with
    | some y => if y.2 < x.2 then some x else some y
    | none => some x) none

/-- MAX_STAGE as it acts (R477). -/
def State.maxStage (s : State) : Nat := max 1 (s.reg .CHM_CTRL_MAX_STAGE 0)

/-- A room's effective credit limit at a stage (R96, R471). -/
def creditLimit (credits stage : Nat) : Nat :=
  if stage = 0 then credits else max 16 (credits * (4 - stage) / 4)

/-- Sets the throttle stage; each room's limit follows at once (R471). -/
def State.setStage (s : State) (k : Nat) : State :=
  if s.reg .CHM_STATUS_STAGE 0 = k then s
  else
    let s := (s.setReg .CHM_STATUS_STAGE 0 k).count 164 1
    let s := { s with rooms := s.rooms.map fun (x : Nat × Room) =>
      (x.1, { x.2 with limit := creditLimit x.2.cfg.credits k }) }
    s.settle

/-- SHUTDOWN sets, by state (R472). -/
def State.thermalShutdown (s : State) : State :=
  match s.pw.dev with
  | .serving => (s.setFlag .CHM_STATUS_LATCH 0 true).drainStart 2 .thermalLatch
  | .draining =>
    let s := { s with pw := { s.pw with shutdownTo := .thermalLatch, slumbering := false, chipReset := false } }
    s.setFlag .CHM_STATUS_LATCH 0 true
  | .powering | .boot => s.offInPowerUp
  | .recovery => ({ s with pw := { s.pw with shutdownDue := true } } : State).setStage s.maxStage
  | .slumber => s.breakSelfRefresh
  | .off | .standby | .halted | .thermalLatch | .seqFault | .noVstby => s

/-- The three levels after a conversion (R470 to R472). -/
def State.thermalLevels (s : State) : State :=
  let rs := s.levelReadings
  let h := s.reg .CHM_LEVELS_HYST 0
  let warn := levelNow (s.flag .CHM_STATUS_WARN 0) (signed16 (s.reg .CHM_LEVELS_WARN 0)) h rs
  let throttle := levelNow (s.flag .CHM_STATUS_THROTTLE 0) (signed16 (s.reg .CHM_LEVELS_THROTTLE 0)) h rs
  let shut := levelNow (s.flag .CHM_STATUS_SHUTDOWN 0) (signed16 (s.reg .CHM_LEVELS_SHUTDOWN 0)) h rs
  let rose := throttle && !s.flag .CHM_STATUS_THROTTLE 0
  let fires := shut && !s.flag .CHM_STATUS_SHUTDOWN 0
  let s := (s.setFlag .CHM_STATUS_WARN 0 warn).level srcWarning warn
  let s := (s.setFlag .CHM_STATUS_THROTTLE 0 throttle).level srcThrottle throttle
  let s := (s.setFlag .CHM_STATUS_SHUTDOWN 0 shut).level srcShutdown shut
  let s := if rose then s.setStage 1 else s
  let s := if fires then s.thermalShutdown else s
  s.tryPower

/-- SENSOR_CONVERSION: a reading outside −55 °C to 150 °C is invalid; wing sensors convert only while the wing is on
(R468 to R470). -/
def execSensorConversion (ts : Sensor) (count : BitVec 16) (s : State) : Result :=
  let i := ts.val
  if s.pw.dev == .noVstby || (8 ≤ i && !(s.reg .FBX_PD_ON 0).testBit (6 + 5 * ((i - 8) / 12))) then .next s
  else
    let t := sensorTemp i count.toNat
    let ok := -220 ≤ t && t ≤ 600
    let s := (s.setReg .CHM_TS_TEMP i (unsignedOf 16 t)).setFlag .CHM_TS_VALID i ok
    let low := min (signed16 (s.reg .CHM_LEVELS_THROTTLE 0)) (signed16 (s.reg .CHM_LEVELS_SHUTDOWN 0))
    let s := (s.setFlag .CHM_TS_FAST i (low - 32 ≤ t)).setReg .CHM_TS_COUNT i count.toNat
    let s := if s.flag .CHM_TS_FAST i then s.count 165 1 else s
    let s := s.level (srcSensor i) !ok
    let s := match s.hottest with
      | some (j, v) => (s.setReg .CHM_STATUS_HOTTEST 0 j).setReg .CHM_STATUS_TEMP 0 (unsignedOf 16 v)
      | none => s
    .next s.thermalLevels

/-- STAGE_STEP: up by one while THROTTLE is set, down by one after it clears, and never above MAX_STAGE (R471). -/
def execStageStep (s : State) : Result :=
  let k := s.reg .CHM_STATUS_STAGE 0
  let k' := if s.flag .CHM_STATUS_THROTTLE 0 then min s.maxStage (k + 1) else min s.maxStage (k - 1)
  if s.pw.dev.hallOn then .next (s.setStage k') else .next s

end Sys2Proof.Machine
end

