-- ==== Sys2Proof/Machine/RackTime.lean ====
section
/-! DEFINITION. Rack time: beats counted and missed, epochs and steps, correction records, ages and drift classes
(R227 to R242). -/

namespace Sys2Proof.Machine

/-! ### Time states (R231) -/

/-- STATE of PRC_RT_STATE: 0 UNKNOWN, 1 LOCKED, 2 HOLDOVER, 3 FROZEN. -/
def State.timeState (s : State) : Nat := s.reg .PRC_RT_STATE 0

/-- Moves rack time to a state; HOLDOVER and FROZEN are levels (R478). -/
def State.setTime (s : State) (t : Nat) : State :=
  ((s.setReg .PRC_RT_STATE 0 t).level srcHoldover (t == 2)).level srcFrozen (t == 3)

/-- LOCKED or HOLDOVER, as RBEAT allows (R232, R235). -/
def State.timeByRbeat (s : State) : Nat := if s.reg .PRC_RT_STATE_MISSING 0 < 3 then 1 else 2

/-! ### Correction records (R239, R240) -/

/-- The merge of two records (R240). -/
def Correction.merge (a b : Correction) : Correction :=
  let mid := (a.shift + b.shift) / 2
  { first := a.first, last := b.last, shift := mid
    spread := max ((mid - a.shift).natAbs + a.spread) ((mid - b.shift).natAbs + b.spread) }

/-- Adds a record; a 17th merges the two oldest, and the Cupboard takes the change (R240). -/
def State.addCorrection (s : State) (c : Correction) : State :=
  let l := s.rt.corrections
  let l := match l with
    | a :: b :: rest => if l.length < 16 then l ++ [c] else a.merge b :: rest ++ [c]
    | _ => l ++ [c]
  let i := l.length - 1
  let s := { s with rt := { s.rt with corrections := l } }
  s.queueRecord [2770 + 2 * i] [2771 + 2 * i] (.corrections l)

/-- The record of a step that leaves a state: SHIFT and SPREAD of R239, over the age units since LOCKED or the start. -/
def State.correct (s : State) (shift : Int) (spread : Nat) : State :=
  s.addCorrection { first := s.rt.lastLocked, last := s.ageUnit, shift := shift, spread := spread }

/-! ### Counting (R227, R228, R233, R235) -/

/-- FROZEN ends when the shadow count reaches the held BEAT (R235, R239). -/
def State.thaw (s : State) : State :=
  if s.timeState == 3 && s.beat ≤ s.rt.shadow then
    let m := s.rt.frozenBy
    (s.correct (-((m / 2 : Nat) : Int)) (m / 2 + 1)).setTime s.timeByRbeat
  else s

/-- What happens at every counted beat beside the count: the phase follows the pool index, a charge test falls due and
the budget is computed (R253, R260, R293, R294). -/
def State.atBeat (s : State) : State :=
  let period := 1024 * max 1 (s.reg .PRC_RES_CFG1_CT_PERIOD 0)
  let s := s.setReg .PRC_RT_PHASE 0 (s.reg .LND_STATE_INDEX 0 % 16)
  let s := if s.beat % period == 0 then { s with res := { s.res with testDue := true } } else s
  s.computeBudget

/-- Counts one beat: BEAT, or the shadow count in FROZEN, where BEAT and FRAC hold (R231, R235). -/
def State.countBeat (s : State) : State :=
  if s.timeState == 3 then
    ({ s with rt := { s.rt with shadow := s.rt.shadow + 1 } } : State).thaw.atBeat
  else
    let s := (s.setReg .PRC_RT_BEAT 0 (s.beat + 1)).setReg .PRC_RT_FRAC 0 0
    let s := if s.timeState == 1 then { s with rt := { s.rt with lastLocked := s.ageUnit } } else s
    s.atBeat

/-- FRAC at an instant between two counted beats: held in FROZEN, and otherwise a free value, for the model keeps no
clock (R228). -/
def State.fracNow (s : State) : Nat × State :=
  if s.timeState == 3 then (s.reg .PRC_RT_FRAC 0, s)
  else
    let (v, s) := s.free
    let f := v.toNat % 2 ^ 32
    (f, s.setReg .PRC_RT_FRAC 0 f)

/-- An interval is within 2 % of the learned period (R233). -/
def steadyInterval (period interval : Nat) : Bool := 98 * period ≤ 100 * interval && 100 * interval ≤ 102 * period

/-- The learned period with one more interval: the mean of the last 64 (R227). -/
def State.learn (s : State) (interval : Nat) : State :=
  let l := (interval :: s.rt.intervals).take 64
  let s := { s with rt := { s.rt with intervals := l } }
  s.setReg .PRC_RT_FRAC_PERIOD 0 (l.sum / l.length)

/-- RBEAT_EDGE: a glitch, an edge that is counted, or one more edge towards the end of HOLDOVER (R227, R233). -/
def execRbeatEdge (interval10ns : Nat) (s : State) : Result :=
  let period := s.reg .PRC_RT_FRAC_PERIOD 0
  if s.pw.dev == .noVstby then .next s
  else if 2 * interval10ns < period then .next (s.satReg .PRC_RT_STATE_GLITCHES 0 1)
  else if s.reg .PRC_RT_STATE_MISSING 0 < 3 then
    .next ((s.setReg .PRC_RT_STATE_MISSING 0 0).learn interval10ns).countBeat
  else
    let n := if steadyInterval period interval10ns then s.rt.steady + 1 else 0
    let s := { s with rt := { s.rt with steady := n } }
    if n < 8 then .next s
    else
      let s := { s with rt := { s.rt with steady := 0 } }
      let s := s.setReg .PRC_RT_STATE_MISSING 0 0
      .next (if s.timeState == 2 then s.setTime 1 else s)

/-- MISSING_BEAT: the device counts the beat itself; three in a row lead to HOLDOVER (R227, R232). -/
def execMissingBeat (s : State) : Result :=
  if s.pw.dev == .noVstby || s.reg .PRC_RT_FRAC_PERIOD 0 = 0 then .next s
  else
    let s := (s.satReg .PRC_RT_STATE_MISSING 0 1).countBeat
    let s := { s with rt := { s.rt with steady := 0 } }
    .next (if 3 ≤ s.reg .PRC_RT_STATE_MISSING 0 && s.timeState == 1 then s.setTime 2 else s)

/-! ### Epochs (R229, R234 to R239) -/

/-- A step by `d` beats from the number a beat had (R234, R235, R239). -/
def State.takeStep (s : State) (d : Int) : State :=
  let was := s.timeState
  let s := (s.satReg .PRC_RT_STATE_STEPS 0 1).emit srcStep
  let beats := (s.ageUnit - s.rt.lastLocked) * 1024
  let s := match was with
    | 0 => s.correct d (1 + beats * 50 / 1000000)
    | 2 => s.correct (d / 2) (d.natAbs / 2 + 1)
    | _ => s
  if 0 < d then
    let s := s.setReg .PRC_RT_BEAT 0 (s.beat + d.toNat)
    s.setTime s.timeByRbeat
  else
    let m := d.natAbs
    let s := { s with rt := { s.rt with shadow := s.beat - m, frozenBy := m } }
    s.setTime 3

/-- An epoch in FROZEN is compared with the shadow count: ahead of BEAT it ends FROZEN, else the count follows it. -/
def State.epochFrozen (s : State) (d : Int) : State :=
  let shadow := ((s.rt.shadow : Int) + d).toNat
  let s := (s.satReg .PRC_RT_STATE_STEPS 0 1).emit srcStep
  let s := { s with rt := { s.rt with shadow := shadow } }
  let held := s.beat
  let s := s.thaw
  if held < shadow then s.setReg .PRC_RT_BEAT 0 shadow else s

/-- An epoch message: E is the number of the last beat counted, or of the one before when the two FRACs say that the
message crossed a beat (R229). -/
def State.epoch (s : State) (e p : Nat) : State :=
  let (frac, s) := s.fracNow
  let back := if frac < 0x40000000 && 0xC0000000 < p then 1 else 0
  let frozen := s.timeState == 3
  let own : Nat := (if frozen then s.rt.shadow else s.beat) - back
  let d : Int := (e : Int) - own
  let s := s.setReg .PRC_RT_EPOCH_LAST_E 0 e
  let s := { s with rt := { s.rt with epochSeen := true } }
  if d = 0 then (if s.timeState == 0 then s.setTime s.timeByRbeat else s)
  else if frozen then s.epochFrozen d
  else s.takeStep d

/-! ### Ages (R241 to R245) -/

/-- The record that covers an age unit, the newest first (R242). -/
def State.correctionFor (s : State) (age : Nat) : Option Correction :=
  s.rt.corrections.reverse.find? fun c => c.first ≤ age && age ≤ c.last

/-- The two ends of a frame's age interval, in age units (R242). -/
def State.ageInterval (s : State) (f : Frame) : Nat × Nat :=
  let (shift, spread) := match s.correctionFor f.age with
    | some c => (c.shift, c.spread)
    | none => (0, 0)
  let at_ : Int → Nat := fun (off : Int) => (((s.beat : Int) - off) / 1024 - f.age).toNat
  (at_ (shift + spread), at_ (shift - spread))

/-- The drift class of an age (R242). -/
def driftClass (a : Nat) : Nat := if a = 0 then 0 else min 15 (1 + log2 a)

/-- How a frame is read (R245). -/
inductive ReadPlan where
  | within (k : Nat)
  | across (k : Nat)
  | search
  deriving DecidableEq, Repr

/-- The read sequence of R245 for a frame. -/
def State.readPlan (s : State) (f : Frame) : ReadPlan :=
  let (lo, hi) := s.ageInterval f
  let a := driftClass lo
  let b := driftClass hi
  let before := s.timeState == 0 && f.age < s.rt.lastLocked
  if f.ageUnknown || before || a + 2 ≤ b then .search
  else if a == b then .within a
  else .across (driftClass ((lo + hi) / 2))

end Sys2Proof.Machine
end

