-- ==== Sys2Proof/Machine/Calendar.lean ====
section
/-! DEFINITION. The calendar: what fires at its beat (R216, R224, R249 to R257, R331, R332, R493, R497). The command
says that the beat has come; the calendar does not run while the wings are off. -/

namespace Sys2Proof.Machine

/-- Calendar events run: the wings are up and recovery is over (R252, R467). -/
def State.calendarRuns (s : State) : Bool :=
  s.plan.isSome && (s.pw.dev == .serving || s.pw.dev == .draining || s.pw.dev == .halted && s.reg .FBX_PD_ON 0 / 64 != 0)

/-- CHECKPOINT (R331). -/
def execCheckpoint (s : State) : Result :=
  if s.calendarRuns then .next s.checkpointNow else .next s

/-- DESCRIPTOR_REWRITE: a metadata program at position 4 in the package's system area, behind its data frames (R254,
R257). The descriptors themselves are those of `frames`. -/
def execDescriptorRewrite (c : Cellar) (p : Pkg) (line : Nat) (copy : Fin 2) (s : State) : Result :=
  match s.profile c.val with
  | some m =>
    if s.calendarRuns && s.cellarUp c.val && (s.packages c.val).contains p.val then
      .next (s.queueOp (mediaOp .metadata 4 (frameAt c.val p.val (m.frames + (2 * line + copy.val) / 16))
        ((2 * line + copy.val) % 16)))
    else .next s
  | none => .next s

/-- CUPBOARD_ANCHOR (R332). -/
def execCupboardAnchor (s : State) : Result :=
  if s.calendarRuns then .next s.anchorNow else .next s

/-- ATTIC_FLUSH (R497). -/
def execAtticFlush (s : State) : Result :=
  if s.calendarRuns then .next s.flushAttic else .next s

/-! ### The health sample (R216, R224) -/

/-- The frames of some packages that are not retired: their number, the sum of their PCOUNT and the highest. -/
def State.wear (s : State) (pkgs : List (Nat × Nat)) : Nat × Nat × Nat :=
  pkgs.foldl
    (fun acc x =>
      let l := s.listed x.1 x.2
      let all := match s.profile x.1 with | some m => m.frames | none => 0
      let live := (l.filter fun f => f.2.st != 4).map fun f => f.2.pcount
      (acc.1 + (all - (l.countP fun f => f.2.st == 4)), acc.2.1 + live.sum, live.foldl max acc.2.2))
    (0, 0, 0)

/-- A mean, 0 over nothing. -/
def meanOf (sum n : Nat) : Nat := if n = 0 then 0 else sum / n

/-- The temperature fields of a cellar's packages. -/
def tempFlds : List Fld :=
  [.CEL_TEMP0, .CEL_TEMP0_TEMP1, .CEL_TEMP0_TEMP2, .CEL_TEMP0_TEMP3, .CEL_TEMP1_TEMP4, .CEL_TEMP1_TEMP5,
   .CEL_TEMP1_TEMP6, .CEL_TEMP1_TEMP7]

/-- The temperature field of a package. -/
def tempFld (p : Nat) : Fld := tempFlds.getD p .CEL_TEMP0

/-- The temperatures of a cellar's packages that have been read. -/
def State.pkgTemps (s : State) (c : Nat) : List Int :=
  ((tempFlds.map fun f => s.reg f c).filter fun v => v != 0x8000).map signed16

/-- A histogram bin (R224): bin i from −20 + 5i °C; the ends take the rest. -/
def histBin (t : Int) : Nat := min 31 ((t + 80) / 20).toNat

/-- The highest of some readings. -/
def hottestOf (l : List Int) : Option Int := l.max?

/-- One health sample of a cellar: wear and the media histogram. -/
def State.healthCellar (s : State) (c : Nat) : State :=
  let (n, sum, top) := s.wear ((s.allPackages).filter fun x => x.1 == c)
  let s := (s.setReg .CEL_WEAR_MAX c top).setReg .CEL_WEAR_MEAN c (meanOf sum n)
  match hottestOf (s.pkgTemps c) with
  | some t => s.satReg .CEL_HIST_COUNT (32 * c + histBin t) 1
  | none => s

/-- The free frames of a wing that a migration may take. -/
def State.wingFree (s : State) (w : Nat) : List (FrameAddr × Frame) :=
  (s.cellarOrder w []).flatMap fun c => (s.packageOrder c).flatMap fun p => s.freeFrameList c p

/-- The target of a hot frame: PCOUNT at most M, on the same wing when it has one (R216). -/
def State.hotTarget (s : State) (wings : List Nat) : Option FrameAddr :=
  wings.findSome? fun w => s.frameInWing w [] fun f => f.pcount ≤ s.meanWear

/-- The target of a cold frame: the highest PCOUNT not above M + DELTA, on the same wing when it has one (R216). -/
def State.coldTarget (s : State) (wings : List Nat) : Option FrameAddr :=
  let top := s.meanWear + s.wearDelta
  wings.findSome? fun w =>
    (leastBy (fun x => 2 ^ 32 - x.2.pcount) ((s.wingFree w).filter fun x => x.2.pcount ≤ top)).map Prod.fst

/-- Queues the migration of a page onto a target, marked STATE 5 (R216, R217). -/
def State.queueMigration (s : State) (a : FrameAddr) (hot : Bool) : State :=
  match s.pageOf a with
  | none => s
  | some (room, page) =>
    let k := pageKey room page
    if s.opQueued (.migrate k) 0 || s.md.wear.contains k then s
    else
      let (st, _) := s.stripeOf page
      let held := if s.isBraced room && s.part != .y2 then
          ((s.stripe room st).frames.map FrameAddr.wing).filter fun w => w != a.wing else []
      let wings := a.wing :: (s.wingsByDistance a.wing).filter fun w => w != a.wing && !held.contains w
      match (if hot then s.hotTarget wings else s.coldTarget wings) with
      | some b => (s.useFrame b room (s.localIndex page) (s.home room page) 0 5).queueOp (mediaOp (.migrate k) 6 b 0)
      | none => s

/-- The frames in use that R216 queues: hot ones, and cold ones whose page had no write-back for 65,536 beats. -/
def State.worn (s : State) : List (FrameAddr × Bool) :=
  (s.md.frames.filter fun x => x.2.st == 2 && x.2.role == 0).filterMap fun x =>
    let f := x.2
    if s.meanWear + s.wearDelta < f.pcount then some (frameOfKey x.1, true)
    else if f.pcount + s.wearDelta < s.meanWear && f.wroteAt + 65536 ≤ s.beat then some (frameOfKey x.1, false)
    else none

/-- HEALTH_SAMPLE (R224): M and the highest PCOUNT, retired frames, the histograms, and the migrations due. -/
def execHealthSample (s : State) : Result :=
  if !s.calendarRuns then .next s
  else
    let (n, sum, top) := s.wear s.allPackages
    let s := (s.setReg .HALL_MEDIA_WEAR_MEAN 0 (meanOf sum n)).setReg .HALL_MEDIA_WEAR_MAX 0 top
    let s := s.setReg .HALL_MEDIA_RETIRED 0 ((s.allPackages.map fun x => s.retiredFrames x.1 x.2).sum)
    let s := s.cellars.foldl State.healthCellar s
    let s := match s.hottest with
      | some (_, t) => s.satReg .HALL_JUNCTION_HIST_COUNT (histBin t) 1
      | none => s
    .next (s.worn.foldl (fun s x => s.queueMigration x.1 x.2) s.spareLevels)

/-! ### Buckets and the sketch -/

/-- BUCKET_LEAK: LEVEL falls by one where LEAK divides the beat; a LEAK of 0 acts as 1 (R493). -/
def execBucketLeak (s : State) : Result :=
  .next ((List.range 2048).foldl
    (fun s k =>
      let v := s.reg .FLT_SRC_LEVEL k
      if v != 0 && s.beat % max 1 (s.reg .FLT_SRC_LEAK k) == 0 then s.setReg .FLT_SRC_LEVEL k (v - 1) else s)
    s)

/-- SKETCH_DECAY: every count of the wing's sketch is halved (R164). -/
def execSketchDecay (w : Wing) (s : State) : Result :=
  .next { s with ti := { s.ti with sketch := s.ti.sketch.map fun (x : Nat × Sketch) =>
    if x.1 / 2 ^ 20 == w.val then (x.1, { x.2 with reads := x.2.reads / 2, writes := x.2.writes / 2 }) else x } }

/-! ### Scrub, age units and cadence frames -/

/-- Programmed media lines of the frames in use on a wing (R251). -/
def State.scrubTotal (s : State) (w : Nat) : Nat :=
  ((s.md.frames.filter fun x => (frameOfKey x.1).wing == w && x.2.st == 2).map fun x =>
    ((x.2.lines.map fun l => l.1 / 4).dedup).length).sum

/-- One more line scrubbed in a wing's pass, and PROGRESS with it (R251). -/
def State.scrubbed (s : State) (w : Nat) : State :=
  match look s.md.scrub w with
  | none => s
  | some n =>
    let total := s.scrubTotal w
    let s := { s with md := { s.md with scrub := put s.md.scrub w (n + 1) } }
    (s.setReg .WING_SCRUB_PROGRESS w (if total = 0 then 10000 else min 10000 ((n + 1) * 10000 / total))).count
      (512 + 768 * w + 706) 1

/-- SCRUB_PASS_START: a new pass, or one more late pass while the last is unfinished (R251). -/
def execScrubPassStart (w : Wing) (s : State) : Result :=
  let w := w.val
  if !s.calendarRuns || !s.wings.contains w then .next s
  else
    match look s.md.scrub w with
    | some n =>
      if n < s.scrubTotal w then .next (s.satReg .WING_SCRUB_SCRUB_LATE w 1)
      else .next (({ s with md := { s.md with scrub := put s.md.scrub w 0 } } : State).setReg .WING_SCRUB_PROGRESS w 0)
    | none => .next (({ s with md := { s.md with scrub := put s.md.scrub w 0 } } : State).setReg .WING_SCRUB_PROGRESS w 0)

/-- Queues a frame for refresh: a horizon case goes ahead of the others (R249). -/
def State.queueRefresh (s : State) (a : FrameAddr) (horizon : Bool) : State :=
  if s.md.refresh.any fun x => x.1 == a.key then s
  else
    let o := mediaOp .refresh 7 a 0
    let later := s.md.queue.filter fun (x : MediaOp) =>
      horizon && x.kind == .refresh && s.md.refresh.any fun y => y.1 == x.at_.key && !y.2
    let first := s.md.queue.filter fun (x : MediaOp) => !later.contains x
    { s with md := { s.md with refresh := s.md.refresh ++ [(a.key, horizon)], queue := first ++ [o] ++ later } }

/-- The horizon of R44, in age units. -/
def State.horizon (s : State) : Nat := match s.plan with | some p => p.limits.horizon | none => 0

/-- Frames in use whose age interval reaches the horizon, oldest first (R249). -/
def State.atHorizon (s : State) : List (Nat × Frame) :=
  sortBy (fun (x : Nat × Frame) => 2 ^ 64 - (s.ageInterval x.2).2)
    (s.md.frames.filter fun x => x.2.st == 2 && s.horizon ≤ (s.ageInterval x.2).2)

/-- AGE_UNIT_TICK: expired correction records go, and the refresh check runs; not in FROZEN, and without the horizon
case in UNKNOWN (R240, R249, R252). -/
def execAgeUnitTick (s : State) : Result :=
  if !s.calendarRuns || s.timeState == 3 then .next s
  else
    let now := s.ageUnit
    let s := { s with rt := { s.rt with corrections := s.rt.corrections.filter fun c => now ≤ c.last + s.horizon } }
    if s.timeState == 0 then .next s
    else .next (s.atHorizon.foldl (fun s x => s.queueRefresh (frameOfKey x.1) true) s)

/-- CADENCE_FRAME: the frame's allowances start anew on the wing's channels (R253, R254). -/
def execCadenceFrame (w : Wing) (s : State) : Result :=
  .next { s with md := { s.md with slots := s.md.slots.filter fun x => x.1 / 4 != w.val } }

end Sys2Proof.Machine
end

