-- ==== Sys2Proof/Machine/MediaExec.lean ====
section
/-! DEFINITION. The media channels' commands: program slots, reads with their outcomes, status records, suspension,
temperatures, timeouts and the switch of a migration (R185 to R222, R243 to R255). -/

namespace Sys2Proof.Machine

/-! ### Program slots (R205, R206, R254) -/

/-- Lets the drain and the requests go on after a change in the media. -/
def State.mediaStep (s : State) : State := s.settle.drainAdvance

/-- A dirty line's MAC failed as a write-back took it: tampering. During a drain the page is skipped and the drain goes
on (R205, R338). -/
def State.tampered (s : State) (k line : Nat) : State :=
  let room := keyRoom k
  let page := keyPage k
  let draining := s.reg .HALL_DRAIN_STATUS_STEP 0 != 0
  let s := if draining then
      { s with md := { s.md with
        skipped := if s.md.skipped.contains k then s.md.skipped else s.md.skipped ++ [k]
        queue := s.md.queue.filter fun (o : MediaOp) => o.kind != .writeBack k } }
    else s
  s.lockdown room page line 1 (s.home room page)

/-- Lines of a plain room programmed with POISON set, because the merging read failed (R206). -/
def State.poisonedInMerge (s : State) (o : MediaOp) (lines : SMap StoredLine) : State :=
  match o.kind with
  | .writeBack k =>
    lines.foldl (fun s x => if x.2.poison then s.listPoison (keyRoom k) (keyPage k) x.1 else s) s
  | _ => s

/-- A free frame the background erase may take (R215). -/
def State.eraseChoice (s : State) (c : Nat) : Option MediaOp :=
  ((s.packageOrder c).findSome? fun p => (s.freeFrameList c p).find? fun x => x.2.st == 0).bind fun x =>
    let o := mediaOp .erase 8 x.1 0
    if s.admits o then some o else none

/-- PROGRAM_SLOT: the slot goes to the first waiting operation it admits; background erase is last (R205, R206, R215,
R254, R255, R338). -/
def execProgramSlot (c : Cellar) (macFails : BitVec 4) (readOk : Bool) (s : State) : Result :=
  let c := c.val
  if !s.pw.dev.hallOn || s.plan.isNone || s.inReset (.cellar c) then .next s
  else match s.slotChoice c with
    | some o =>
      let bad := match o.kind with
        | .writeBack k =>
          ((List.range 4).find? fun i => macFails.getLsbD i &&
            (match (s.page (keyRoom k) (keyPage k)).slot with | some sl => sl.dirty.getLsbD (4 * o.ml + i) | none => false)).map
            fun i => (k, 4 * o.ml + i)
        | _ => none
      match bad with
      | some (k, line) => .next (s.tampered k line).mediaStep
      | none =>
        let lines := s.opLines o readOk
        .next ((s.poisonedInMerge o lines).issue o lines).mediaStep
    | none =>
      if s.flag .CEL_CTRL_BG_ERASE c && s.pw.dev == .serving then
        match s.eraseChoice c with
        | some o => .next ((s.queueOp o).issue o [])
        | none => .next s.mediaStep
      else .next s.mediaStep

/-! ### Write-back selection (R170, R178) -/

/-- A page's write-back is not queued yet. -/
def State.writeBackFree (s : State) (k : Nat) : Bool :=
  !((s.md.queue ++ s.md.inflight).any fun o => o.kind == .writeBack k)

/-- The page R170 chooses on a wing: a dirty victim or a TIER 2 page, then the oldest while the wing is above WB_HIGH of
its share or the device paces, then one older than WB_AGE. A wing's share is an equal part of the effective budget. -/
def State.writeBackChoice (s : State) (w : Nat) : Option Nat :=
  let mine := s.dirtyPages.filter fun x => s.home (keyRoom x.1) (keyPage x.1) == w && s.writeBackFree x.1
  let share := s.effective / max 1 (s.wings.countP s.wingUp)
  let high := max 1 (s.reg .LAR_CTRL_WB_HIGH w)
  let tier2 := fun (k : Nat) => match s.room (keyRoom k) with | some r => r.cfg.tier == 2 | none => false
  match mine.find? fun x => s.ti.demoting.contains x.1 || tier2 x.1 with
  | some x => some x.1
  | none =>
    match mine.head? with
    | none => none
    | some x =>
      let since := match x.2.slot with | some sl => sl.since | none => 0
      let age := (s.beat + 2 ^ 32 - since) % 2 ^ 32
      if high * share < 256 * s.dirtyOwn w || s.pacing || max 1 (s.reg .LAR_CTRL_WB_AGE w) < age then some x.1 else none

/-- WRITE_BACK_SELECTION (R170). -/
def execWriteBackSelection (w : Wing) (s : State) : Result :=
  match s.writeBackChoice w.val with
  | some k => .next (s.queueWriteBack (keyRoom k) (keyPage k) 5).mediaStep
  | none => .next s

/-! ### Reads of media lines (R202 to R204, R245 to R249) -/

/-- What a sequence of reads of one media line comes to. -/
inductive ReadEnd where
  | clean | corrected (bits : Nat) | retried | uncorrectable | pkgFailed | unfinished
  deriving DecidableEq, Repr

/-- Folds the reads in order: `limit` decodes may fail, two missing strobes and three bad transfers in a row are
repeated (R187, R197, R202, R245). -/
def readEnd (limit : Nat) : List Decoded → Nat → Nat → Nat → ReadEnd
  | [], _, _, _ => .unfinished
  | .clean :: _, 0, _, _ => .clean
  | .clean :: _, _ + 1, _, _ => .retried
  | .corrected n :: _, 0, _, _ => .corrected n
  | .corrected _ :: _, _ + 1, _, _ => .retried
  | .failed _ :: rest, f, _, _ => if limit ≤ f + 1 then .uncorrectable else readEnd limit rest (f + 1) 0 0
  | .noStrobe :: rest, f, n, _ => if n = 2 then .pkgFailed else readEnd limit rest f (n + 1) 0
  | .busCrc :: rest, f, _, n => if n = 3 then .pkgFailed else readEnd limit rest f 0 (n + 1)

/-- Writes CEL_ERR_LOC (R225). -/
def State.errLoc (s : State) (a : FrameAddr) (ml kind bits : Nat) : State :=
  let c := a.cellar
  let s := (s.setReg .CEL_ERR_LOC_FRAME c a.frame).setReg .CEL_ERR_LOC_PKG c a.pkg
  ((s.setReg .CEL_ERR_LOC_LINE c ml).setReg .CEL_ERR_LOC_KIND c kind).setReg .CEL_ERR_LOC_BITS c (min 31 bits)

/-- A counter of a cellar (R523). -/
def State.celCount (s : State) (c k n : Nat) : State := s.count (512 + 768 * (c / 4) + 64 * (c % 4) + k) n

/-- The bad transfers of a read are counted (R187). -/
def State.busCrcs (s : State) (a : FrameAddr) (ml n : Nat) : State :=
  if n = 0 then s
  else
    let c := a.cellar
    (((s.satReg .CEL_ERR1_BUS_CRC c n).errLoc a ml 6 0).emit (srcCellar c 5)).celCount c 10 n

/-- Queues a settle: a younger line decoded in a frame of class 4 or above, at most once in 1,024 beats (R249). -/
def State.settleFrame (s : State) (a : FrameAddr) (k : Nat) : State :=
  match s.frame a with
  | some f =>
    if k < 4 || (f.settled == s.ageUnit && f.settled != 0) then s
    else
      let s := s.setFrame a { f with settled := s.ageUnit }
      let s := (s.satReg .WING_DRIFT_SETTLES a.wing 1).emit (srcDrift a.wing 2)
      s.queueRefresh a false
  | none => s

/-- Counts the read sequence of R245 and its outcome (R202, R225, R246, R249, R260). -/
def State.countOutcome (s : State) (a : FrameAddr) (ml : Nat) (plan : ReadPlan) (tries : Nat) (v : ReadEnd) : State :=
  let c := a.cellar
  let w := a.wing
  let s := (s.celCount c 0 1).celCount c (if plan == ReadPlan.search then 2 else 1) (tries - 1)
  let s := match plan with
    | .search => (s.satReg .WING_DRIFT_SEARCHES w 1).count (512 + 768 * w + 704) 1
    | .across _ => s.satReg .WING_DRIFT_SPAN_READS w 1
    | .within _ => s
  match v with
  | .clean => s.celCount c 6 1
  | .corrected n =>
    let s := (((s.satReg .CEL_ERR0_CORRECTED c 1).errLoc a ml 1 n).emit (srcCellar c 0)).celCount c 7 1
    match s.profile c with
    | some m => if m.refreshBits ≤ n then s.queueRefresh a false else s
    | none => s
  | .retried =>
    let s := (((s.satReg .CEL_ERR0_RETRIED c 1).errLoc a ml 2 0).emit (srcCellar c 1)).celCount c 8 1
    match plan with
    | .within k => s.settleFrame a k
    | .across _ | .search => s
  | .uncorrectable =>
    let s := (((s.satReg .CEL_ERR0_UNCORR c 1).errLoc a ml 3 0).emit (srcCellar c 2)).celCount c 9 1
    match plan with
    | .search => (s.satReg .WING_DRIFT_SEARCH_FAIL w 1).emit (srcDrift w 0)
    | .within _ | .across _ => s
  | .pkgFailed | .unfinished => s

/-- The requests that wait for a line of a media line, in arrival order. -/
def State.mediaWaiters (s : State) (room page line : Nat) : List Nat :=
  (s.hp.pend.filter fun q => q.wait == .media && q.room == room &&
    (match q.todo with | o :: _ => o.page == page && o.line == line | [] => false)).map Req.id

/-- Answers the reads that wait for a line, with where it was served from. -/
def State.answerReads (s : State) (ids : List Nat) (source : Nat) (data : Line) (poison : Bool) : State :=
  ids.foldl
    (fun s i =>
      match s.hp.pend.find? fun (q : Req) => q.id == i with
      | some q =>
        let key := match q.todo with | o :: _ => lineKey q.room o.page o.line | [] => 0
        if q.takesEntry && (s.makeEntry key).2 then (s.makeEntry key).1.hold q .snoop
        else
          let s := if q.takesEntry then (s.makeEntry key).1 else s
          (s.lineDone { q with source := source } (some (data, poison))).1
      | none => s)
    s

/-- Marks a host line of a frame as poison, without programming it (R204). -/
def State.poisonStored (s : State) (a : FrameAddr) (line : Nat) : State :=
  match s.frame a with
  | some f =>
    let x := lookD f.lines line { ct := 0, mac := 0, poison := true }
    s.setFrame a { f with lines := put f.lines line { x with poison := true } }
  | none => s

/-- A line that could not be read: rebuilt and reprogrammed in a braced room, poison in a plain one; a failed search
poisons the waiting reads only (R204, R247, R353, R356). -/
def State.uncorrLine (s : State) (c : RoomCfg) (key : Key) (room page line : Nat) (a : FrameAddr) (searched : Bool) :
    State :=
  let ids := s.mediaWaiters room page line
  let b := (s.page room page).block (s.floorOf c)
  if c.braced then
    match s.rebuilt room page line with
    | some x =>
      if macOk key room page line b x then
        let s := s.countRead room page line 4 false
        let s := s.answerReads ids 4 (decryptLine key room page line b x) false
        s.queueOp { mediaOp (.logApply (pageKey room page)) 5 a (line / 4) with lines := [(line, x)] }
      else (s.countRead room page line 4 true).answerReads ids 4 0 true
    | none => (s.countRead room page line 4 true).answerReads ids 4 0 true
  else
    let s := if searched then s else (s.poisonStored a line).listPoison room page line
    s.answerReads ids 2 0 true

/-- A line that was read: its waiting reads are answered and the home slice takes it (R151, R203). -/
def State.goodLine (s : State) (c : RoomCfg) (key : Key) (room page line : Nat) (x : StoredLine) (asked : Bool) : State :=
  let ids := s.mediaWaiters room page line
  let w := s.home room page
  let b := (s.page room page).block (s.floorOf c)
  if x.poison then s.answerReads ids 2 0 true
  else
    let d := decryptLine key room page line b x
    let fill := asked && (!ids.isEmpty || s.flag .PAN_CFG_SECTOR_FILL w)
    let s := ids.foldl (fun s _ => ((s.roomCount room 8 1).count (512 + 768 * w + 321) 1).sketchRead c room page) s
    let s := if fill && (s.pantryLine room page line).isNone then
        (s.install w room page line { data := d, poison := false, st := .e, dirty := false }).count
          (512 + 768 * w + 322) (if ids.isEmpty then 1 else 0)
      else s
    (s.count (512 + 768 * w + 449) 1).answerReads ids 2 d false

/-- The host lines a media line delivers: those with a minor counter and nothing newer in the slot (R203). -/
def State.delivered (s : State) (c : RoomCfg) (room page ml : Nat) (arrived : Option (List StoredLine)) :
    List (Nat × StoredLine) :=
  let p := s.page room page
  let b := p.block (s.floorOf c)
  ((List.range 4).filter fun i => b.minor (4 * ml + i) != 0 && !p.slotHas (4 * ml + i)).map fun i =>
    (4 * ml + i, match arrived with
      | some l => l.getD i { ct := 0, mac := 0, poison := true }
      | none => (s.frameLine p (4 * ml + i)).getD { ct := 0, mac := 0, poison := true })

/-- A frame's UNC count, and its retirement at UNC_RETIRE (R204, R219). -/
def State.uncRead (s : State) (a : FrameAddr) : State :=
  match s.frame a, s.profile a.cellar with
  | some f, some m =>
    let n := satAdd 4 f.unc 1
    let s := s.setFrame a { f with unc := n }
    if m.uncRetire ≤ n && f.st == 2 then s.retireMove a [] else s
  | _, _ => s

/-- A media line with its verdict, in the page that its frame holds (R202 to R204). -/
def State.mediaLine (s : State) (a : FrameAddr) (room page ml : Nat) (v : ReadEnd) (searched : Bool)
    (arrived : Option (List StoredLine)) : State :=
  match s.room room with
  | none => s
  | some r =>
    match s.roomKey r.cfg with
    | none => s
    | some key =>
      let b := (s.page room page).block (s.floorOf r.cfg)
      let lines := s.delivered r.cfg room page ml arrived
      let asked := lines.any fun x => !(s.mediaWaiters room page x.1).isEmpty
      let fails := fun (x : Nat × StoredLine) => !x.2.poison && !macOk key room page x.1 b x.2 && arrived.isSome
      match v with
      | .clean =>
        match lines.find? fails with
        | some x => s.lockdown room page x.1 1 (s.home room page)
        | none => lines.foldl (fun s x => s.goodLine r.cfg key room page x.1 x.2 asked) s
      | .corrected _ | .retried =>
        lines.foldl
          (fun s x => if fails x then s.uncorrLine r.cfg key room page x.1 a false
            else s.goodLine r.cfg key room page x.1 x.2 asked) s
      | .uncorrectable =>
        let s := s.uncRead a
        lines.foldl (fun s x => s.uncorrLine r.cfg key room page x.1 a searched) s
      | .pkgFailed | .unfinished => s

/-- The operations suspended for a bank resume when no read waits for it (R192). -/
def State.resumeBank (s : State) (a : FrameAddr) : State :=
  match s.profile a.cellar with
  | none => s
  | some m =>
    if s.readQueued m a then s
    else { s with md := { s.md with inflight := s.md.inflight.map fun (o : MediaOp) =>
      if o.cellar == a.cellar && o.at_.pkg == a.pkg && m.bank o.at_.frame == m.bank a.frame then
        { o with suspended := false, suspending := false } else o } }

/-- Clears the runs of failures that an answered access ends. -/
def State.clearMisses (s : State) (c p : Nat) (kinds : List Nat) : State :=
  { s with md := { s.md with misses := s.md.misses.filter fun x => !kinds.contains (x.1 % 4) || x.1 / 4 != c * 8 + p } }

/-- The reads a plan allows before the line is uncorrectable (R245, R246). -/
def ReadPlan.limit : ReadPlan → Nat
  | .within _ => 2
  | .across _ | .search => 3

/-- MEDIA_READ_DATA: the reads of one media line in order, their outcome and its MACs; with no content given the line
arrives as it is stored (R187, R202 to R204, R245 to R249, R338). -/
def execMediaReadData (c : Cellar) (p : Pkg) (frame : Nat) (ml : MediaLineNo) (reads : List Decoded)
    (arrived : Option (List StoredLine)) (s : State) : Result :=
  let a := frameAt c.val p.val frame
  match s.frame a with
  | none => .next s
  | some f =>
    if !s.cellarUp c.val || !(s.packages c.val).contains p.val || !s.pw.dev.hallOn || s.inReset (.cellar c.val) then
      .next s
    else
      let plan := s.readPlan f
      let v := readEnd plan.limit reads 0 0 0
      let s := s.busCrcs a ml.val (reads.countP fun d => d == .busCrc)
      match v with
      | .unfinished => .next s
      | .pkgFailed => .next ((s.satReg .CEL_ERR1_TIMEOUT c.val 1).errLoc a ml.val 7 0 |>.losePackage c.val p.val).mediaStep
      | .clean | .corrected _ | .retried | .uncorrectable =>
        let s := (s.countOutcome a ml.val plan reads.length v).clearMisses c.val p.val [0, 2]
        let page := s.pageOf a
        let wanted := match page with
          | some (room, pg) => (List.range 4).any fun i => !(s.mediaWaiters room pg (4 * ml.val + i)).isEmpty
          | none => false
        let s := match page with
          | some (room, pg) => s.mediaLine a room pg ml.val v (plan == (ReadPlan.search)) arrived
          | none => s
        let s := if wanted then s else s.scrubbed a.wing
        .next (s.settle.resumeBank a).drainAdvance

/-! ### Status, suspension and temperatures (R188 to R197) -/

/-- DONE_N_LOW: the wing issues STATUS; what it collects comes with STATUS_RECORD (R188). -/
def execDoneNLow (_c : Cellar) (s : State) : Result := .next s

/-- A frame whose PCOUNT has reached 16 × RATED is moved and retired (R219). -/
def State.wornOut (s : State) (a : FrameAddr) : State :=
  match s.frame a, s.profile a.cellar with
  | some f, some m => if 16 * m.rated ≤ f.pcount && f.st == 2 then s.retireMove a [] else s
  | _, _ => s

/-- One operation in a status record: done, failed, or refused for a bad transfer and issued again (R187, R188). -/
def State.statusOf (s : State) (o : MediaOp) (done verifyFail crcFail : BitVec 64) : State :=
  if !s.md.inflight.contains o then s
  else if done.getLsbD o.tag then (s.opDone o).wornOut o.at_
  else if verifyFail.getLsbD o.tag then s.opFailed o
  else if crcFail.getLsbD o.tag then
    let s := { s with md := { s.md with
      inflight := s.md.inflight.erase o, queue := { o with suspended := false, suspending := false } :: s.md.queue } }
    s.busCrcs o.at_ o.ml 1
  else s

/-- One more failure in a row of a kind of access; true when it is the last allowed (R197). -/
def State.miss (s : State) (c p kind limit : Nat) : State × Bool :=
  let k := (c * 8 + p) * 4 + kind
  let n := lookD s.md.misses k 0 + 1
  ({ s with md := { s.md with misses := put s.md.misses k n } }, limit ≤ n)

/-- STATUS_RECORD: completions applied; a record that fails its CRC changes nothing, and comes again (R188, R189). -/
def execStatusRecord (c : Cellar) (p : Pkg) (done verifyFail crcFail : BitVec 64) (flags : Byte) (crcOk : Bool)
    (s : State) : Result :=
  if !s.cellarUp c.val || !(s.packages c.val).contains p.val || !s.pw.dev.hallOn then .next s
  else if !crcOk then
    let (s, last) := s.miss c.val p.val 2 4
    let s := s.busCrcs (frameAt c.val p.val 0) 0 1
    .next (if last then (s.losePackage c.val p.val).mediaStep else s)
  else
    let s := s.clearMisses c.val p.val [1, 2]
    let s := if flags.getLsbD 0 then s.busCrcs (frameAt c.val p.val 0) 0 1 else s
    let ops := s.md.inflight.filter fun o => o.cellar == c.val && o.at_.pkg == p.val
    .next (ops.foldl (fun s o => s.statusOf o done verifyFail crcFail) s).mediaStep

/-- Changes the operation of a tag in flight on a channel. -/
def State.modOp (s : State) (c tag : Nat) (f : MediaOp → MediaOp) : State :=
  { s with md := { s.md with inflight := s.md.inflight.map fun (o : MediaOp) =>
    if o.cellar == c && o.tag == tag then f o else o } }

/-- The operation of a tag in flight on a channel. -/
def State.opOf (s : State) (c tag : Nat) : Option MediaOp := s.md.inflight.find? fun o => o.cellar == c && o.tag == tag

/-- SUSPEND: a running operation is asked to suspend, while SUSPEND_EN is set (R192). -/
def execSuspendOp (c : Cellar) (tag : Fin 64) (s : State) : Result :=
  match s.opOf c.val tag.val with
  | some o =>
    if o.suspended || o.suspending || !s.flag .CEL_CTRL_SUSPEND_EN c.val then .next s
    else .next ((s.modOp c.val tag.val fun o => { o with suspending := true }).celCount c.val 5 1)
  | none => .next s

/-- BANK_SUSPENDED: tSUS is over, and the queued reads go out (R192, R193). -/
def execBankSuspended (c : Cellar) (tag : Fin 64) (s : State) : Result :=
  .next (s.modOp c.val tag.val fun o => if o.suspending then { o with suspending := false, suspended := true } else o)

/-- A window of R474 with a reading: left at the first reading outside, entered again at least 1 °C inside. -/
def holdNow (was : Bool) (lo hi t : Int) : Bool :=
  if t < lo || hi < t then true else if lo + 4 ≤ t && t ≤ hi - 4 then false else was

/-- A list of packages with one in it or not. -/
def setHeld (l : List Nat) (u : Nat) (on : Bool) : List Nat :=
  if on then (if l.contains u then l else l ++ [u]) else l.filter fun x => x != u

/-- WRITE_HOLD and ALERT of a cellar follow its packages; ALERT falls when every one reads inside its window
(R195; a choice of the model). -/
def State.holdLevels (s : State) (c : Nat) : State :=
  let on := (s.packages c).any fun p => s.md.held.contains (c * 8 + p)
  let s := (s.setFlag .CEL_STATUS_WRITE_HOLD c on).level (srcCellar c 7) on
  if on then s else s.setFlag .CEL_STATUS_ALERT c false

/-- TEMP_READ: a package's temperature moves it in or out of the media-write and the drain-write window; one that cannot
be read is outside both (R195, R474, R475). -/
def execTempRead (c : Cellar) (p : Pkg) (temp : Option (BitVec 16)) (s : State) : Result :=
  if !s.cellars.contains c.val || !s.pw.dev.hallOn then .next s
  else
    let u := c.val * 8 + p.val
    let w := fun (f : Fld) => signed16 (s.reg f 0)
    match temp with
    | none =>
      let s := { s with md := { s.md with held := setHeld s.md.held u true, drainHeld := setHeld s.md.drainHeld u true } }
      .next (s.holdLevels c.val).mediaStep
    | some v =>
      let t := v.toInt
      let held := holdNow (s.md.held.contains u) (w .CHM_WIN0_MEDIA_LO) (w .CHM_WIN0_MEDIA_HI) t
      let drain := holdNow (s.md.drainHeld.contains u) (w .CHM_WIN0_DRAIN_LO) (w .CHM_WIN0_DRAIN_HI) t
      let s := s.setReg (tempFld p.val) c.val v.toNat
      let s := { s with md := { s.md with held := setHeld s.md.held u held, drainHeld := setHeld s.md.drainHeld u drain } }
      .next ((s.clearMisses c.val p.val [1]).holdLevels c.val).mediaStep

/-- ALERT_N: the level, and a TEMP read of every package, which TEMP_READ reports (R195). -/
def execAlertN (c : Cellar) (s : State) : Result :=
  if s.cellars.contains c.val && s.pw.dev.hallOn then .next (s.setFlag .CEL_STATUS_ALERT c.val true) else .next s

/-- MEDIA_TIMEOUT: counted; the third missing strobe, the third silent TEMP or STATUS, the fourth bad transfer, and any
missing completion or IDENT mark the package failed (R197). -/
def execMediaTimeout (c : Cellar) (p : Pkg) (kind : TimeoutKind) (s : State) : Result :=
  if !s.cellars.contains c.val || !(s.packages c.val).contains p.val || !s.pw.dev.hallOn then .next s
  else
    let a := frameAt c.val p.val 0
    let s := (s.satReg .CEL_ERR1_TIMEOUT c.val 1).errLoc a 0 7 0
    let (s, lost) := match kind with
      | .readStrobe => s.miss c.val p.val 0 3
      | .tempOrStatus => s.miss c.val p.val 1 3
      | .transferCrc => s.miss c.val p.val 2 4
      | .completion | .identAfterReset => (s, true)
    .next (if lost then (s.losePackage c.val p.val).mediaStep else s)

/-! ### The switch of a migration (R217) -/

/-- The move target of a page. -/
def State.moveTarget (s : State) (room page : Nat) : Option FrameAddr :=
  (s.md.frames.find? fun x => x.2.st == 5 && x.2.room == room && x.2.index == s.localIndex page &&
    x.2.home == s.home room page).map fun x => frameOfKey x.1

/-- FRAME_MIGRATION_SWITCH: the entry names the target and is journalled, the target is in use, the old frame is overwritten
and then freed. A page released meanwhile leaves only the target (R132, R135, R217). -/
def execFrameMigrationSwitch (room : RoomNo) (page : Nat) (s : State) : Result :=
  let k := pageKey room.val page
  if !s.md.wear.contains k then .next s
  else
    let s := { s with md := { s.md with wear := s.md.wear.filter fun x => x != k } }
    match s.moveTarget room.val page with
    | none => .next s
    | some b =>
      let p := s.page room.val page
      match p.entry.frame, p.entry.lost with
      | some a, false =>
        let e := { p.entry with frame := some b }
        let s := (s.setPage room.val page { p with entry := e }).journalEntry room.val page e
        let s := match s.frame b with
          | some f => s.setFrame b { f with st := 2, age := s.ageUnit, ageUnknown := false }
          | none => s
        let (st, m) := s.stripeOf page
        let s := if s.isBraced room.val then
            let x := s.stripe room.val st
            s.setStripe room.val st { x with members := x.members.set m (some b) }
          else s
        let s := { s with md := { s.md with queue := s.md.queue.map fun (o : MediaOp) =>
          if o.kind == (OpKind.writeBack k) then { o with at_ := b, cellar := b.cellar } else o } }
        let s := ((s.leaveFrame a).emit (srcAlloc b.wing 2)).count (512 + 768 * b.wing + 707) 1
        .next s.mediaStep
      | _, _ => .next (s.leaveFrame b).mediaStep

end Sys2Proof.Machine
end

