-- ==== Sys2Proof/Machine/Coher.lean ====
section
/-! DEFINITION. Back-invalidate responses, requesters that fail, the host map buffer and the refill round
(R75, R76, R97, R121 to R124, R272). -/

namespace Sys2Proof.Machine

/-! ### Accesses to BAR0 by other requesters (R543) -/

/-- A BAR0 access of a requester that is not a management requester: discarded, with an event (R543). -/
def State.barRefused (s : State) (requester offset : Nat) : State := s.emitReq srcRefused requester 10 5 offset

/-! ### The host map buffer (R121 to R124) -/

/-- The buffer is dropped at once (R124). -/
def State.hmbStop (s : State) : State :=
  if !s.flag .HALL_HMB_STATUS_ACTIVE 0 then s
  else
    let s := { s with hp := { s.hp with hmbLeaves := [], hmbCached := [], hmbInUse := none } }
    let s := (s.setFlag .HALL_HMB_STATUS_ACTIVE 0 false).setFlag .HALL_HMB_STATUS_FAILED 0 true
    let s := (s.setFlag .HALL_HMB_STATUS_WITHDRAWN 0 true).satReg .HALL_HMB_STATUS_FAILS 0 1
    s.emit srcBuffer

/-- Leaves a wing's metadata area has room for (R33, R159). -/
def State.leafRoom (s : State) : Nat :=
  match s.plan with
  | some p => p.larder.capacity * 2 ^ 30 * p.larder.metaShare / 64 / 4096
  | none => 0

/-- The leaves in use, by room and leaf, rising. -/
def State.leaves (s : State) : List (Nat × Nat) :=
  ((s.ti.pages.filter fun x => x.2.entry != Page.blank.entry).map fun x =>
    (keyRoom x.1, s.leafOf (keyRoom x.1) (keyPage x.1))).dedup

/-- The leaves the buffer takes: of rooms with the attribute, those past what their wing's metadata area holds, as many
as the buffer has slots (R121; a choice of the model). -/
def State.hmbChoice (s : State) (slots : Nat) : List (Nat × Nat) :=
  let past := s.wings.flatMap fun w => (s.leaves.filter fun x => x.2 / 2 ^ 30 == w).drop s.leafRoom
  (past.filter fun x => match s.room x.1 with | some r => r.cfg.hmb | none => false).take slots

/-- Writes a leaf into the owner's memory, sealed under the buffer's key: bytes the spec does not give (R121). -/
def State.placeLeaf (s : State) (owner addr : Nat) : State :=
  let bytes := (List.range 64).flatMap fun i => bytesOf (Config.poisonData (s.fresh + i)) 0 64
  (({ s with fresh := s.fresh + 64 } : State).send (.memWrite owner addr bytes false)).count 450 1

/-- HMB_ENABLE: the base, the size and the owner are latched and leaves are placed (R121, R145). Setting ENABLE again
without clearing it changes only OWNER. -/
def execHmbEnable (requester owner : Requester) (s : State) : Result :=
  let req := s.requesterOf requester.val
  if !s.pw.dev.hallOn then .next s
  else if !s.isManagement req then .next (s.barRefused req 0x10000)
  else
    let was := s.flag .HALL_HMB_CTRL_ENABLE 0
    let s := (s.setReg .HALL_HMB_CTRL_OWNER 0 owner.val).setFlag .HALL_HMB_CTRL_ENABLE 0 true
    if was then .next s
    else
      let base := s.reg .HALL_HMB_BASE_ADDR 0 * 4096
      let slots := min 16777216 (s.reg .HALL_HMB_SIZE_SLOTS 0)
      let leaves := s.hmbChoice slots
      let s := { s with hp := { s.hp with hmbInUse := some (owner.val, base, slots), hmbLeaves := leaves, hmbCached := [] } }
      let s := (s.setFlag .HALL_HMB_STATUS_ACTIVE 0 true).setFlag .HALL_HMB_STATUS_FAILED 0 false
      let s := s.setFlag .HALL_HMB_STATUS_WITHDRAWN 0 leaves.isEmpty
      .next ((List.range leaves.length).foldl (fun s i => s.placeLeaf owner.val (base + 4096 * i)) s)

/-- HMB_WITHDRAWAL: fetches stop, the leaves leave the buffer and WITHDRAWN reads 1 (R123). -/
def execHmbWithdrawal (requester : Requester) (s : State) : Result :=
  let req := s.requesterOf requester.val
  if !s.pw.dev.hallOn then .next s
  else if !s.isManagement req then .next (s.barRefused req 0x10000)
  else
    let s := (s.setFlag .HALL_HMB_CTRL_ENABLE 0 false).count 451 s.hp.hmbLeaves.length
    let s := { s with hp := { s.hp with hmbLeaves := [], hmbCached := [], hmbInUse := none } }
    .next ((s.setFlag .HALL_HMB_STATUS_ACTIVE 0 false).setFlag .HALL_HMB_STATUS_WITHDRAWN 0 true).settle

/-- HMB_FETCH_DATA: a group of entries arrives and its MAC passes, or the buffer is dropped (R121, R124). -/
def execHmbFetchData (room : RoomNo) (page : Nat) (macOk error : Bool) (s : State) : Result :=
  if !s.hp.hmbLeaves.contains (room.val, s.leafOf room.val page) then .next s
  else
    let s := s.count 448 1
    if error || !macOk then .next s.hmbStop.settle
    else .next ({ s with hp := { s.hp with hmbCached := s.entryGroup room.val page :: s.hp.hmbCached } } : State).settle

/-- HMB_FETCH_TIMEOUT: the buffer is dropped (R124). -/
def execHmbFetchTimeout (room : RoomNo) (page : Nat) (s : State) : Result :=
  if !s.hp.hmbLeaves.contains (room.val, s.leafOf room.val page) then .next s
  else .next ((s.count 448 1).hmbStop.settle)

/-! ### Back-invalidate responses (R75, R76, R272) -/

/-- What an answered snoop leaves in the directory: an Inv answer ends the holding, a Data answer leaves it shared. -/
def DirEntry.snooped (e : DirEntry) (x : Snoop) : DirEntry :=
  match x.kind with
  | .inv => e.remove x.requester
  | .data => { e with hstate := if e.hstate == .a then .s else e.hstate }
  | .cur => e

/-- BIRSP: the snoop is complete and what waited on it goes on (R272). -/
def execBiRsp (requester : Requester) (room : RoomNo) (page : Nat) (line : Fin 64) (s : State) : Result :=
  let key := lineKey room.val page line.val
  match takeFirst (fun (x : Snoop) => x.requester == requester.val && x.key == key) s.hp.snoops with
  | none => .next s
  | some (x, rest) =>
    let s := ({ s with hp := { s.hp with snoops := rest } }).count 11 1
    let s := match look s.ti.dir key with
      | some e => s.setDir key (e.snooped x)
      | none => s
    .next s.settle

/-- BISNP_RESEND: an unanswered snoop goes out once more (R76). -/
def execBisnpResend (requester : Requester) (room : RoomNo) (page : Nat) (line : Fin 64) (s : State) : Result :=
  let key := lineKey room.val page line.val
  match s.hp.snoops.find? fun x => x.requester == requester.val && x.key == key && !x.resent with
  | none => .next s
  | some x =>
    let w := s.home room.val page
    let s := { s with hp := { s.hp with snoops := s.hp.snoops.map fun (y : Snoop) =>
      if y == x then { y with resent := true } else y } }
    let s := ((s.count 10 1).satReg .HOME_BISNP_SENT w 1).send (.snoop x.requester key x.kind)
    .next (s.emit (srcHome w 2))

/-- A requester is failed: its holdings are dropped, its snoops count as answered, and its requests are refused until it
is restored (R76). -/
def State.failRequester (s : State) (requester : Nat) : State :=
  if s.hp.failed.contains requester then s
  else
    let s := { s with hp := { s.hp with
      failed := s.hp.failed ++ [requester]
      snoops := s.hp.snoops.filter fun x => x.requester != requester } }
    let s := s.ti.dir.foldl (fun (s : State) (x : Nat × DirEntry) => s.setDir x.1 (x.2.remove requester)) s
    let s := s.satReg .HALL_HP_ERR_BI_FAILED 0 1
    let s := s.emitReq srcRequesterFailed requester 0 0 0
    let s := match s.hp.hmbInUse with
      | some (owner, _, _) => if owner == requester then s.hmbStop else s
      | none => s
    s.settle

/-- REQUESTER_FAILED: a snoop sent twice has no answer (R76). -/
def execRequesterFailed (requester : Requester) (s : State) : Result :=
  if s.hp.snoops.any fun x => x.requester == requester.val && x.resent then .next (s.failRequester requester.val)
  else .next s

/-! ### The refill round (R97) -/

/-- REFILL_ROUND: every room gets WEIGHT times TOKEN_SCALE tokens, and its credit limit is applied again (R96 to R98). -/
def execRefillRound (s : State) : Result :=
  if !s.pw.dev.hallOn then .next s
  else
    let scale := max 1 (s.reg .HALL_QOS_CTRL_TOKEN_SCALE 0)
    let stage := s.reg .CHM_STATUS_STAGE 0
    .next ({ s with rooms := s.rooms.map fun (x : Nat × Room) =>
      (x.1, { x.2 with tokens := x.2.cfg.weight * scale, limit := creditLimit x.2.cfg.credits stage }) } : State).settle

/-- GLOBAL_PERSISTENT_FLUSH: both phases are answered with a GPF time of 1 µs; nothing drains (R77). -/
def execGlobalPersistentFlush (phase : Fin 2) (s : State) : Result :=
  if s.hp.link != .l0 || !s.pw.dev.hallOn then .next s else .next (s.send (.gpf phase.val 1))

end Sys2Proof.Machine
end

