-- ==== Sys2Proof/Machine/LarderExec.lean ====
section
/-! DEFINITION. The Larder's commands: promotions, reads with their outcomes, scrub, temperatures; paced writes and log
entries; the Corridor (R13, R14, R157 to R180, R298, R336, R337). -/

namespace Sys2Proof.Machine

/-! ### Promotion (R165) -/

/-- The lines a promotion copies: those with a minor counter that are not valid in the slot. -/
def State.promotedLines (s : State) (c : RoomCfg) (p : Page) : SMap StoredLine :=
  let b := p.block (s.floorOf c)
  (List.range 64).filterMap fun l =>
    if b.minor l != 0 && !p.slotHas l then (s.frameLine p l).map fun x => (l, x) else none

/-- PROMOTION_DONE: the lines not yet valid are in the slot, TIER is 1 or 2 and MOVING is clear (R165). -/
def execPromotionDone (room : RoomNo) (page : Nat) (s : State) : Result :=
  let k := pageKey room.val page
  let p := s.page room.val page
  match s.room room.val, p.slot with
  | some r, some sl =>
    if !s.ti.promoting.contains k then .next s
    else
      let lines := if s.away p then [] else s.promotedLines r.cfg p
      let sl := lines.foldl (fun (sl : Slot) x => sl.write x.1 x.2 false s.beat) { sl with moving := false }
      let w := s.home room.val page
      let s := s.setPage room.val page { p with slot := some sl, tier := if sl.dirty != 0 then 2 else 1 }
      let s := { s with ti := { s.ti with promoting := s.ti.promoting.filter fun x => x != k } }
      .next ((s.satReg .PAN_TIER_STAT_PROMOTIONS w 1).count (512 + 768 * w + 260) 1).settle
  | _, _ => .next s

/-! ### Larder reads (R157, R162) -/

/-- Writes LAR_ERR_LOC; the subchannel and the rank of the burst are free values. -/
def State.larLoc (s : State) (w burst device kind : Nat) : State :=
  let (x, s) := s.free
  let s := (s.setReg .LAR_ERR_LOC_BURST w burst).setReg .LAR_ERR_LOC_DEVICE w device
  let s := (s.setReg .LAR_ERR_LOC_SUBCH w (x.toNat % 2)).setReg .LAR_ERR_LOC_RANK w (x.toNat / 2 % 2)
  s.setReg .LAR_ERR_LOC_KIND w kind

/-- Writes LAR_ERR_LOC for a burst whose channel address the set hash decides: a free value. -/
def State.larLocAnywhere (s : State) (w device kind : Nat) : State :=
  let (x, s) := s.free
  s.larLoc w x.toNat device kind

/-- A single-device error: corrected, rewritten, counted (R162). -/
def State.larCorrected (s : State) (w device : Nat) : State :=
  (((s.satReg .LAR_ERR_CORRECTED w 1).larLocAnywhere w device 1).emit (srcLarder w 0)).count (512 + 768 * w + 258) 1

/-- An uncorrectable burst of a kind: 2 clean, 3 dirty, 4 metadata. -/
def State.larUncorrectable (s : State) (w kind : Nat) : State :=
  let s := s.larLocAnywhere w 0xF kind
  let s := if kind = 2 then s.satReg .LAR_ERR_UNCORR_CLEAN w 1
    else if kind = 3 then s.satReg .LAR_ERR_UNCORR_DIRTY w 1 else s
  (s.emit (srcLarder w (kind - 1))).count (512 + 768 * w + 259) 1

/-- The reads that wait for a line from the Larder, in arrival order. -/
def State.larderWaiters (s : State) (room page line : Nat) : List Nat :=
  (s.hp.pend.filter fun q => q.wait == .larder && q.room == room &&
    (match q.todo with | o :: _ => o.page == page && o.line == line | [] => false)).map Req.id

/-- A line read from the Larder: its reads are answered and the home slice takes it. -/
def State.larderLine (s : State) (c : RoomCfg) (key : Key) (room page line : Nat) (x : StoredLine) : State :=
  let ids := s.larderWaiters room page line
  let w := s.home room page
  let s := (s.count (512 + 768 * w + 256) 2).roomCount room 7 ids.length
  if x.poison then s.answerReads ids 1 0 true
  else
    let d := decryptLine key room page line ((s.page room page).block (s.floorOf c)) x
    let s := if (s.pantryLine room page line).isNone then
        s.install w room page line { data := d, poison := false, st := .e, dirty := false }
      else s
    ((s.count (512 + 768 * w + 449) 1).touch room page).answerReads ids 1 d false

/-- Changes a page's slot. -/
def State.modSlot (s : State) (room page : Nat) (f : Slot → Slot) : State :=
  let p := s.page room page
  s.setPage room page { p with slot := p.slot.map f }

/-- An uncorrectable data burst: a clean line is fetched from media, a dirty one from the mirror, or it reads as poison
until rewritten (R162). -/
def State.larderUncorr (s : State) (c : RoomCfg) (key : Key) (room page line : Nat) (mirror : BurstOutcome) : State :=
  let p := s.page room page
  let w := s.home room page
  let dirty := match p.slot with | some sl => sl.dirty.getLsbD line | none => false
  if !dirty then
    (s.larUncorrectable w 2).modSlot room page fun sl =>
      { sl with valid := sl.valid &&& ~~~BitVec.ofNat 64 (2 ^ line), lines := del sl.lines line }
  else
    let s := s.larUncorrectable w 3
    let good := match p.mirrorOn with | some v => c.braced && s.wingUp v && mirror != .uncorrectable | none => false
    match good, look p.mirror line with
    | true, some x =>
      let s := s.modSlot room page fun sl => { sl with lines := put sl.lines line x }
      s.larderLine c key room page line x
    | _, _ =>
      let s := s.modSlot room page fun sl =>
        { sl with lines := put sl.lines line { lookD sl.lines line { ct := 0, mac := 0, poison := true } with poison := true } }
      let p := s.page room page
      let s := (s.setPage room page { p with causePoison := true }).listPoison room page line
      let s := if c.braced then s.emit (srcBrace w 1) else s
      let s := s.satReg .LAR_ERR_POISONED w 1
      let s := s.dropSlices room page line none
      s.larderLine c key room page line { ct := 0, mac := 0, poison := true }

/-- A data burst arrives, with its outcome and, when it differs from what was stored, its content (R162, R338). -/
def State.larderData (s : State) (c : RoomCfg) (room page line : Nat) (outcome mirror : BurstOutcome)
    (arrived : Option StoredLine) : State :=
  let p := s.page room page
  match s.roomKey c, p.slotLine line with
  | some key, some stored =>
    let x := arrived.getD stored
    let b := p.block (s.floorOf c)
    let w := s.home room page
    let fails := arrived.isSome && !x.poison && !macOk key room page line b x
    match outcome with
    | .clean => if fails then s.lockdown room page line 1 w else s.larderLine c key room page line x
    | .corrected d =>
      let s := s.larCorrected w d
      if fails then s.larderUncorr c key room page line mirror else s.larderLine c key room page line x
    | .uncorrectable => s.larderUncorr c key room page line mirror
  | _, _ => s

/-! ### Metadata read from the Larder (R119, R269, R270, R336, R337) -/

/-- A map entry that fails CHECK in the Larder comes from media; with that copy bad too the page reads as poison
(R119). -/
def State.mapEntryRead (s : State) (room page : Nat) (outcome media : BurstOutcome) : State :=
  let w := s.home room page
  match outcome with
  | .clean => s
  | .corrected d => s.larCorrected w d
  | .uncorrectable =>
    let s := s.larUncorrectable w 4
    if media == .uncorrectable then s.poisonPage room page true else s

/-- The pages a tree item of a level covers on a page's home wing (R327). -/
def State.covered (s : State) (room page level : Nat) : List Nat :=
  let w := s.home room page
  let n := s.localIndex page / 8 ^ level
  ((s.roomPages room).filter fun x => s.home room x.1 == w && s.localIndex x.1 / 8 ^ level == n).map Prod.fst

/-- The highest MAJOR any page of an ephemeral room has: the HIGH of the ephemeral rooms. -/
def State.ephHigh (s : State) : Nat :=
  s.ti.pages.foldl
    (fun m x =>
      let eph := match s.room (keyRoom x.1) with | some r => !r.cfg.persistent | none => false
      match x.2.ctr with | some b => if eph then max m b.major else m | none => m)
    s.lk.ephFloor

/-- Both copies of a tree item are lost: covered pages that are backed read as poison, FLOOR rises past HIGH, the item
and what is below it are absent (R337). -/
def State.treeLost (s : State) (c : RoomCfg) (room page level : Nat) : State :=
  let w := s.home room page
  let pages := s.covered room page level
  let s := pages.foldl
    (fun s g =>
      let p := s.page room g
      let s := if p.backed then s.poisonPage room g true else s
      let p := s.page room g
      let s := s.setPage room g { p with ctr := none, ctrMedia := none }
      { s with lk := { s.lk with versions := del s.lk.versions (pageKey room g) } })
    s
  let s := if c.persistent then
      { s with lk := { s.lk with slots := adjust s.lk.slots c.keySlot fun k =>
          { k with floor := k.high + 2 ^ 28, high := k.high + 2 ^ 28, changed := true } } }
    else { s with lk := { s.lk with ephFloor := s.ephHigh + 2 ^ 28 } }
  let s := (s.satReg .LKS_TREE_LOST w 1).setFlag .LKS_STATUS_TREE_LOST 0 true
  let s := (s.setReg .LKS_TREE_LOC_ROOM w room).setReg .LKS_TREE_LOC_INDEX w (s.localIndex page)
  (s.setReg .LKS_TREE_LOC_LEVEL w level).emit (srcLockset w 1)

/-- A counter block or a node arrives: its MAC failing on a clean copy is tampering, one copy lost is rewritten from the
other, two copies lost are R337 (R336, R338). A copy that arrives otherwise than as stored fails its MAC. -/
def State.treeItemRead (s : State) (c : RoomCfg) (room page level : Nat) (outcome mirror : BurstOutcome)
    (altered : Bool) : State :=
  let w := s.home room page
  let s := s.count (512 + 768 * w + 450) 1
  let bad := fun (s : State) =>
    let s := s.larUncorrectable w 4
    if mirror == .uncorrectable then s.treeLost c room page level
    else
      let s := (s.satReg .LKS_TREE_COPY_USED w 1).satReg .LKS_TREE_REWRITTEN w 1
      let s := (s.setReg .LKS_TREE_LOC_ROOM w room).setReg .LKS_TREE_LOC_INDEX w (s.localIndex page)
      (s.setReg .LKS_TREE_LOC_LEVEL w level).emit (srcLockset w 0)
  match outcome with
  | .clean => if altered then s.lockdown room (s.localIndex page) 0 (if level = 0 then 2 else 3) w else s
  | .corrected d => let s := s.larCorrected w d; if altered then bad s else s
  | .uncorrectable => bad s

/-- Both copies of a directory set are lost: the requesters marked in HOME_HOLDERS are treated as failed, and the
slices drop the lines homed on the wing (R76, R270). -/
def State.dirLost (s : State) (w : Nat) : State :=
  let marked := (List.range 4096).filter fun r => (s.reg .HOME_HOLDERS_HOLD (w * 64 + r / 64)).testBit (r % 64)
  let s := marked.foldl State.failRequester s
  let s := s.dropDirOf w
  let keep := fun (x : Nat × PantryLine) =>
    s.home (keyRoom (x.1 % 2 ^ 54 / 64)) (keyPage (x.1 % 2 ^ 54 / 64)) != w || x.1 / 2 ^ 54 == w
  let s := { s with ti := { s.ti with pantry := s.ti.pantry.filter keep } }
  (s.setFlag .HOME_STATUS_DIR_LOST w true).level (srcHome w 1) true

/-- A directory entry arrives: read from the other copy and rewritten, or R270 (R269, R270). -/
def State.directoryRead (s : State) (w : Nat) (outcome mirror : BurstOutcome) : State :=
  match outcome with
  | .clean => s
  | .corrected d => s.larCorrected w d
  | .uncorrectable =>
    let s := (s.larUncorrectable w 4).emit (srcHome w 0)
    if mirror == .uncorrectable then s.dirLost w else s.satReg .HOME_DIR_STAT_CHECK_FAIL w 1

/-- LARDER_READ_DATA (R162): a burst arrives for a line or a metadata item of a page. -/
def execLarderReadData (room : RoomNo) (page : Nat) (line : Fin 64) (item : LarderItem) (outcome mirrorOutcome : BurstOutcome)
    (arrived : Option StoredLine) (s : State) : Result :=
  match s.room room.val with
  | none => .next s
  | some r =>
    let w := s.home room.val page
    if !s.wingUp (s.actingHome w) || !s.pw.dev.hallOn then .next s
    else
      let s := match item with
        | .data => s.larderData r.cfg room.val page line.val outcome mirrorOutcome arrived
        | .mapEntry => s.mapEntryRead room.val page outcome mirrorOutcome
        | .counterBlock => s.treeItemRead r.cfg room.val page 0 outcome mirrorOutcome arrived.isSome
        | .treeNode n => s.treeItemRead r.cfg room.val page (max 1 n) outcome mirrorOutcome arrived.isSome
        | .directory => s.directoryRead w outcome mirrorOutcome
      .next s.settle.drainAdvance

/-- LARDER_PATROL_SCRUB: what can be corrected is, and the devices' own counts are added (R157, R163). -/
def execLarderPatrolScrub (w : Wing) (burst : Nat) (outcome : BurstOutcome) (eccCounts : Nat) (s : State) : Result :=
  let w := w.val
  if !s.wingUp w || !s.pw.dev.hallOn then .next s
  else
    let s := s.satReg .LAR_ERR_CORRECTED w eccCounts
    match outcome with
    | .corrected d =>
      .next ((((s.satReg .LAR_ERR_CORRECTED w 1).larLoc w burst d 1).emit (srcLarder w 0)).count (512 + 768 * w + 258) 1)
    | .clean | .uncorrectable => .next s

/-- LARDER_TEMP_READ: HOT_REFRESH is 1 while a device of the channel reads above 85 °C (R158). -/
def execLarderTempRead (w : Wing) (device : Nat) (celsius4 : Int) (s : State) : Result :=
  let w := w.val
  if !s.wings.contains w || !s.pw.dev.hallOn then .next s
  else
    let others := s.ti.hot.filter fun x => x != (w, device)
    let hot := if 340 < celsius4 then others ++ [(w, device)] else others
    let on := hot.any fun x => x.1 == w
    let s := { s with ti := { s.ti with hot := hot } }
    .next ((s.setFlag .LAR_STATUS_HOT_REFRESH w on).level (srcLarder w 4) on)

/-! ### Paced writes and log entries (R176, R177, R298) -/

/-- PACED_WRITE_ADMIT: the write that has waited longest on a wing goes on when there is room for it (R176, R177). -/
def execPacedWriteAdmit (w : Wing) (s : State) : Result :=
  match s.hp.pend.find? (s.pacedOn w.val) with
  | none => .next s
  | some q =>
    match q.todo, s.room q.room with
    | o :: _, some r =>
      if s.noRoom r.cfg q.room o.page then .next s
      else .next (s.setReq { q with wait := .ready }).settle
    | _, _ => .next s

/-- Leaves write-through mode behind when nothing of it is left (R298). -/
def State.logApplied (s : State) (e : LogEntry) : State :=
  let k := pageKey e.room e.page
  let p := s.page e.room e.page
  match e.entry.frame with
  | some a =>
    if p.entry.frame == some a && !s.away p then
      let s := s.programLines a e.lines
      let s := match s.frame a with
        | some f => s.setFrame a { f with pcount := satAdd 32 f.pcount 1 }
        | none => s
      let s := s.setPage (keyRoom k) (keyPage k) { s.page e.room e.page with ctrMedia := some e.ctr }
      s.count (512 + 768 * a.wing + 64 * a.cel + 3) 1
    else s
  | none => s

/-- LOG_ENTRY_APPLY: the frame is programmed from the oldest log entry of a wing, and the entry is freed (R298). -/
def execLogEntryApply (w : Wing) (s : State) : Result :=
  match takeFirst (fun (e : LogEntry) => e.wing == w.val) s.md.log with
  | none => .next s
  | some (e, rest) =>
    if !s.pw.dev.hallOn then .next s
    else
      let s := { s with md := { s.md with log := rest } }
      .next ((s.logApplied e).settle.drainAdvance)

/-! ### The Corridor (R13, R14) -/

/-- The COR_LINK instances of a module's two ends: the Hall's block and a wing's own. -/
def State.linkEnds (s : State) : Module → List Nat
  | .hall w => [w.val, 8 + 3 * w.val]
  | .ring w => [8 + 3 * w.val + 2, 8 + 3 * (s.partner w.val) + 1]

/-- The wing that names a module. -/
def moduleWing : Module → Nat
  | .hall w => w.val
  | .ring w => w.val

/-- The place of a module in the replay counts. -/
def moduleIndex : Module → Nat
  | .hall w => w.val
  | .ring w => 8 + w.val

/-- A module is up. -/
def State.moduleUp (s : State) (m : Module) : Bool :=
  s.wings.contains (moduleWing m) && (s.linkEnds m).all fun i => s.flag .COR_LINK_UP i

/-- A module is taken down after 16 replays in a row: the wing of a Hall module is lost with it (R13, R357). -/
def State.moduleDown (s : State) (m : Module) : State :=
  let s := (s.linkEnds m).foldl
    (fun s i => (s.setFlag .COR_LINK_UP i false).satReg .COR_LINK_TAKEDOWNS i 1) s
  match m with
  | .hall w => (s.emit (srcCorridor w.val 2)).loseWing w.val
  | .ring w => s.emit (srcCorridor w.val 3)

/-- CORRIDOR_PACKET: acted on after a good tail, replayed after a bad one (R13, R180). -/
def execCorridorPacket (m : Module) (crcOk : Bool) (s : State) : Result :=
  if !s.moduleUp m || !s.pw.dev.hallOn || s.inReset (.corridor (moduleWing m)) then .next s
  else if crcOk then
    let s := { s with br := { s.br with replays := del s.br.replays (moduleIndex m) } }
    .next ((s.count (512 + 768 * (moduleWing m) + 672) 1).count (512 + 768 * (moduleWing m) + 673) 1)
  else
    let n := lookD s.br.replays (moduleIndex m) 0 + 1
    let s := (s.linkEnds m).foldl (fun s i => s.satReg .COR_LINK_REPLAYS i 1) s
    let s := (s.emit (srcCorridor (moduleWing m) 1)).count (512 + 768 * (moduleWing m) + 674) 1
    if 16 ≤ n then .next (({ s with br := { s.br with replays := del s.br.replays (moduleIndex m) } } : State).moduleDown m)
    else .next { s with br := { s.br with replays := put s.br.replays (moduleIndex m) n } }

/-- LANE_REPAIR: counted and raised as correctable (R14). -/
def execLaneRepair (m : Module) (s : State) : Result :=
  if !s.moduleUp m || !s.pw.dev.hallOn then .next s
  else .next (((s.linkEnds m).foldl (fun s i => s.satReg .COR_LINK_REPAIRED i 1) s).emit (srcCorridor (moduleWing m) 0))

end Sys2Proof.Machine
end

