-- ==== Sys2Proof/Machine/Link.lean ====
section
/-! DEFINITION. The host link, resets of the host port, IDE and SPDM, and MSI-X (R63 to R69, R77 to R79, R89 to R95,
R341). -/

namespace Sys2Proof.Machine

/-! ### Training (R63, R64) -/

/-- LINK_TRAINING: the highest common rate and width, or a failure that holds the link down (R63, R64). MAX_RATE 0
leaves no rate. -/
def execLinkTraining (partner : Partner) (s : State) : Result :=
  if !s.pw.dev.hallOn || s.hp.link == .l0 || s.hp.link == .recovery then .next s
  else
    let rate := min (min 3 partner.rate) (s.reg .HALL_HP_CTRL_MAX_RATE 0)
    let width := min 3 partner.width
    if !partner.flit256 || !partner.cxl || rate = 0 || width = 0 then
      .next (({ s with hp := { s.hp with link := .down } } : State).emit srcTrainingFailure)
    else
      let s := { s with hp := { s.hp with link := .l0 } }
      let s := (s.setFlag .HALL_HP_LINK_UP 0 true).setReg .HALL_HP_LINK_RATE 0 rate
      let s := (s.setReg .HALL_HP_LINK_WIDTH 0 width).setFlag .HALL_HP_LINK_LOPT 0 partner.lopt
      let s := s.setFlag .HALL_HP_LINK_PBR 0 partner.pbr
      .next (if s.pw.dev == .halted then s.viralOut else s).settle

/-- TRAINING_RETRY: the link is tried again (R64). -/
def execTrainingRetry (s : State) : Result :=
  if s.hp.link == .down && s.pw.dev.hallOn then .next { s with hp := { s.hp with link := .training } } else .next s

/-- The link enters Recovery: what is admitted goes on, its answers are held (R67). -/
def State.linkRecovery (s : State) : State :=
  if s.hp.link == .l0 then ({ s with hp := { s.hp with link := .recovery } } : State).setFlag .HALL_HP_LINK_UP 0 false
  else s

/-- LINK_RECOVERY (R67). -/
def execLinkRecovery (s : State) : Result := .next s.linkRecovery

/-- RETRAIN: as Recovery (R105); only a management requester's write reaches it. -/
def execRetrain (s : State) : Result := .next s.linkRecovery

/-- LINK_L0: the held answers go out in their order (R67). -/
def execLinkL0 (s : State) : Result :=
  if s.hp.link != .recovery then .next s
  else
    let held := s.hp.held
    let s := { s with hp := { s.hp with link := .l0, held := [] } }
    .next ((held.foldl (fun (s : State) (x : Nat × Out) => (s.send x.2).credit x.1) s).setFlag .HALL_HP_LINK_UP 0 true).settle

/-- FLIT_REPLAY: counted; nothing is lost or reordered (R66). -/
def execFlitReplay (n : Nat) (s : State) : Result :=
  if n = 0 || s.hp.link == .down then .next s else .next ((s.satReg .HALL_HP_ERR_REPLAYS 0 n).emit srcFlitReplay)

/-- Landing sessions over PCIe end with the link or at PERST_N (R413). -/
def State.dropSessions (s : State) : State :=
  { s with pl := { s.pl with sessions := s.pl.sessions.filter fun p => s.pl.failedVdm.contains p } }

/-- Requests not yet accepted are discarded, and so are the answers of those that are (R68). -/
def State.dropLink (s : State) : State :=
  let held := s.hp.held
  let s := { s with hp := { s.hp with link := .down, held := [] } }
  let s := held.foldl (fun (s : State) (x : Nat × Out) => s.credit x.1) s
  let s := s.dropIngress
  let s := (s.setFlag .HALL_HP_LINK_UP 0 false).setReg .HALL_HP_LINK_RATE 0 0
  (s.setReg .HALL_HP_LINK_WIDTH 0 0).dropSessions.hmbStop.settle

/-- DL_DOWN (R68). -/
def execDlDown (s : State) : Result :=
  if s.hp.link == .down || s.hp.link == .training then .next s
  else .next ((s.dropLink.satReg .HALL_HP_ERR_LINK_DOWNS 0 1).emit srcLinkDown)

/-! ### Resets of the port (R50, R69, R79) -/

/-- Writes HALL_HP_MGMT. -/
def State.setMgmt (s : State) (list : Word) : State :=
  let part := fun i => list.toNat / 2 ^ (16 * i) % 2 ^ 16
  let s := (s.setReg .HALL_HP_MGMT_REQ0 0 (part 0)).setReg .HALL_HP_MGMT_VALID0 0 (part 0 / 2 ^ 12)
  let s := (s.setReg .HALL_HP_MGMT_REQ1 0 (part 1)).setReg .HALL_HP_MGMT_VALID1 0 (part 1 / 2 ^ 12)
  let s := (s.setReg .HALL_HP_MGMT_REQ2 0 (part 2)).setReg .HALL_HP_MGMT_VALID2 0 (part 2 / 2 ^ 12)
  (s.setReg .HALL_HP_MGMT_REQ3 0 (part 3)).setReg .HALL_HP_MGMT_VALID3 0 (part 3 / 2 ^ 12)

/-- An entry of MGMT in the POOL section, whose bit 15 marks it valid, as HALL_HP_MGMT holds it (R42, R105). -/
def mgmtEntry (m i : Nat) : Nat :=
  let e := m / 2 ^ (16 * i) % 2 ^ 16
  (e % 4096 + (if e.testBit 15 then 4096 else 0)) * 2 ^ (16 * i)

/-- The management list comes from the POOL section (R94). -/
def State.loadMgmt (s : State) : State :=
  match s.plan with
  | some p =>
    let m := p.pool.mgmt.toNat
    s.setMgmt (BitVec.ofNat 64 (mgmtEntry m 0 + mgmtEntry m 1 + mgmtEntry m 2 + mgmtEntry m 3))
  | none => s

/-- The fields of the blocks that R552 resets at PERST_N. -/
def portFields : List Fld := (Block.hallHp.rows ++ Block.msixDest.rows).map fun r => r.fld

/-- The host port returns to its reset values; rooms, dirty data, extents and the device state stay (R69, R552). -/
def State.portReset (s : State) : State :=
  let s := (s.dropLink.resetRegs portFields).loadMgmt
  let s := { s with hp := { s.hp with
    insecure := 0, keyed := 0, msixTable := [], msixUnmasked := [], msixPending := [], highLatch := [], behind := [] }
                    fl := { s.fl with stalled := [] }, cb := { s.cb with waiting := [] } }
  if s.pw.dev == .halted then s.setFlag .HALL_HP_LINK_VIRAL_OUT 0 true else s

/-- PERST_N: the host port alone is reset; in BOOT it starts a BOOT again that found no image (R50, R69). -/
def execPerstN (s : State) : Result :=
  if !s.pw.dev.hallOn then .next s
  else if s.pw.dev == .boot then
    .next { s with pw := { s.pw with bootTried := s.pw.bootTried && s.plan.isSome } }
  else .next (s.portReset.emit srcPerst)

/-- HOT_RESET: VIRAL_IN clears (R79). -/
def execHotReset (s : State) : Result := .next (s.setFlag .HALL_HP_LINK_VIRAL_IN 0 false)

/-- VIRAL: VIRAL_IN latches; later writes are completed and discarded (R79). -/
def execViral (s : State) : Result :=
  if s.hp.link != .l0 then .next s else .next ((s.setFlag .HALL_HP_LINK_VIRAL_IN 0 true).emit srcViral)

/-! ### IDE and SPDM (R89 to R91, R341) -/

/-- IDE_KEY_PROGRAM: new keys make a stream secure; stream 0 is CXL.cachemem, 1 to 4 the CXL.io streams (R89, R90). -/
def execIdeKeyProgram (stream : Fin 5) (s : State) : Result :=
  if !s.pw.dev.hallOn then .next s
  else
    let bit := BitVec.ofNat 5 (2 ^ stream.val)
    let s := { s with hp := { s.hp with insecure := s.hp.insecure &&& ~~~bit, keyed := s.hp.keyed ||| bit } }
    if stream.val = 0 then .next (s.setFlag .HALL_HP_LINK_IDE_MEM 0 true)
    else .next (s.setReg .HALL_HP_LINK_IDE_IO 0 (s.reg .HALL_HP_LINK_IDE_IO 0 ||| 2 ^ (stream.val - 1)))

/-- The words of a hash. -/
def hashWords (h : BitVec 384) : List Word := (List.range 6).map fun i => h.extractLsb' (64 * i) 64

/-- What a measurement block covers (R341); none outside 1 to 7. -/
def State.measured (s : State) (index : Nat) : Option (List Word) :=
  let word := fun (n : Nat) => BitVec.ofNat 64 n
  match index with
  | 1 | 2 => some []
  | 3 => match s.plan with
    | some p => some ([word p.imageId, word p.imageSeq] ++ hashWords s.lk.imageHash)
    | none => some []
  | 4 => some (word (s.reg .HALL_AMD_SEQ 0) :: hashWords s.lk.amdHash)
  | 5 | 6 => match s.plan with
    | some p => some (p.fwVersion.map word)
    | none => some []
  | 7 => some [word (s.counterValue 1), word (s.lk.slots.length)]
  | _ => none

/-- SPDM_GET_MEASUREMENTS: the block's digest, signed by the identity key (R341). -/
def execSpdmGetMeasurements (index : Nat) (s : State) : Result :=
  if !s.pw.dev.hallOn then .next s
  else match s.measured index with
    | some ws =>
      let d := Config.measurement index ws
      .next (s.send (.spdm index d (Config.sign d)))
    | none => .next s

/-! ### MSI-X (R95) -/

/-- A vector's message may be sent: unmasked, and its destination valid. -/
def State.msixOpen (s : State) (v : Nat) : Bool := s.flag .HALL_MSIX_DEST_VALID v && s.hp.msixUnmasked.contains v

/-- A message on a vector: sent, or pending (R95). -/
def State.msix (s : State) (v : Nat) : State :=
  if s.msixOpen v then s.send (.msix (s.reg .HALL_MSIX_DEST_DPID v) v)
  else if s.hp.msixPending.contains v then s
  else { s with hp := { s.hp with msixPending := s.hp.msixPending ++ [v] } }

/-- Sends a pending message once its vector allows it. -/
def State.msixFlush (s : State) (v : Nat) : State :=
  if s.msixOpen v && s.hp.msixPending.contains v then
    ({ s with hp := { s.hp with msixPending := s.hp.msixPending.filter fun x => x != v } } : State).send
      (.msix (s.reg .HALL_MSIX_DEST_DPID v) v)
  else s

/-- MSIX_DEST_VALID: VALID is set and a pending message goes out (R95). -/
def execMsixDestValid (v : Source) (s : State) : Result :=
  if !s.pw.dev.hallOn then .next s else .next ((s.setFlag .HALL_MSIX_DEST_VALID v.val true).msixFlush v.val)

/-- MSIX_UNMASK: a vector is unmasked and a pending message goes out (R95). -/
def execMsixUnmask (v : Source) (s : State) : Result :=
  if !s.pw.dev.hallOn then .next s
  else
    let s := if s.hp.msixUnmasked.contains v.val then s
      else { s with hp := { s.hp with msixUnmasked := s.hp.msixUnmasked ++ [v.val] } }
    .next (s.msixFlush v.val)

end Sys2Proof.Machine
end

