-- ==== Sys2Proof/Machine/Mailbox.lean ====
section
/-! DEFINITION. Mailbox commands of the standard table, Dynamic Capacity offers, decoders and requesters
(R73, R80 to R84, R94, R100 to R103, R230, R495). -/

namespace Sys2Proof.Machine

/-! ### The mailbox (R100) -/

/-- Answers a mailbox command. -/
def State.mailAnswer (s : State) (f : Sender) (opcode : Nat) (code : RetCode) (payload : List Word) : State :=
  s.send (.mailbox f.landing (if f.landing then 0 else s.requesterOf f.requester.val) opcode code payload)

/-- A command reaches the mailbox from a management requester or over Landing; any other requester's access is handled
under R543. -/
def State.mailbox (s : State) (f : Sender) (opcode : Nat) (run : State → State × RetCode × List Word) : State :=
  if !s.pw.dev.hallOn then s
  else if !f.landing && !s.isManagement (s.requesterOf f.requester.val) then
    s.barRefused (s.requesterOf f.requester.val) 0x0B010000
  else
    let (s, code, payload) := run s
    s.mailAnswer f opcode code payload

/-- A command that only reads. -/
def State.mailRead (s : State) (f : Sender) (opcode : Nat) (payload : State → List Word) : State :=
  s.mailbox f opcode fun s => (s, .success, payload s)

/-- A command the device answers Unsupported. -/
def State.mailUnsupported (s : State) (f : Sender) (opcode : Nat) : State :=
  s.mailbox f opcode fun s => (s, .unsupported, [])

/-- A number as a payload word. -/
def pword (n : Nat) : Word := BitVec.ofNat 64 n

/-- IDENTIFY: the Kamfel vendor ID and part number (R101). -/
def execIdentify (from_ : Sender) (s : State) : Result :=
  .next (s.mailRead from_ 0x0001 fun s =>
    [Config.vendorId.setWidth 64, Config.partNumber (match s.part with | .y8 => 8 | .y4 => 4 | .y2 => 2)])

/-! ### Event records (R494, R495) -/

/-- An event queue item as a word (R494). -/
def QItem.word (q : QItem) : Word :=
  pword (1 + 2 * (q.source % 2048) + 2 ^ 12 * (q.severity % 4) + 2 ^ 14 * (q.reaction % 4) +
    (if q.forced then 2 ^ 16 else 0) + (if q.merged then 2 ^ 17 else 0) + 2 ^ 32 * (q.beat % 2 ^ 32))

/-- GET_EVENT_RECORDS: the overflow flag and the entries of a log (R495). -/
def execGetEventRecords (from_ : Sender) (log : Fin 3) (s : State) : Result :=
  .next (s.mailRead from_ 0x0100 fun s =>
    pword (if s.fl.overflow.getD log.val false then 1 else 0) :: (s.fl.logs.getD log.val []).map QItem.word)

/-- CLEAR_EVENT_RECORDS: the log alone is cleared (R495). -/
def execClearEventRecords (from_ : Sender) (log : Fin 3) (s : State) : Result :=
  .next (s.mailbox from_ 0x0101 fun s =>
    ({ s with fl := { s.fl with logs := s.fl.logs.set log.val [], overflow := s.fl.overflow.set log.val false } },
      .success, []))

/-- GET_EVENT_INTERRUPT_POLICY. -/
def execGetEventInterruptPolicy (from_ : Sender) (s : State) : Result :=
  .next (s.mailRead from_ 0x0102 fun s => [s.hp.eventPolicy])

/-- SET_EVENT_INTERRUPT_POLICY. -/
def execSetEventInterruptPolicy (from_ : Sender) (policy : Word) (s : State) : Result :=
  .next (s.mailbox from_ 0x0103 fun s => ({ s with hp := { s.hp with eventPolicy := policy } }, .success, []))

/-! ### Firmware, time and logs (R101, R230) -/

/-- GET_FW_INFO: the floor plan's firmware versions; none while no image is loaded. -/
def execGetFwInfo (from_ : Sender) (s : State) : Result :=
  .next (s.mailRead from_ 0x0200 fun s => match s.plan with | some p => p.fwVersion.map pword | none => [])

/-- TRANSFER_FW and ACTIVATE_FW: firmware is carried only in the floor plan (R101). -/
def execTransferFw (from_ : Sender) (s : State) : Result := .next (s.mailUnsupported from_ 0x0201)
def execActivateFw (from_ : Sender) (s : State) : Result := .next (s.mailUnsupported from_ 0x0202)

/-- Rack time in ns, 0 while it is UNKNOWN; NOM is the learned period to the nearest microsecond (R230). -/
def rackNs (beat frac period : Nat) : Nat :=
  let nom := (period + 50) / 100 * 1000
  beat * nom + frac * nom / 2 ^ 32

/-- GET_TIMESTAMP (R230). -/
def execGetTimestamp (from_ : Sender) (s : State) : Result :=
  .next (s.mailbox from_ 0x0300 fun s =>
    if s.timeState == 0 then (s, .success, [0])
    else
      let (frac, s) := s.fracNow
      (s, .success, [pword (rackNs s.beat frac (s.reg .PRC_RT_FRAC_PERIOD 0))]))

/-- SET_TIMESTAMP: time comes only from rack time (R101). -/
def execSetTimestamp (from_ : Sender) (s : State) : Result := .next (s.mailUnsupported from_ 0x0301)

/-- GET_SUPPORTED_LOGS: the command effects log and no other; 1 stands for it in this model's payloads. -/
def execGetSupportedLogs (from_ : Sender) (s : State) : Result := .next (s.mailRead from_ 0x0400 fun _ => [1])

/-- The opcodes the command effects log lists: those of R101 and R103. -/
def effectOpcodes : List Nat :=
  [0x0001, 0x0100, 0x0101, 0x0102, 0x0103, 0x0200, 0x0300, 0x0400, 0x0401, 0x4000, 0x4100, 0x4200, 0x4201, 0x4202,
   0x4300, 0x4301, 0x4302, 0x4400, 0x4401, 0x4800, 0x4801, 0x4802, 0x4803] ++
  [0xC001, 0xC002, 0xC003, 0xC010, 0xC011, 0xC020, 0xC030, 0xC040, 0xC041, 0xC042, 0xC043, 0xC044, 0xC045, 0xC046,
   0xC050, 0xC051]

/-- GET_LOG: the command effects log; the effects of each opcode are free values. -/
def execGetLog (from_ : Sender) (s : State) : Result :=
  .next (s.mailbox from_ 0x0401 fun s =>
    let ws := (effectOpcodes.zipIdx).map fun (o, i) => pword (o + 2 ^ 16 * ((Config.freeValue (s.fresh + i)).toNat % 2 ^ 16))
    ({ s with fresh := s.fresh + effectOpcodes.length }, .success, ws))

/-- IDENTIFY_MEMORY_DEVICE: static capacity 0, LSA size 0, poison list capacity 4,096 (R101). -/
def execIdentifyMemoryDevice (from_ : Sender) (s : State) : Result :=
  .next (s.mailRead from_ 0x4000 fun _ => [0, 0, 4096])

/-- GET_PARTITION_INFO: no volatile and no persistent partition; all capacity is dynamic (R101). -/
def execGetPartitionInfo (from_ : Sender) (s : State) : Result := .next (s.mailRead from_ 0x4100 fun _ => [0, 0])

/-- RATED of the lowest profile in use. -/
def State.rated (s : State) : Nat :=
  match s.cellars.findSome? s.profile with | some m => m.rated | none => 0

/-- The words of Get Health Info: the pool and its target, M / 16 and the highest PCOUNT / 16 against RATED, corrected
and uncorrectable media lines, the hottest sensor, unclean stops (R101, R224). -/
def State.health (s : State) : List Word :=
  let sum := fun (f : Fld) => (s.cellars.map fun c => s.reg f c).sum
  [pword s.sparePool, pword s.spareTarget, pword (s.meanWear / 16), pword (s.reg .HALL_MEDIA_WEAR_MAX 0 / 16),
   pword s.rated, pword (sum .CEL_ERR0_CORRECTED), pword (sum .CEL_ERR0_UNCORR),
   BitVec.ofInt 64 (match s.hottest with | some x => x.2 | none => 0), pword (s.counterValue 2)]

/-- GET_HEALTH_INFO (R224). -/
def execGetHealthInfo (from_ : Sender) (s : State) : Result := .next (s.mailRead from_ 0x4200 State.health)

/-- GET_ALERT_CONFIGURATION. -/
def execGetAlertConfiguration (from_ : Sender) (s : State) : Result :=
  .next (s.mailRead from_ 0x4201 fun s =>
    [s.hp.alert.1.setWidth 64, s.hp.alert.2.1.setWidth 64, s.hp.alert.2.2.setWidth 64])

/-- SET_ALERT_CONFIGURATION: thresholds for spare, wear and temperature (R101). -/
def execSetAlertConfiguration (from_ : Sender) (spare wear temp : BitVec 16) (s : State) : Result :=
  .next (s.mailbox from_ 0x4202 fun s => ({ s with hp := { s.hp with alert := (spare, wear, temp) } }, .success, []))

/-! ### Poison (R101, R273) -/

/-- GET_POISON_LIST: the overflow flag above 4,096 lines, and the room offsets of a room's lines (R101). -/
def execGetPoisonList (from_ : Sender) (room : RoomNo) (s : State) : Result :=
  .next (s.mailRead from_ 0x4300 fun s =>
    let l := (s.hp.poisonList.take 4096).filter fun x => x.1 == room.val
    pword (if 4096 < s.hp.poisonList.length then 1 else 0) :: l.map fun x => pword (x.2.1 * 4096 + x.2.2 * 64))

/-- The device writes a line on its own account: hosts lose it first (R264). -/
def State.deviceWrite (s : State) (room offset : Nat) (data : Line) (poison : Bool) : State :=
  let page := offset / 4096
  let line := offset / 64 % 64
  ((s.invalidateHosts room page line).storeLine 0 room page line data (BitVec.allOnes 64) poison).settle

/-- A room offset names a line of a room. -/
def State.offsetOk (s : State) (room offset : Nat) : Bool :=
  match s.room room with | some r => offset % 64 == 0 && offset < r.cfg.size | none => false

/-- INJECT_POISON: one line is stored poisoned (R101). -/
def execInjectPoison (from_ : Sender) (room : RoomNo) (offset : Nat) (s : State) : Result :=
  .next (s.mailbox from_ 0x4301 fun s =>
    if s.offsetOk room.val offset then (s.deviceWrite room.val offset 0 true, .success, [])
    else (s, .invalidInput, []))

/-- CLEAR_POISON: the supplied data is written (R101). -/
def execClearPoison (from_ : Sender) (room : RoomNo) (offset : Nat) (data : Line) (s : State) : Result :=
  .next (s.mailbox from_ 0x4302 fun s =>
    if s.offsetOk room.val offset then (s.deviceWrite room.val offset data false, .success, [])
    else (s, .invalidInput, []))

/-! ### Sanitize and Secure Erase (R102, R315) -/

/-- A new random key. -/
def State.newKey (s : State) : Key × State := (Config.randomKey s.fresh, { s with fresh := s.fresh + 1 })

/-- Every page of every room is released (R102). -/
def State.releaseAll (s : State) (secure : Bool) : State :=
  s.rooms.foldl (fun (s : State) (x : Nat × Room) => (s.releasePages x.1 ((s.roomPages x.1).map Prod.fst) secure).1) s

/-- The room's counter trees are emptied: no counter block, no version, no SEALED entry (R315). -/
def State.emptyTrees (s : State) (room : Nat) : State :=
  let one := fun (k : Nat) (p : Page) =>
    if keyRoom k == room then { p with ctr := none, ctrMedia := none, entry := { p.entry with isSealed := false } }
    else p
  { s with
    ti := { s.ti with pages := mapPages s.ti.pages one }
    lk := { s.lk with versions := s.lk.versions.filter fun x => keyRoom x.1 != room } }

/-- A slot's record is set, and the slot table is programmed (R312, R315). -/
def State.fillSlot (s : State) (slot : Nat) (k : KeySlot) : State :=
  ({ s with lk := { s.lk with slots := put s.lk.slots slot k } } : State).putSlotTable (put s.md.slotTable slot k)

/-- Every persistent room's slot takes a new random key (R102, R315). -/
def State.renewKeys (s : State) : State :=
  let rooms := s.rooms.filter fun x => x.2.cfg.persistent
  rooms.foldl
    (fun (s : State) (x : Nat × Room) =>
      let (k, s) := s.newKey
      (s.emptyTrees x.1).fillSlot x.2.cfg.keySlot
        { key := k, floor := 0, high := 0, changed := true, origin := s.reg .LND_STATE_INDEX 0 })
    s

/-- Sanitize: secure releases, every spare frame overwritten, new keys (R102). -/
def State.sanitizeNow (s : State) : State :=
  let s := s.releaseAll true
  let one := fun (_ : Nat) (f : Frame) =>
    if f.st == 3 then { f with lines := [], pcount := satAdd 32 f.pcount 16 } else f
  let s := { s with md := { s.md with frames := mapAll s.md.frames one } }
  s.renewKeys.settle

/-- SANITIZE: in the background, while no requester holds an extent (R100, R102). -/
def execSanitize (from_ : Sender) (s : State) : Result :=
  .next (s.mailbox from_ 0x4400 fun s =>
    if !s.hp.extents.isEmpty then (s, .invalidInput, [])
    else if s.hp.background.isSome then (s, .busy, [])
    else ({ s with hp := { s.hp with background := some .sanitize } }, .background, []))

/-- SECURE_ERASE: every page is released and every persistent slot renewed, while no requester holds an extent
(R102). -/
def execSecureErase (from_ : Sender) (s : State) : Result :=
  .next (s.mailbox from_ 0x4401 fun s =>
    if !s.hp.extents.isEmpty then (s, .invalidInput, []) else ((s.releaseAll false).renewKeys.settle, .success, []))

/-! ### Dynamic Capacity (R80 to R84) -/

/-- GET_DC_CONFIGURATION: 8 regions of 1 GiB blocks (R80). -/
def execGetDcConfiguration (from_ : Sender) (s : State) : Result :=
  .next (s.mailRead from_ 0x4800 fun _ => [8, pword (2 ^ 30)])

/-- The region-tagged DPA of an extent (R80). -/
def Extent.tagged (e : Extent) : Nat := e.region * 2 ^ 56 + e.base

/-- GET_DC_EXTENT_LIST: the sender's extents. -/
def execGetDcExtentList (from_ : Sender) (s : State) : Result :=
  .next (s.mailRead from_ 0x4801 fun s =>
    (s.hp.extents.filter fun e => e.requester == s.requesterOf from_.requester.val).flatMap fun e =>
      [pword e.tagged, pword e.size, pword e.room])

/-- Extents of a requester that count under R83: held and offered. -/
def State.extentsOf (s : State) (requester : Nat) : Nat :=
  (s.hp.extents ++ s.hp.offers).countP fun e => e.requester == requester

/-- Offers an extent, or defers the offer of one too many (R82, R83). -/
def State.offer (s : State) (e : Extent) : State :=
  if 256 ≤ s.extentsOf e.requester then
    ({ s with hp := { s.hp with deferred := s.hp.deferred ++ [e] } } : State).emitReq srcOfferDeferred e.requester 0 1 e.base
  else
    ({ s with hp := { s.hp with offers := s.hp.offers ++ [e] } } : State).send (.addCapacity e)

/-- Makes the deferred offers a requester has room for now (R83). -/
def State.offerDeferred (s : State) (requester : Nat) : State :=
  let mine := s.hp.deferred.filter fun e => e.requester == requester
  mine.foldl
    (fun (s : State) (e : Extent) =>
      if 256 ≤ s.extentsOf requester then s
      else
        let s := { s with hp := { s.hp with deferred := s.hp.deferred.erase e, offers := s.hp.offers ++ [e] } }
        s.send (.addCapacity e))
    s

/-- The requesters an offer of a room goes to: its access list, or every requester with a committed decoder (R82). -/
def State.offerees (s : State) (c : RoomCfg) : List Nat :=
  if c.allRequesters then (s.hp.decoders.map fun x => x.1 / 8).dedup else c.acl

/-- Offers a part of a room's window to everyone who may hold it (R82). -/
def State.offerRoom (s : State) (c : RoomCfg) (base size : Nat) : State :=
  (s.offerees c).foldl
    (fun (s : State) (r : Nat) =>
      s.offer { requester := r, room := c.room, region := c.region, base := base, size := size })
    s

/-- ADD_DC_RESPONSE: the requester holds the offered extent from now on (R82). -/
def execAddDcResponse (requester : Requester) (room : RoomNo) (region : Fin 8) (base size : Nat) (s : State) : Result :=
  if !s.pw.dev.hallOn then .next s
  else
    let r := s.requesterOf requester.val
    let e : Extent := { requester := r, room := room.val, region := region.val, base := base, size := size }
    if s.hp.offers.contains e then
      let s := { s with hp := { s.hp with offers := s.hp.offers.erase e, extents := s.hp.extents ++ [e] } }
      .next (s.mailAnswer ⟨requester, false⟩ 0x4802 .success [])
    else .next (s.mailAnswer ⟨requester, false⟩ 0x4802 .invalidInput [])

/-! ### Kamfel vendor commands (R73, R76, R94, R103) -/

/-- A decoder R73 allows: up to 2^56 bytes, 1, 2, 4, 8 or 16 ways, and when interleaved 256 bytes to 16 KiB. -/
def decoderOk (d : Decoder) : Bool :=
  0 < d.size && d.size ≤ 2 ^ 56 && [1, 2, 4, 8, 16].contains d.ways && d.way < d.ways &&
    (d.ways == 1 || [256, 512, 1024, 2048, 4096, 8192, 16384].contains d.granularity)

/-- SET_DECODER: programs one decoder of one requester; a size of 0 clears it (R73). -/
def execSetDecoder (from_ : Sender) (requester : Requester) (region : Fin 8) (hpaBase size : Nat) (ways granularity : Nat)
    (way : Nat) (dpaBase : Nat) (s : State) : Result :=
  .next (s.mailbox from_ 0xC010 fun s =>
    let d : Decoder := { hpaBase := hpaBase, size := size, ways := ways, granularity := granularity, way := way,
                         dpaBase := dpaBase % 2 ^ 56 }
    let k := requester.val * 8 + region.val
    if size = 0 then ({ s with hp := { s.hp with decoders := del s.hp.decoders k } }, .success, [])
    else if decoderOk d then ({ s with hp := { s.hp with decoders := put s.hp.decoders k d } }, .success, [])
    else (s, .invalidInput, []))

/-- The requesters marked in HOME_HOLDERS of a wing (R270). -/
def State.markedHolders (s : State) (w : Nat) : List Nat :=
  (List.range 64).flatMap fun i =>
    let v := s.reg .HOME_HOLDERS_HOLD (w * 64 + i)
    if v = 0 then [] else ((List.range 64).filter v.testBit).map fun j => i * 64 + j

/-- A failed requester is restored: its bits in HOME_HOLDERS clear, and DIR_LOST with the last of a wing (R76, R270). -/
def State.restore (s : State) (r : Nat) : State :=
  let s := { s with hp := { s.hp with failed := s.hp.failed.filter fun x => x != r } }
  let s := s.wings.foldl
    (fun (s : State) (w : Nat) =>
      let i := w * 64 + r / 64
      let v := s.reg .HOME_HOLDERS_HOLD i
      let s := if v.testBit (r % 64) then s.setReg .HOME_HOLDERS_HOLD i (v - 2 ^ (r % 64)) else s
      if s.flag .HOME_STATUS_DIR_LOST w && (s.markedHolders w).all fun x => !s.hp.failed.contains x then
        (s.setFlag .HOME_STATUS_DIR_LOST w false).level (srcHome w 1) false
      else s)
    s
  s.settle

/-- RESTORE_REQUESTER (R76); only a failed requester has something to restore. -/
def execRestoreRequester (from_ : Sender) (requester : Requester) (s : State) : Result :=
  .next (s.mailbox from_ 0xC011 fun s =>
    if s.hp.failed.contains requester.val then (s.restore requester.val, .success, []) else (s, .success, []))

/-- Backed pages of a room, and its dirty ones. -/
def State.backedPages (s : State) (room : Nat) : Nat := (s.roomPages room).countP fun x => x.2.backed
def State.dirtyPagesOf (s : State) (room : Nat) : Nat := (s.roomPages room).countP fun x => x.2.dirty

/-- GET_ROOM_STATUS: backed pages, dirty pages, credits in use (R103). -/
def execGetRoomStatus (from_ : Sender) (room : RoomNo) (s : State) : Result :=
  .next (s.mailbox from_ 0xC020 fun s =>
    match s.room room.val with
    | some r => (s, .success, [pword (s.backedPages room.val), pword (s.dirtyPagesOf room.val), pword r.inUse])
    | none => (s, .invalidInput, []))

/-- SET_MANAGEMENT_REQUESTERS: over Landing only (R94, R103). -/
def execSetManagementRequesters (from_ : Sender) (list : Word) (s : State) : Result :=
  .next (s.mailbox from_ 0xC030 fun s => if from_.landing then (s.setMgmt list, .success, []) else (s, .unsupported, []))

/-- MAILBOX_UNSUPPORTED: any other opcode (R101, R103). -/
def execMailboxUnsupported (from_ : Sender) (opcode : BitVec 16) (s : State) : Result :=
  .next (s.mailUnsupported from_ opcode.toNat)

end Sys2Proof.Machine
end

