-- ==== Sys2Proof/Machine/Image.lean ====
section
/-! DEFINITION. The boot flash, the form of images and amendments, and their sections: reading the bytes, the checks in
the spec's order and the cause each reports (R26 to R47, R61, R155, R156, R190, R198 to R200, R443, R457, R576). -/

namespace Sys2Proof.Machine

/-! ### The flash (R26) -/

/-- A byte of the flash; an erased byte reads 0xFF. -/
def flashByte (cells : List Host.Cell) (a : Nat) : Byte := lookD cells a 0xFF

/-- Bytes of the flash. -/
def flashBytes (cells : List Host.Cell) (a n : Nat) : List Byte := (List.range n).map fun i => flashByte cells (a + i)

/-- Puts a byte into the flash, keeping addresses rising and erased bytes unlisted. -/
def flashPut (cells : List Host.Cell) (a : Nat) (b : Byte) : List Host.Cell :=
  if b = 0xFF then del cells a else put cells a b

/-- Programs bytes: a program clears bits and sets none. -/
def flashProgram (cells : List Host.Cell) : Nat → List Byte → List Host.Cell
  | _, [] => cells
  | a, b :: bs => flashProgram (flashPut cells a (flashByte cells a &&& b)) (a + 1) bs

/-- Erases a region. -/
def flashErase (cells : List Host.Cell) (a n : Nat) : List Host.Cell := cells.filter fun c => !(a ≤ c.1 && c.1 < a + n)

/-- Base of an image slot, 0 for A and 1 for B; the log's base and the sizes (R26). -/
def slotBase (slot : Nat) : Nat := slot * 0x02000000
def slotSize : Nat := 0x02000000
def logBase : Nat := 0x04000000
def logSize : Nat := 0x01000000

/-! ### Fields of a byte string -/

/-- A little-endian field. -/
def le (b : List Byte) (off n : Nat) : Nat := ofBytes ((b.drop off).take n)

/-- A signed 2-byte field. -/
def les16 (b : List Byte) (off : Nat) : Int := (BitVec.ofNat 16 (le b off 2)).toInt

/-- A byte range is zero. -/
def zeros (b : List Byte) (off n : Nat) : Bool := ((b.drop off).take n).all fun x => x == 0

/-- A check with the cause its failure reports. -/
def need (ok : Bool) (cause : Nat) : Except Nat Unit := if ok then .ok () else .error cause

/-- A check for each element of a list, in order. -/
def needAll {α : Type} (l : List α) (f : α → Except Nat Unit) : Except Nat Unit :=
  match l with
  | [] => .ok ()
  | x :: xs => match f x with
    | .error c => .error c
    | .ok () => needAll xs f

/-- Every two elements of a list, the earlier first, pass a test. -/
def pairsOk {α : Type} (p : α → α → Bool) : List α → Bool
  | [] => true
  | x :: xs => xs.all (p x) && pairsOk p xs

/-- Cause codes (R61). -/
def badMagic : Nat := 0x01
def badVersion : Nat := 0x02
def badLength : Nat := 0x03
def wrongPart : Nat := 0x04
def badKey : Nat := 0x05
def badSignature : Nat := 0x06
def badDirectory : Nat := 0x07
def badCrc : Nat := 0x08
def missingSection : Nat := 0x09
def badField : Nat := 0x0A
def absentUnit : Nat := 0x0B
def overlap : Nat := 0x0C
def braceReach : Nat := 0x0D
def parityPersistent : Nat := 0x0E
def firmwareRejected : Nat := 0x0F
def readError : Nat := 0x10
def keyShared : Nat := 0x11
def stateMismatch : Nat := 0x12
def wrongBase : Nat := 0x20
def staleSeq : Nat := 0x21
def gapSeq : Nat := 0x22
def notAmendable : Nat := 0x23
def liveConflict : Nat := 0x24
def roomBusy : Nat := 0x25
def ringBusy : Nat := 0x26
def larderShort : Nat := 0x27
def changedCause : Nat := 0x28
def busyCause : Nat := 0x29
def logFullCause : Nat := 0x2A
def termCause : Nat := 0x2B
def keyEmptyCause : Nat := 0x2C
def quotaCause : Nat := 0x2D

/-! ### Header, signature and directory (R27 to R30) -/

/-- What a header says. -/
structure ImgHeader where
  length : Nat
  sections : Nat
  imageSeq : Nat
  imageId : Nat
  keyIndex : Nat
  amdSeq : Nat
  deriving DecidableEq, Repr

/-- A section. -/
structure Section where
  type : Nat
  inst : Nat
  body : List Byte
  deriving DecidableEq, Repr

/-- A header is readable: its MAGIC is the image magic (R48 step 1). -/
def imageMagic : Nat := 0x4B46504C
def amendMagic : Nat := 0x4B46414D

/-- The bit of PART_MASK that names the part. -/
def Part.maskBit : Part → Nat
  | .y8 => 0 | .y4 => 1 | .y2 => 2

/-- The header's checks in order (R27, R48 step 2). -/
def headerOf (part : Part) (b : List Byte) (amend : Bool) : Except Nat ImgHeader := do
  need (le b 0 4 == if amend then amendMagic else imageMagic) badMagic
  need (le b 4 2 == 0x0102) badVersion
  let length := le b 8 4
  need (le b 6 2 == 256 && 512 ≤ length && length ≤ if amend then 0x100000 else 0x2000000) badLength
  need ((le b 0x20 2).testBit part.maskBit) wrongPart
  need (le b 0x24 4 == if amend then 1 else 0) badField
  need (zeros b 0x40 192) badField
  need (amend || le b 0x38 8 == 0) badField
  return { length := length, sections := le b 0xC 4, imageSeq := le b 0x10 8, imageId := le b 0x28 16,
           keyIndex := le b 0x22 2, amdSeq := le b 0x38 8 }

/-- A trailer's key and signature over the bytes before it (R29); `hash` is what the key's digest must be. -/
def trailerOk (hash : Option (BitVec 384)) (revoked : Bool) (msg trailer : List Byte) : Except Nat Unit := do
  let key := trailer.take 97
  let sig := (trailer.drop 0x70).take 96
  need (hash == some (Config.sha384 key) && !revoked) badKey
  need (zeros trailer 97 15 && zeros trailer 0xD0 48) badSignature
  need (Config.ecdsaVerify key sig (Config.sha384 msg)) badSignature

/-- The known section types with their instances and the fixed part of their length (R30). -/
def sectionTypes : List (Nat × Nat × Nat) :=
  [(1, 1, 80), (2, 4, 512), (3, 1, 32), (4, 1, 16), (5, 1, 8), (6, 1, 48), (7, 1, 1040), (8, 1, 32), (9, 1, 4096),
   (10, 1, 8), (11, 1, 32), (12, 1, 88), (13, 1, 32), (14, 2, 288), (15, 1, 152), (16, 1, 16)]

/-- The instances of a type; none for an unknown type. -/
def typeInstances (t : Nat) : Option Nat := (sectionTypes.find? fun x => x.1 == t).map fun x => x.2.1

/-- A section's length agrees with its type (R30). -/
def lengthOk (x : Section) : Bool :=
  let n := x.body.length
  match x.type with
  | 4 => n == 16 + 64 * le x.body 0 4 + le x.body 4 4
  | 5 => n == 8 + 8 * le x.body 0 4
  | 14 => n == 288 + le x.body 8 4
  | t => match sectionTypes.find? fun y => y.1 == t with
    | some y => n == y.2.2
    | none => false

/-- A directory entry: type, instance, offset, length, CRC. -/
def dirEntry (b : List Byte) (i : Nat) : Nat × Nat × Nat × Nat × Nat :=
  let o := 0x100 + 16 * i
  (le b o 2, le b (o + 2) 2, le b (o + 4) 4, le b (o + 8) 4, le b (o + 12) 4)

/-- The directory's checks: placement, CRCs, counts and lengths (R28, R30, R48 step 4). -/
def sectionsOf (h : ImgHeader) (b : List Byte) (amend : Bool) : Except Nat (List Section) := do
  need (1 ≤ h.sections && h.sections ≤ 64) badDirectory
  let dir := (List.range h.sections).map (dirEntry b)
  let first := 0x100 + 16 * h.sections
  needAll dir fun (t, inst, off, len, _) => do
    match typeInstances t with
    | some n => need (inst < n) badDirectory
    | none => .ok ()
    need (off % 16 == 0 && first ≤ off && off + len ≤ h.length - 256) badDirectory
  need (pairsOk (fun x y => x.2.2.1 + x.2.2.2.1 ≤ y.2.2.1 || y.2.2.1 + y.2.2.2.1 ≤ x.2.2.1) dir) badDirectory
  let secs := dir.map fun (t, inst, off, len, _) => ({ type := t, inst := inst, body := (b.drop off).take len } : Section)
  needAll dir fun (_, _, off, len, crc) => need ((crc32 ((b.drop off).take len)).toNat == crc) badCrc
  need (dir.all fun x => (typeInstances x.1).isSome) missingSection
  need (pairsOk (fun x y => x.1 != y.1 || x.2.1 != y.2.1) dir) missingSection
  let has := fun (t i : Nat) => secs.any fun x => x.type == t && x.inst == i
  need (amend || ((List.range 15).all fun k => k + 1 == 2 || k + 1 == 14 || has (k + 1) 0)) missingSection
  need (amend || (secs.any fun x => x.type == 2)) missingSection
  need (amend || (has 14 0 && has 14 1)) missingSection
  need (secs.all lengthOk) badField
  return secs

/-- A file's form: header, signature, directory (R27 to R30). -/
def formOf (part : Part) (b : List Byte) (amend : Bool) : Except Nat (ImgHeader × List Section) := do
  let h ← headerOf part b amend
  let body := b.take (h.length - 256)
  let hash := if h.keyIndex < 4 then Config.fuseKeyHash h.keyIndex else none
  trailerOk hash (Config.fuseRevoked h.keyIndex) body ((b.drop (h.length - 256)).take 256)
  let secs ← sectionsOf h b amend
  return (h, secs)

/-! ### Sections (R31 to R47) -/

/-- UNITS (R31, R3). -/
def unitsOf (part : Part) (media : List Nat) (b : List Byte) : Except Nat UnitsCfg := do
  let wings := le b 0 1
  let larders := le b 1 1
  let cellars := le b 4 4
  let profile := (List.range 32).map fun c => le b (0xC + c) 1
  let packages := (List.range 32).map fun c => le b (0x2C + c) 1
  need (wings / 2 ^ part.wings == 0) absentUnit
  need (wings != 0 && larders == wings) badField
  need ((List.range 8).all fun w => wings.testBit w == (cellars / 2 ^ (4 * w) % 16 != 0)) badField
  need ((List.range 32).all fun c =>
    if cellars.testBit c then media.contains (profile.getD c 0) && 1 ≤ packages.getD c 0 && packages.getD c 0 ≤ 8
    else profile.getD c 0 == 0 && packages.getD c 0 == 0) badField
  need (zeros b 2 2 && zeros b 8 4 && zeros b 0x4C 4) badField
  return { wingEn := BitVec.ofNat 8 wings, larderEn := BitVec.ofNat 8 larders, cellarEn := BitVec.ofNat 32 cellars,
           profile := profile, packages := packages }

/-- A signed byte. -/
def les8 (b : List Byte) (off : Nat) : Int := (BitVec.ofNat 8 (le b off 1)).toInt

/-- One class of the drift table (R243). -/
def driftOf (b : List Byte) (k : Nat) : DriftEntry :=
  let o := 0xD0 + 8 * k
  { pri := (List.range 3).map fun i => les8 b (o + i), alt := (List.range 3).map fun i => les8 b (o + 3 + i),
    balance := le b (o + 6) 1, valid := le b (o + 7) 1 == 1 }

/-- A power of two between two others. -/
def pow2In (n lo hi : Nat) : Bool := (List.range (hi - lo + 1)).any fun i => n == 2 ^ (lo + i)

/-- MEDIA (R32, R190, R198 to R200, R243). -/
def mediaOf (b : List Byte) : Except Nat MediaProfile := do
  let frames := le b 0x14 4
  let m : MediaProfile :=
    { name := b.take 16, vendor := le b 0x10 2, device := le b 0x12 2, frames := frames, sysFrames := le b 0x18 4,
      banks := le b 0x1C 1, bankShift := le b 0x1D 1, progPerPkg := le b 0x1E 1, spareInit := le b 0x20 2,
      rl := le b 0x50 2, tsusMax := le b 0x52 2, tminrun := le b 0x54 2, tresMax := le b 0x56 2, tprogTyp := le b 0x58 4,
      tprogMax := le b 0x5C 4, teraseMax := le b 0x60 4, tta := le b 0x64 1, busRate := le b 0x65 1,
      progCurrent := le b 0x66 2, drift := (List.range 16).map (driftOf b), rated := le b 0x150 4,
      refreshBits := le b 0x154 1, uncRetire := le b 0x155 1 }
  need (pow2In frames 20 26 && frames / 128 + 64 ≤ m.sysFrames) badField
  need ([4, 8, 16, 32].contains m.banks && m.bankShift ≤ 20 && 1 ≤ m.progPerPkg && m.progPerPkg ≤ 8) badField
  need (50 ≤ m.spareInit && m.spareInit ≤ 1000) badField
  need (200 ≤ m.rl && m.rl ≤ 1000 && m.tsusMax ≤ 300 && m.tminrun ≤ 1000 && m.tresMax ≤ 200) badField
  need (m.tprogTyp ≤ m.tprogMax && m.tprogMax ≤ 3000 && m.teraseMax ≤ 40000 && 2 ≤ m.tta && m.busRate ≤ 2) badField
  need ((List.range 16).all fun k => le b (0xD0 + 8 * k + 7) 1 ≤ 1) badField
  need (1 ≤ m.rated && m.rated ≤ 268435455 && 1 ≤ m.refreshBits && m.refreshBits ≤ 23) badField
  need (1 ≤ m.uncRetire && m.uncRetire ≤ 15) badField
  need (zeros b 0x1F 1 && zeros b 0x22 46 && zeros b 0x68 104 && zeros b 0x156 26 && zeros b 0x170 144) badField
  return m

/-- The highest speed grade of a topology and rank count (R155). -/
def larderSpeedMax (topo ranks : Nat) : Nat := if ranks = 1 then 4 else if topo = 0 then 3 else 2

/-- LARDER (R33, R155, R156). -/
def larderOf (b : List Byte) : Except Nat LarderCfg := do
  let l : LarderCfg :=
    { speed := le b 0 1, ranks := le b 1 1, density := le b 2 1, topo := le b 3 1, capacity := le b 4 4,
      refresh := le b 8 1, train := le b 9 1, metaShare := le b 0xA 1, dirShare := le b 0xB 1, scrubHours := le b 0xC 1 }
  need ((l.ranks == 1 || l.ranks == 2) && [16, 24, 32, 64].contains l.density && l.topo ≤ 1) badField
  need (l.speed ≤ larderSpeedMax l.topo l.ranks) badField
  need (1 ≤ l.capacity && l.capacity ≤ 64 && l.capacity * 8 ≤ l.ranks * 16 * l.density) badField
  need (l.refresh ≤ 2 && l.train ≤ 3 && 8 ≤ l.metaShare && l.metaShare ≤ 32) badField
  need (2 ≤ l.dirShare && l.dirShare ≤ 8 && 1 ≤ l.scrubHours && l.scrubHours ≤ 24) badField
  need (zeros b 0xD 19) badField
  return l

/-- The access list of a room entry: requester IDs at ACL_OFF (R34). -/
def aclOf (b : List Byte) (off n : Nat) : List Nat := (List.range n).map fun i => le b (off + 2 * i) 2

/-- A room entry (R34). -/
def roomOf (b : List Byte) (i : Nat) : RoomCfg :=
  let o := 16 + 64 * i
  let cls := le b (o + 2) 1
  { room := le b o 2, cls := cls, attr := le b (o + 3) 1, tier := le b (o + 4) 1, action := le b (o + 5) 1,
    keySlot := if cls = 1 then 0 else le b (o + 6) 2, base := le b (o + 8) 8, size := le b (o + 0x10) 8,
    weight := le b (o + 0x18) 2, credits := le b (o + 0x1C) 4, acl := aclOf b (le b (o + 0x20) 4) (le b (o + 0x24) 2),
    region := le b (o + 0x26) 2 }

/-- A room entry's own ranges (R34, R35). -/
def roomOk (b : List Byte) (i : Nat) (amend : Bool) : Bool :=
  let c := roomOf b i
  let o := 16 + 64 * i
  let n := le b (o + 0x24) 2
  let off := le b (o + 0x20) 4
  c.room < 4096 && c.cls ≤ 1 && c.attr < 32 && c.tier ≤ 2 && c.keySlot < 4096 && c.base % 2 ^ 30 == 0 &&
  c.size % 2 ^ 30 == 0 && 2 ^ 30 ≤ c.size && c.size ≤ 2 ^ 48 && 1 ≤ c.weight && c.weight ≤ 1024 &&
  16 ≤ c.credits && c.credits ≤ 65536 && n ≤ 4096 && c.region < 8 &&
  (if amend then 1 ≤ c.action && c.action ≤ 3 else c.action == 0) &&
  (n == 0 || (16 + 64 * le b 0 4 ≤ off && off + 2 * n ≤ b.length && c.acl.all fun r => r < 4096)) &&
  zeros b (o + 0x1A) 2 && zeros b (o + 0x28) 24

/-- The entries of a ROOMS section (R34). -/
def roomsOf (b : List Byte) (amend : Bool) : Except Nat (List RoomCfg) := do
  let n := le b 0 4
  need (n ≤ 4096 && zeros b 8 8) badField
  need ((List.range n).all fun i => roomOk b i amend) badField
  return (List.range n).map (roomOf b)

/-- Every wing, and on the NPX-Y2 enough cellars, for a braced stripe (R35, R344). -/
def braceFits (part : Part) (u : UnitsCfg) : Bool :=
  (List.range part.wings).all (fun w => u.wingEn.getLsbD w) &&
    (part != .y2 || 4 ≤ (bitsOf u.cellarEn).length)

/-- The rules of a whole room table (R35). -/
def roomTableOk (part : Part) (u : UnitsCfg) (l : List RoomCfg) : Except Nat Unit := do
  need (pairsOk (fun x y => x.room != y.room) l) badField
  need (pairsOk (fun x y => x.base + x.size ≤ y.base || y.base + y.size ≤ x.base) l) overlap
  need ((l.all fun x => x.base + x.size ≤ 2 ^ 56) && (l.map RoomCfg.size).sum ≤ 2 ^ 56) overlap
  need (pairsOk (fun x y => !(x.persistent && y.persistent && x.keySlot == y.keySlot)) l) keyShared
  need (l.all fun x => !x.braced || braceFits part u) braceReach

/-- RINGS (R36). -/
def ringsOf (b : List Byte) : Except Nat (List RingCfg) := do
  let n := le b 0 4
  let l := (List.range n).map fun i =>
    let o := 8 + 8 * i
    ({ requester := le b o 2, count := le b (o + 2) 1, mask := le b (o + 3) 1, charge := le b (o + 4) 2 } : RingCfg)
  need (n ≤ 4096 && zeros b 4 4 && (List.range n).all fun i => zeros b (8 + 8 * i + 6) 2) badField
  need (l.all fun x => x.requester < 4096 && x.count ≤ 64 && x.charge < 4096) badField
  need (pairsOk (fun x y => x.requester != y.requester) l) badField
  return l

/-- The owner of a power domain: 0 the Hall, 1 + w a wing (R456). -/
def domainOwner (d : Nat) : Nat := if d < 6 then 0 else 1 + (d - 6) / 5

/-- POWER (R37, R457). -/
def powerOf (part : Part) (b : List Byte) : Except Nat (List Nat) := do
  let g := (List.range 46).map fun d => le b d 1
  let here := (List.range 46).filter fun d => domainOwner d ≤ part.wings
  need (here.all fun d => g.getD d 0 < 46) badField
  need (pairsOk (fun x y => g.getD x 0 != g.getD y 0 || domainOwner x == domainOwner y) here) badField
  need (zeros b 46 2) badField
  return g

/-- A monitor record (R38). -/
def monOf (b : List Byte) (m : Nat) : MonCfg :=
  let o := 16 * m
  { low := le b o 2, high := le b (o + 2) 2, glitch := le b (o + 4) 1, qual := le b (o + 6) 2, sense := le b (o + 8) 1,
    enabled := (le b (o + 9) 1).testBit 0, reservoir := (le b (o + 9) 1).testBit 1 }

/-- A step record (R38). -/
def stepOf (b : List Byte) (k : Nat) : StepCfg :=
  let o := 0x200 + 16 * k
  { enable := BitVec.ofNat 48 (le b o 6), wait := BitVec.ofNat 32 (le b (o + 6) 4), delay := le b (o + 0xA) 2,
    timeout := le b (o + 0xC) 2 }

/-- RAILS (R38, R443, R576): monitors, the steps that run, RETRIES. -/
def railsOf (b : List Byte) : Except Nat (List MonCfg × List StepCfg × Nat) := do
  let mons := (List.range 32).map (monOf b)
  let n := le b 0x400 1
  need (1 ≤ n && n ≤ 32 && le b 0x401 1 ≤ 3 && zeros b 0x402 14) badField
  need ((List.range 32).all fun m => le b (16 * m + 9) 1 < 4) badField
  need ((List.range 32).all fun m =>
    let x := mons.getD m ⟨0, 0, 0, 0, 0, false, false⟩
    !x.enabled || (x.low < x.high && x.high ≤ 1800 && 10 ≤ x.qual && x.qual ≤ 1000 && x.sense < 32 &&
      zeros b (16 * m + 5) 1 && zeros b (16 * m + 10) 6)) badField
  let steps := (List.range n).map (stepOf b)
  need (steps.all fun x => 1 ≤ x.timeout && x.enable.toNat % 16 == 0) badField
  need ((List.range n).all fun k => zeros b (0x200 + 16 * k + 0xE) 2) badField
  need ((steps.countP fun x => x.enable.getLsbD 47) == 1) badField
  return (mons, steps, le b 0x401 1)

/-- THERMAL (R39, R474). -/
def thermalOf (b : List Byte) : Except Nat ThermalCfg := do
  let t : ThermalCfg :=
    { warn := les16 b 0, throttle := les16 b 2, shutdown := les16 b 4, hyst := le b 6 1, mediaLo := les16 b 8,
      mediaHi := les16 b 0xA, drainLo := les16 b 0xC, drainHi := les16 b 0xE, chgLo := les16 b 0x10,
      chgHi := les16 b 0x12 }
  need (t.warn + 20 ≤ t.throttle && t.throttle + 20 ≤ t.shutdown && t.shutdown ≤ 460) badField
  need (0 ≤ t.mediaLo && t.mediaLo ≤ t.mediaHi && t.mediaHi ≤ 340) badField
  need (-40 ≤ t.drainLo && t.drainLo ≤ t.drainHi && t.drainHi ≤ 380) badField
  need (0 ≤ t.chgLo && t.chgLo ≤ t.chgHi && t.chgHi ≤ 240) badField
  need (zeros b 7 1 && zeros b 0x14 12) badField
  return t

/-- REACT (R40): the entries of fixed sources are ignored. -/
def reactOf (b : List Byte) : Except Nat (List Nat) := do
  let l := (List.range 2048).map fun i => le b (2 * i) 2
  need ((l.drop 5).all fun x => x < 8) badField
  return l

/-- PANTRY (R41): parity mode goes with no persistent room. -/
def pantryOf (u : UnitsCfg) (rooms : List RoomCfg) (b : List Byte) : Except Nat (List Nat) := do
  let l := (List.range 8).map fun w => le b w 1
  need ((bitsOf u.wingEn).all fun w => l.getD w 0 ≤ 1) badField
  need (!((bitsOf u.wingEn).any fun w => l.getD w 0 == 1) || rooms.all fun c => !c.persistent) parityPersistent
  return l

/-- POOL (R42). -/
def poolOf (b : List Byte) : Except Nat PoolCfg := do
  let p : PoolCfg :=
    { role := le b 0 1, index := le b 2 2, poolId := le b 4 4, standby := le b 0xA 2, transport := le b 0xC 1,
      mgmt := BitVec.ofNat 64 (le b 0x10 8) }
  need (p.role ≤ 2 && p.index < 4096 && (p.standby < 4096 || p.standby == 0xFFFF)) badField
  need (1 ≤ p.transport && p.transport ≤ 3) badField
  need ((List.range 4).all fun i => le b (0x10 + 2 * i) 2 / 4096 % 8 == 0) badField
  need ((p.role == 0) == (p.index == 0)) badField
  need (zeros b 1 1 && zeros b 8 2 && zeros b 0xD 3 && zeros b 0x18 8) badField
  return p

/-- ATTIC (R43): sizes in KiB, which are slots of 1,024 bytes. -/
def atticOf (u : UnitsCfg) (b : List Byte) : Except Nat (List Nat) := do
  let l := (List.range 11).map fun p => le b (8 * p) 4
  need ((l.all fun k => k % 64 == 0) && l.sum == 65536) badField
  need ((List.range 11).all fun p => zeros b (8 * p + 4) 4) badField
  need (8192 ≤ l.getD 9 0 && 8192 ≤ l.getD 10 0 && 1024 ≤ l.getD 8 0) badField
  need ((List.range 8).all fun w => if u.wingEn.getLsbD w then 1024 ≤ l.getD w 0 else l.getD w 0 == 0) badField
  return l

/-- LIMITS (R44). -/
def limitsOf (b : List Byte) : Except Nat LimitsCfg := do
  let l : LimitsCfg := { capMiB := le b 0 4, spareFloor := le b 4 2, wearDelta := le b 8 4, horizon := le b 0xC 4 }
  need (1 ≤ l.capMiB && l.capMiB ≤ 65536 && 10 ≤ l.spareFloor && l.spareFloor ≤ 1000) badField
  need (1000 ≤ l.wearDelta && l.wearDelta ≤ 1000000 && 1 ≤ l.horizon) badField
  need (zeros b 6 2 && zeros b 0x10 16) badField
  return l

/-- FIRMWARE (R45): the version, when the Kamfel signature passes and the version is not below its floor. -/
def firmwareOf (floor : Nat) (b : List Byte) : Except Nat Nat := do
  need (le b 8 4 ≤ 0x800000 && zeros b 0xC 4 && zeros b 0x18 8) badField
  let msg := b.take (b.length - 256)
  let trailer := b.drop (b.length - 256)
  let key := trailer.take 97
  need (key == Config.kamfelKey && zeros trailer 97 15 && zeros trailer 0xD0 48) firmwareRejected
  need (Config.ecdsaVerify key ((trailer.drop 0x70).take 96) (Config.sha384 msg)) firmwareRejected
  need (floor ≤ le b 0x10 8) firmwareRejected
  return le b 0x10 8

/-- BIST (R46). -/
def bistOf (b : List Byte) : Except Nat BistCfg := do
  let word := fun o => (BitVec.ofNat 64 (le b o 8) : Word)
  need (le b 0x90 1 < 4 && zeros b 0x91 7) badField
  return { hallLbist := word 0, hallMbist := word 8, wingLbist := (List.range 8).map fun w => word (0x10 + 8 * w),
           wingMbist := (List.range 8).map fun w => word (0x50 + 8 * w), bootBist := le b 0x90 1 }

/-- SERVICE (R47). -/
def serviceOf (u : UnitsCfg) (b : List Byte) : Except Nat ServiceCfg := do
  let x : ServiceCfg :=
    { wings := BitVec.ofNat 8 (le b 0 1), larders := BitVec.ofNat 8 (le b 1 1), cellars := BitVec.ofNat 32 (le b 4 4),
      flags := le b 8 4 }
  need (x.wings &&& ~~~u.wingEn == 0 && x.larders &&& ~~~u.larderEn == 0 && x.cellars &&& ~~~u.cellarEn == 0) badField
  need (x.flags ≤ 1 && zeros b 2 2 && zeros b 0xC 4) badField
  return x

/-- The body of a section. -/
def bodyOf (secs : List Section) (t i : Nat) : Option (List Byte) :=
  (secs.find? fun x => x.type == t && x.inst == i).map Section.body

/-- The MEDIA instances of an image. -/
def mediaAll (secs : List Section) : List Nat → Except Nat (SMap MediaProfile)
  | [] => .ok []
  | p :: ps => match bodyOf secs 2 p with
    | none => mediaAll secs ps
    | some b => do
      let m ← mediaOf b
      let rest ← mediaAll secs ps
      return (p, m) :: rest

/-- The sections of an image, checked in type order (R48 step 5). -/
def planOf (part : Part) (floors : Nat × Nat) (h : ImgHeader) (secs : List Section) : Except Nat Plan := do
  let body := fun t i => (bodyOf secs t i).getD []
  let instances := (List.range 4).filter fun p => (bodyOf secs 2 p).isSome
  let units ← unitsOf part instances (body 1 0)
  let media ← mediaAll secs (List.range 4)
  let larder ← larderOf (body 3 0)
  let rooms ← roomsOf (body 4 0) false
  roomTableOk part units rooms
  let rings ← ringsOf (body 5 0)
  let power ← powerOf part (body 6 0)
  let (mons, steps, retries) ← railsOf (body 7 0)
  let thermal ← thermalOf (body 8 0)
  let react ← reactOf (body 9 0)
  let pantry ← pantryOf units rooms (body 10 0)
  let pool ← poolOf (body 11 0)
  let attic ← atticOf units (body 12 0)
  let limits ← limitsOf (body 13 0)
  let fw0 ← firmwareOf floors.1 (body 14 0)
  let fw1 ← firmwareOf floors.2 (body 14 1)
  let bist ← bistOf (body 15 0)
  let service ← match bodyOf secs 16 0 with
    | some b => serviceOf units b
    | none => pure { wings := 0, larders := 0, cellars := 0, flags := 0 }
  return { imageSeq := h.imageSeq, imageId := h.imageId, keyIndex := h.keyIndex, units := units, media := media,
           larder := larder, rooms := rooms, rings := rings, power := power, mons := mons, steps := steps,
           retries := retries, thermal := thermal, react := react, pantry := pantry, pool := pool, attic := attic,
           limits := limits, fwVersion := [fw0, fw1], bist := bist, service := service }

/-! ### Amendments, as far as the plan decides (R55, R60) -/

/-- Whether a changed room entry keeps what R60 keeps: CLASS, braced, KEY_SLOT and BASE. -/
def changeKeeps (old new : RoomCfg) : Bool :=
  old.cls == new.cls && old.braced == new.braced && (!old.persistent || old.keySlot == new.keySlot) && old.base == new.base

/-- The room table with one entry of an amendment applied (R60). -/
def amendRoom (l : List RoomCfg) (x : RoomCfg) : Except Nat (List RoomCfg) := do
  let x' := { x with action := 0 }
  match l.find? fun y => y.room == x.room with
  | none =>
    need (x.action == 1) badField
    return l ++ [x']
  | some y =>
    need (x.action != 1) badField
    if x.action == 3 then return l.filter fun z => z.room != x.room
    else
      need (changeKeeps y x) notAmendable
      return l.map fun z => if z.room == x.room then x' else z

/-- The table with every entry of an amendment applied, in order. -/
def amendRooms : List RoomCfg → List RoomCfg → Except Nat (List RoomCfg)
  | l, [] => .ok l
  | l, x :: xs => do
    let l ← amendRoom l x
    amendRooms l xs

/-- The plan with one section of an amendment applied, by the rules that need no live state (R60). -/
def amendSection (part : Part) (p : Plan) (x : Section) : Except Nat Plan :=
  match x.type with
  | 4 => do
    let entries ← roomsOf x.body true
    need (pairsOk (fun x y => x.room != y.room) entries) badField
    let rooms ← amendRooms p.rooms entries
    roomTableOk part p.units rooms
    need (!((bitsOf p.units.wingEn).any fun w => p.pantry.getD w 0 == 1) || rooms.all fun c => !c.persistent)
      parityPersistent
    return { p with rooms := rooms }
  | 5 => do let r ← ringsOf x.body; return { p with rings := r }
  | 8 => do let t ← thermalOf x.body; return { p with thermal := t }
  | 9 => do let r ← reactOf x.body; return { p with react := r }
  | 10 => do let l ← pantryOf p.units p.rooms x.body; return { p with pantry := l }
  | 11 => do
    let q ← poolOf x.body
    need (q.role == p.pool.role && q.index == p.pool.index && q.poolId == p.pool.poolId) notAmendable
    return { p with pool := q }
  | 13 => do let l ← limitsOf x.body; return { p with limits := l }
  | 15 => do
    let b ← bistOf x.body
    need (b.bootBist == p.bist.bootBist) notAmendable
    return { p with bist := b }
  | 16 => do let v ← serviceOf p.units x.body; return { p with service := v }
  | _ => .error notAmendable

/-- The plan with every section of an amendment applied, in type order. -/
def amendPlan (part : Part) (p : Plan) : List Section → Except Nat Plan
  | [] => .ok p
  | x :: xs => do
    let p ← amendSection part p x
    amendPlan part p xs

/-- The sections in type order. -/
def inTypeOrder (secs : List Section) : List Section := sortBy (fun (x : Section) => x.type * 65536 + x.inst) secs

/-! ### The slots and the log (R48, R51, R52) -/

/-- Slot bytes as far as its LENGTH says, at least the header. -/
def State.slotBytes (s : State) (slot : Nat) : List Byte :=
  let base := slotBase slot
  let n := le (flashBytes s.flash.cells (base + 8) 4) 0 4
  flashBytes s.flash.cells base (min slotSize (max 512 n))

/-- The unit record in force: the valid copy (R577). -/
def State.unitRecordNow (s : State) : Option UnitRecord :=
  match s.md.unitRecord with
  | (some r, _) => some r
  | (none, r) => r

/-- Step 6 of R48: the image fits the drained state, or no persistent room is there to lose (R577). -/
def State.fitsRecord (s : State) (p : Plan) : Bool :=
  match s.unitRecordNow with
  | none => true
  | some r => !r.persistent || (r.units == p.units && r.media == p.media && r.larder == p.larder)

/-- Steps 2 to 5 of R48 on a slot: what Image Check runs (R103). -/
def State.checkSlot (s : State) (slot : Nat) (answers : Bool) : Except Nat Plan := do
  need answers readError
  let b := s.slotBytes slot
  let (h, secs) ← formOf s.part b false
  planOf s.part s.cb.fwFloors h secs

/-- A slot on trial (R48 steps 2 to 6). -/
def State.trySlot (s : State) (slot : Nat) (answers : Bool) : Except Nat Plan := do
  let p ← s.checkSlot slot answers
  need (s.fitsRecord p) stateMismatch
  return p

/-- The order of trial (R48 step 1). -/
def State.slotOrder (s : State) (env : BootEnv) : List Nat :=
  let head := fun slot => flashBytes s.flash.cells (slotBase slot) 0x18
  let readable := fun slot => le (head slot) 0 4 == imageMagic && (if slot == 0 then env.flashA else env.flashB)
  let seq := fun slot => le (head slot) 0x10 8
  if readable 0 && readable 1 then (if seq 0 < seq 1 then [1, 0] else [0, 1])
  else if readable 1 then [1, 0] else [0, 1]

/-- The log's entries: offset, void, stored length, CRC; in order, up to a record with neither magic (R51). -/
def logEntries (cells : List Host.Cell) : Nat → Nat → List (Nat × Bool × Nat × Nat)
  | 0, _ => []
  | n + 1, off =>
    if logSize < off + 16 then []
    else
      let r := flashBytes cells (logBase + off) 16
      let magic := le r 0 4
      let len := le r 4 4
      if magic = 0x4B464C47 || magic = 0 then
        (off, magic == 0, len, le r 8 4) :: logEntries cells n ((off + 16 + len + 15) / 16 * 16)
      else []

/-- The log as it stands. -/
def State.log (s : State) : List (Nat × Bool × Nat × Nat) := logEntries s.flash.cells 4096 0

/-- Bytes the log takes. -/
def State.logUsed (s : State) : Nat :=
  match s.log.getLast? with
  | some (off, _, len, _) => (off + 16 + len + 15) / 16 * 16
  | none => 0

/-- The amendment of a log entry. -/
def State.logBytes (s : State) (e : Nat × Bool × Nat × Nat) : List Byte := flashBytes s.flash.cells (logBase + e.1 + 16) e.2.2.1

end Sys2Proof.Machine
end

