-- ==== Sys2Proof/Machine/Service.lean ====
section
/-! DEFINITION. Units out of service and back: drains, fences, losses, the acting home, re-admission and rebuild; the
parity deltas and the recompute of parity (R348 to R352, R357 to R371, R457, R458). -/

namespace Sys2Proof.Machine

/-! ### Units (R374) -/

/-- The number of a unit in HALL_SVC; a package belongs to its cellar. -/
def unitIndex : UnitId → Nat
  | .package c _ => 16 + c.val
  | .cellar c => 16 + c.val
  | .larder w => 8 + w.val
  | .wing w => w.val

/-- The wing of a unit. -/
def unitWing (u : Nat) : Nat := if u < 8 then u else if u < 16 then u - 8 else (u - 16) / 4

/-- The unit is enabled by the plan. -/
def State.unitEnabled (s : State) (u : Nat) : Bool :=
  if u < 8 then s.wings.contains u else if u < 16 then s.wings.contains (u - 8) else s.cellars.contains (u - 16)

/-- A frame sits on a unit; a Larder channel holds none. -/
def frameOn (u : Nat) (a : FrameAddr) : Bool :=
  if u < 8 then a.wing == u else if u < 16 then false else a.cellar == u - 16

/-- Sets or clears the STALLED level of a drain (R365). -/
def State.stalled (s : State) (u : Nat) (on : Bool) : State :=
  let s := (s.setFlag .HALL_SVC_STALLED u on).setReg .HALL_SVC_CAUSE u (if on then 4 else 1)
  s.level (srcBrace (unitWing u) 6) on

/-! ### The acting home (R358, R359) -/

/-- A wing takes the home role of another. -/
def State.actFor (s : State) (w v : Nat) : State :=
  let s := { s with
    br := { s.br with acting := put s.br.acting w v, window := s.br.window.filter fun x => x != w }
    ti := { s.ti with takeoverDir := if s.ti.takeoverDir.contains w then s.ti.takeoverDir else s.ti.takeoverDir ++ [w] } }
  (s.setReg .WING_BRACE_ACTING v (s.reg .WING_BRACE_ACTING v ||| 2 ^ w)).setFlag .WING_BRACE_TAKEOVER_DIR v true

/-- ACTING_HOME_SERVE: the failover window of a wing ends, and the requests it held go on in arrival order (R358,
R360). -/
def execActingHomeServe (w : Wing) (s : State) : Result :=
  if !s.br.window.contains w.val || !s.pw.dev.hallOn then .next s
  else match s.standIn w.val with
    | some v => .next (s.actFor w.val v).settle.drainAdvance
    | none => .next s

/-- The home role returns to a wing, and its takeover directory is over (R359, R368). -/
def State.homeReturns (s : State) (w : Nat) : State :=
  let s := match look s.br.acting w with
    | some v =>
      let bits := s.reg .WING_BRACE_ACTING v
      let bits := if bits.testBit w then bits - 2 ^ w else bits
      (s.setReg .WING_BRACE_ACTING v bits).setFlag .WING_BRACE_TAKEOVER_DIR v (bits != 0)
    | none => s
  { s with
    br := { s.br with acting := del s.br.acting w, window := s.br.window.filter fun x => x != w }
    ti := { s.ti with takeoverDir := s.ti.takeoverDir.filter fun x => x != w } }

/-! ### Partners (R351, R352) -/

/-- The wings whose partner is out copy what it held to a stand-in: REMIRROR until the copy is complete (R352). -/
def State.remirror (s : State) (w : Nat) : State :=
  (s.wings.filter fun h => h != w && s.partner h == w && s.wingUp h).foldl
    (fun (s : State) h => s.setFlag .HALL_SVC_REMIRROR h true) s

/-- The mirror copies of a wing's dirty braced lines are on its stand-in. -/
def State.mirrorTo (s : State) (w v : Nat) : State :=
  (s.homedOn w).foldl
    (fun (s : State) (x : Nat × Page) =>
      let room := keyRoom x.1
      match x.2.slot with
      | some sl =>
        if s.isBraced room && x.2.dirty then
          s.setPage room (keyPage x.1)
            { x.2 with mirror := sl.lines.filter fun l => sl.dirty.getLsbD l.1, mirrorOn := some v }
        else s
      | none => s)
    s

/-- REMIRROR_DONE: the copy of a wing's items to its stand-in is complete (R352). -/
def execRemirrorDone (w : Wing) (s : State) : Result :=
  let h := w.val
  if !s.flag .HALL_SVC_REMIRROR h then .next s
  else match s.standIn h with
    | some v => .next (((s.mirrorTo h v).setFlag .HALL_SVC_REMIRROR h false).emit (srcBrace h 4))
    | none => .next s

/-! ### Out of service (R364, R365) -/

/-- Moves a plain page's frame to another wing; false when there is no frame to move to (R364 step 3). -/
def State.moveAway (s : State) (w room page : Nat) : State × Bool :=
  let k := pageKey room page
  let o := MediaOp.kind
  if (s.md.queue ++ s.md.inflight).any (fun x => o x == .migrate k) || s.md.wear.contains k then (s, true)
  else match s.allocate (s.wings.filter fun v => v != w && s.wingUp v) [] with
    | some a =>
      let s := s.useFrame a room (s.localIndex page) (s.home room page) 0 5
      (s.queueOp (mediaOp (.migrate k) 7 a 0), true)
    | none => (s, false)

/-- The plain pages with frames on a unit. -/
def State.plainOn (s : State) (u : Nat) : List (Nat × Nat) :=
  (s.pagesOn (frameOn u)).filter fun x => !s.isBraced x.1

/-- Moves every plain page off a unit, and says whether the drain stalls. -/
def State.moveAll (s : State) (u : Nat) : State :=
  let (s, ok) := (s.plainOn u).foldl
    (fun (acc : State × Bool) (x : Nat × Nat) =>
      let (s, ok) := acc.1.moveAway (unitWing u) x.1 x.2
      (s, acc.2 && ok))
    (s, true)
  s.stalled u (!ok)

/-- Writes back every dirty page homed on a wing (R364 step 2). -/
def State.writeBackHome (s : State) (w : Nat) : State :=
  ((s.homedOn w).filter fun x => x.2.dirty).foldl
    (fun (s : State) (x : Nat × Page) => s.queueWriteBack (keyRoom x.1) (keyPage x.1) 5) s

/-- A SERVICE amendment takes a unit out: DRAINING, and the moves of R364 begin. -/
def State.takeOut (s : State) (u : Nat) : State :=
  let s := (s.setSvc u 1 1).setReg .HALL_SVC_PROGRESS u 0
  let s := if u < 16 then (s.writeBackHome (unitWing u)).openWindow (unitWing u) else s
  if u < 8 || 16 ≤ u then s.moveAll u else s

/-- The drain of a unit has nothing left to move or to write back. -/
def State.drained (s : State) (u : Nat) : Bool :=
  let w := unitWing u
  (16 ≤ u || ((s.homedOn w).all fun x => !x.2.dirty) &&
    ((look s.br.acting w).isSome || (s.standIn w).isNone)) &&
  ((8 ≤ u && u < 16) || (s.plainOn u).isEmpty)

/-- The groups switched off with a unit (R458): all of a wing's; a Larder channel's only when its domain is alone. -/
def State.fenceGroups (s : State) (u : Nat) : List Nat :=
  let w := unitWing u
  if u < 8 then s.groupsOf (wingDomains w)
  else if u < 16 then (s.groupsOf [9 + 5 * w]).filter fun g => s.groupDomains g == [9 + 5 * w]
  else []

/-- The unit is FENCED: its domains go off, and with a Larder channel or wing its slice and directory go. -/
def State.fence (s : State) (u : Nat) : State :=
  let w := unitWing u
  let s := (s.setReg .HALL_SVC_STATE u 2).setReg .HALL_SVC_STRIPES u (s.stripesOn (frameOn u))
  let s := (s.stalled u false).setReg .HALL_SVC_PROGRESS u 10000
  let s := (s.fenceGroups u).foldl (fun (s : State) g => s.switchGroup g false) s
  let s := if u < 16 then
      let s := (s.homedOn w).foldl State.larderGone s
      let s := ((s.dropSliceOf w).setFlag .PAN_STATUS_INIT_DONE w false).remirror w
      let s := (s.setFlag .LAR_STATUS_TRAINED w false).setFlag .LAR_STATUS_OUT_OF_SERVICE w true
      if u < 8 then s.loseChannels w else s
    else s
  (s.emit (srcBrace w 2)).settle

/-- UNIT_FENCED: a drained unit goes FENCED; a drain that found no frame tries again and stays STALLED (R364, R365). -/
def execUnitFenced (u : UnitId) (s : State) : Result :=
  let i := unitIndex u
  match u with
  | .package _ _ => .next s
  | _ =>
    if s.svc i != 1 || !s.pw.dev.hallOn then .next s
    else if s.drained i then .next (s.fence i).drainAdvance
    else .next (if 8 ≤ i && i < 16 then s else s.moveAll i)

/-! ### Loss (R357 to R362, R369) -/

/-- UNIT_LOSS: a unit is found lost (R357). One that was DRAINING or REBUILDING is LOST as well (R369). -/
def execUnitLoss (u : UnitId) (s : State) : Result :=
  if !s.pw.dev.hallOn then .next s
  else
    let s := { s with br := { s.br with readmit := s.br.readmit.filter fun x => x != unitIndex u } }
    let s := match u with
      | .package c p => s.losePackage c.val p.val
      | .cellar c => s.loseCellar c.val
      | .larder w => (s.loseLarder w.val).remirror w.val
      | .wing w => (s.loseWing w.val).remirror w.val
    .next s.spareLevels.settle.drainAdvance

/-! ### Back in service (R366 to R368) -/

/-- All frames of a unit are stale, and the overwrites journalled for it come first (R133, R366). -/
def State.staleFrames (s : State) (u : Nat) : State :=
  let one := fun (k : Nat) (f : Frame) =>
    if frameOn u (frameOfKey k) && (f.st == 2 || f.st == 5) then { f with stale := true } else f
  let s := { s with md := { s.md with frames := mapAll s.md.frames one } }
  (s.md.overwrites.filter fun k => frameOn u (frameOfKey k)).foldl
    (fun (s : State) k => s.queueOp (mediaOp .overwrite 5 (frameOfKey k) 0)) s

/-- The braced pages to rebuild for a unit: those with a stale frame on it and those left VACANT, in order of room and
stripe (R367). -/
def State.rebuildList (s : State) (u : Nat) : List (Nat × Nat) :=
  let on := s.pagesOn fun a => frameOn u a && (match look s.md.frames a.key with | some f => f.stale | none => false)
  sortBy (fun (x : Nat × Nat) => pageKey x.1 x.2) (on.filter fun x => s.isBraced x.1)

/-- A member is rebuilt onto its own frame, or onto a new one when it is VACANT. -/
def State.rebuildMember (s : State) (room page : Nat) : State :=
  let (st, m) := s.stripeOf page
  let k := pageKey room page
  let frame := (s.page room page).entry.frame
  if (s.stripe room st).vacant.getLsbD m then
    let w := match frame with | some a => a.wing | none => s.home room page
    s.queueRebuild room page (if s.part == .y2 then s.wings else [w]) []
  else match frame with
    | some a => if s.opQueued (.rebuild k) 0 then s else s.queueOp (mediaOp (.rebuild k) 6 a 0)
    | none => s

/-- REBUILDING: the rebuild starts from the first stripe (R366, R367). -/
def State.startRebuild (s : State) (u : Nat) : State :=
  let s := (s.setReg .HALL_SVC_STATE u 4).setReg .HALL_SVC_PROGRESS u 0
  let s := { s with br := { s.br with
    rebuildPtr := put s.br.rebuildPtr u 0, readmit := s.br.readmit.filter fun x => x != u } }
  let s := s.staleFrames u
  let s := (s.rebuildList u).foldl (fun (s : State) x => s.rebuildMember x.1 x.2) s
  if u < 16 then s.homeReturns (unitWing u) else s

/-- The Larder of a returning unit is trained next, and its slice's tags are invalidated (R148, R366). -/
def State.trainNext (s : State) (u : Nat) : State :=
  let s := { s with br := { s.br with readmit := if s.br.readmit.contains u then s.br.readmit else s.br.readmit ++ [u] } }
  s.setFlag .PAN_STATUS_INIT_DONE (unitWing u) false

/-- A SERVICE amendment returns a unit: a drain just stops, a FENCED or LOST unit is re-admitted, a wing after its BIST
when flags bit 0 is set (R365, R366). During a command's BIST run the return waits for its end (R534). -/
def State.bringBack (s : State) (u : Nat) (bist : Bool) : State :=
  let w := unitWing u
  let wait := fun (s : State) => { s with
    br := { s.br with readmit := if s.br.readmit.contains u then s.br.readmit else s.br.readmit ++ [u] } }
  match s.svc u with
  | 1 =>
    let s := (s.stalled u false).setSvc u 0 0
    if u < 16 then s.homeReturns w else s
  | 3 => wait s
  | 2 | 5 =>
    if s.br.readmit.contains u then s
    else if u < 8 && s.me.running.any (fun r => r.1 == u) then wait s
    else
    let s := (if u < 16 then (s.fenceGroups u).foldl (fun (s : State) g => s.switchGroup g true) s else s)
    if 16 ≤ u then s.startRebuild u
    else if u < 8 && bist then
      let s := { s with
        me := { s.me with running := s.me.running ++ [(w, 2, true)] }
        br := { s.br with readmit := if s.br.readmit.contains u then s.br.readmit else s.br.readmit ++ [u] } }
      ((s.setReg .HALL_SVC_STATE u 3).setReg .BST_STATUS_STATE w 1).setReg .BST_STATUS_KIND w 2
    else s.trainNext u
  | _ => s

/-- LARDER_TRAINING_DONE: a re-admitted channel is trained and its unit REBUILDING, or its training failed and it is
LOST (R366). -/
def execLarderTrainingDone (w : Wing) (ok : Bool) (s : State) : Result :=
  let w := w.val
  match s.br.readmit.find? fun u =>
      u < 16 && unitWing u == w && s.svc u != 3 && s.me.running.all (fun r => r.1 != u) with
  | none => .next s
  | some u =>
    if !s.pw.dev.hallOn then .next s
    else if ok then
      let s := (s.setFlag .LAR_STATUS_TRAINED w true).setFlag .LAR_STATUS_OUT_OF_SERVICE w false
      .next (s.startRebuild u).settle.drainAdvance
    else
      let s := { s with br := { s.br with readmit := s.br.readmit.filter fun x => x != u } }
      .next ((s.setSvc u 5 2).emit (srcLarder w 6)).settle

/-- The rebuild of a unit has nothing left. -/
def State.rebuildOver (s : State) (u : Nat) : Bool :=
  (s.rebuildList u).isEmpty && (s.md.queue ++ s.md.inflight).all fun o =>
    match o.kind with
    | .rebuild _ | .overwrite => !frameOn u o.at_
    | _ => true

/-- UNIT_REBUILT: the pointer has passed the last stripe (R368). -/
def execUnitRebuilt (u : UnitId) (s : State) : Result :=
  let i := unitIndex u
  match u with
  | .package _ _ => .next s
  | _ =>
    if s.svc i != 4 || !s.pw.dev.hallOn || !s.rebuildOver i then .next s
    else
      let s := ((s.setSvc i 0 0).setReg .HALL_SVC_PROGRESS i 10000).setReg .HALL_SVC_STRIPES i 0
      let s := { s with br := { s.br with rebuildPtr := del s.br.rebuildPtr i } }
      .next (s.emit (srcBrace (unitWing i) 3)).settle

/-- PROGRESS while a drain or a rebuild runs: R374 gives it no measure, so it is a free value up to 100 %. -/
def State.progressNow (s : State) (u : Nat) : State :=
  if s.svc u == 1 || s.svc u == 4 then
    let (v, s) := s.free
    s.setReg .HALL_SVC_PROGRESS u (v.toNat % 10001)
  else s

/-! ### Parity (R348 to R350, R371) -/

/-- A delta reaches the parity slot: its position settles; a released frame that waited for it is free (R348, R350). -/
def State.applyDelta (s : State) (d : ParityDelta) : State :=
  let room := d.stripe / 2 ^ 40
  let st := d.stripe % 2 ^ 40
  let x := s.stripe room st
  let cur := x.at_ d.position
  let s := s.setStripe room st
    { x with lines := put x.lines d.position (cur.1 ^^^ d.dct, cur.2 ^^^ d.dmac), dirty := true }
  let s := match d.free with | some a => s.freeFrame a | none => s
  s.queueParity room st 5

/-- PARITY_DELTA (R348): the oldest delta on its way to a parity wing. -/
def execParityDelta (w : Wing) (s : State) : Result :=
  match takeFirst (fun (d : ParityDelta) => d.wing == w.val) s.br.deltas with
  | none => .next s
  | some (d, rest) =>
    if !s.pw.dev.hallOn then .next s
    else .next (({ s with br := { s.br with deltas := rest } } : State).applyDelta d).settle.drainAdvance

/-- The parity of a stripe from its members' frames (R371). -/
def State.recomputed (s : State) (room st : Nat) : SMap (Line × Mac) :=
  let d := s.part.stripeData
  let floor := match s.room room with | some r => s.floorOf r.cfg | none => 0
  (List.range 64).foldl
    (fun (m : SMap (Line × Mac)) l =>
      let v := (List.range d).foldl
        (fun (acc : Line × Mac) i =>
          let c := s.contribution floor (s.page room (st * d + i)) l
          (acc.1 ^^^ c.1, acc.2 ^^^ c.2))
        (0, 0)
      if v = (0, 0) then m else put m l v)
    []

/-- PARITY_RECOMPUTE: the parity of one stripe of a parity wing is computed again (R371). -/
def execParityRecompute (w : Wing) (s : State) : Result :=
  let mine := fun (s : State) => s.br.stripes.filter fun x =>
    x.2.recompute && s.parityWing (x.1 / 2 ^ 40) (x.1 % 2 ^ 40) == w.val
  match mine s with
  | [] => .next s
  | (k, x) :: _ =>
    if s.pw.dev != .serving then .next s
    else
      let room := k / 2 ^ 40
      let st := k % 2 ^ 40
      let s := s.setStripe room st { x with lines := s.recomputed room st, dirty := true, recompute := false }
      let s := s.queueParity room st 5
      let more := !(mine s).isEmpty
      let s := s.setFlag .WING_BRACE_RECOMPUTE w.val more
      .next (if more then s else s.emit (srcBrace w.val 5))

/-- GROUP_SWITCH_TIMEOUT: the group in front did not switch in time; the event alone is stated (R457, R478). -/
def execGroupSwitchTimeout (group : Fin 46) (s : State) : Result :=
  match s.pw.switching with
  | (g, _) :: _ => .next (if g == group.val then s.emit srcGroupTimeout else s)
  | [] => .next s

end Sys2Proof.Machine
end

