-- ==== Sys2Proof/Machine/Boot.lean ====
section
/-! DEFINITION. Power-up from the first Hall step to the end of BOOT: the sequencer's steps, what BOOT restores from the
Cupboard, the load of the floor plan with its log, self-test, identification, training (R25, R48 to R53, R62, R148,
R158, R196, R212, R444 to R450, R454, R534, R535, R552). -/

namespace Sys2Proof.Machine

/-! ### What BOOT restores (R516 to R519, R552) -/

/-- The four fields of each source that the Cupboard keeps (R517). -/
def State.restoreSources (s : State) : State :=
  s.cb.sources.foldl
    (fun (s : State) (x : Nat × Nat × Nat × Nat × Nat) =>
      let s := (s.setReg .FLT_SRC_COUNT x.1 x.2.1).setReg .FLT_SRC_BUCKET_EN x.1 x.2.2.1
      (s.setReg .FLT_SRC_DEPTH x.1 x.2.2.2.1).setReg .FLT_SRC_LEAK x.1 x.2.2.2.2)
    s

/-- The rail counters of the Cupboard with the last fault and the last timeouts added (R454). -/
def State.railCounters (s : State) : SMap (Nat × Nat × Nat) :=
  let m := s.cb.rails
  let bump := fun (m : SMap (Nat × Nat × Nat)) (k : Nat) (f : Nat × Nat × Nat → Nat × Nat × Nat) =>
    put m k (f (lookD m k (0, 0, 0)))
  let m := if s.pw.railSnapshot && s.pw.railMon < 32 then
      bump m s.pw.railMon fun x => if s.pw.railHigh then (x.1, satAdd 16 x.2.1 1, x.2.2) else (satAdd 16 x.1 1, x.2.1, x.2.2)
    else m
  s.pw.timeouts.foldl (fun m k => bump m k fun x => (x.1, x.2.1, satAdd 16 x.2.2 1)) m

/-- The snapshot's record in the Attic: the monitor, its direction and the conversions (R454). -/
def State.snapRecord (s : State) : State :=
  s.atticNote 8 3 0x02
    (BitVec.ofNat 64 (s.pw.railMon + if s.pw.railHigh then 256 else 0) ::
      (List.range 32).map fun m =>
        BitVec.ofNat 64 (s.reg .FBX_SNAP_READING m + 4096 * s.reg .FBX_SNAP_OUTSIDE m))

/-- The rail faults and timeouts since the last BOOT go to the Attic and the Cupboard (R450, R454). -/
def State.bootRails (s : State) : State :=
  let rails := s.railCounters
  let s := rails.foldl
    (fun (s : State) (x : Nat × Nat × Nat × Nat) =>
      let s := (s.setReg .FBX_RAILCNT_LOW_FAULTS x.1 x.2.1).setReg .FBX_RAILCNT_HIGH_FAULTS x.1 x.2.2.1
      s.setReg .FBX_RAILCNT_SEQ_TIMEOUTS x.1 x.2.2.2)
    s
  let s := if s.pw.railSnapshot then
      let s := s.snapRecord.setFlag .HALL_STATE_UNCLEAN_RAIL 0 true
      let s := if s.pw.railMon < 32 then s.emit (srcRail s.pw.railMon) else s.emit srcLref
      s.emit srcUncleanRail
    else s
  let s := if s.pw.railSnapshot || !s.pw.timeouts.isEmpty then
      s.queueRecord [2802, 2804, 2806, 2808] [2803, 2805, 2807, 2809] (.rails rails)
    else s
  { s with pw := { s.pw with railSnapshot := false, timeouts := [] } }

/-- A spread counter that has reached its end, or has no page left to go to (R516). -/
def State.counterSpent (s : State) (k : Nat) : Bool :=
  s.counterValue k + 1 == 2 ^ 64 || (s.nextCounterPage k ((s.counterAt k).map Prod.fst)).isNone

/-- The Cupboard's values and the fuses' (R62, R516, R552). -/
def State.bootRestore (s : State) : State :=
  let s := s.setReg .CPB_STATUS_SATURATED 0
    ((List.range 16).foldl (fun v k => if s.counterSpent k then v ||| 2 ^ k else v) 0)
  let s := s.setReg .HALL_DRAIN_STATUS_DIRTY_STOPS 0 (min (2 ^ 32 - 1) (s.counterValue 2))
  let s := (s.restoreSources.bootRails).advanceCounter 3 (s.counterValue 3 + 1)
  let s := { s with
    res := { s.res with stored := s.cb.reservoir }
    rt := { s.rt with corrections := s.cb.corrections }
    pl := { s.pl with escrowKey := s.cb.escrow.bind (Config.unwrap Config.wrapKey) } }
  let s := s.setReg .PRC_RES_MEAS_CAP 0 (match s.cb.reservoir with | some (c, _) => c | none => 0)
  let bits := fun (f : Nat → Bool) => ((List.range 4).map fun i => if f i then 2 ^ i else 0).sum
  let s := s.setReg .HALL_FP_KEYS_SLOT_VALID 0 (bits fun i => (Config.fuseKeyHash i).isSome)
  s.setReg .HALL_FP_KEYS_SLOT_REVOKED 0 (bits Config.fuseRevoked)

/-- The keys that are new at each start (R110, R121, R311). -/
def State.newStartKeys (s : State) : State :=
  let (eph, s) := s.newKey
  let (buf, s) := s.newKey
  let s := { s with lk := { s.lk with eph := eph, buffer := buf, ephFloor := 0, amdHash := 0, imageHash := 0 } }
  s.setFlag .LKS_STATUS_EPH_READY 0 true

/-- The reservoir at the start of a BOOT: a charge test is due, and an ABSENT or FAILED bank is tried again, unless its
NTC alone failed (R292, R293). -/
def State.bootReservoir (s : State) : State :=
  let s := { s with res := { s.res with testDue := true } }
  if s.res.st == .absent || (s.res.st == .failed && !s.res.ntcOnly) then s.recharge else s

/-- Enters BOOT: the Hall's domains are on, and what is not in the image is restored. -/
def State.enterBoot (s : State) : State :=
  let s := s.goto .boot
  let s := { s with pw := { s.pw with bootTried := false, delaying := false, boot := none, recovered := false } }
  let s := ((s.setReg .FBX_PD_ON 0 63).setReg .FBX_SEQ_PHASE 0 0)
  s.bootRestore.newStartKeys.bootReservoir

/-! ### The floor plan's registers (R40, R41, R62, R552) -/

/-- The code of a die density in LAR_CFG (R182). -/
def densityCode (gbit : Nat) : Nat := if gbit = 16 then 0 else if gbit = 24 then 1 else if gbit = 32 then 2 else 3

/-- PAN_CFG and LAR_CFG of a wing. -/
def State.loadWingRegs (s : State) (p : Plan) (w : Nat) : State :=
  let parity := p.pantry.getD w 0 == 1
  let s := (s.setFlag .PAN_CFG_MODE w parity).setReg .PAN_CFG_WAYS w (if parity then 18 else 16)
  let s := (s.setReg .LAR_CFG_SPEED w p.larder.speed).setReg .LAR_CFG_RANKS w (p.larder.ranks - 1)
  let s := (s.setReg .LAR_CFG_DENSITY w (densityCode p.larder.density)).setReg .LAR_CFG_TOPO w p.larder.topo
  let s := (s.setReg .LAR_CFG_CAPACITY w p.larder.capacity).setReg .LAR_CFG_META_SHARE w p.larder.metaShare
  (s.setReg .LAR_CFG_DIR_SHARE w p.larder.dirShare).setReg .LAR_CTRL_SCRUB_HOURS w p.larder.scrubHours

/-- The thermal levels and windows (R39). -/
def State.loadThermal (s : State) (t : ThermalCfg) : State :=
  let v := unsignedOf 16
  let s := (s.setReg .CHM_LEVELS_WARN 0 (v t.warn)).setReg .CHM_LEVELS_THROTTLE 0 (v t.throttle)
  let s := (s.setReg .CHM_LEVELS_SHUTDOWN 0 (v t.shutdown)).setReg .CHM_LEVELS_HYST 0 t.hyst
  let s := (s.setReg .CHM_WIN0_MEDIA_LO 0 (v t.mediaLo)).setReg .CHM_WIN0_MEDIA_HI 0 (v t.mediaHi)
  let s := (s.setReg .CHM_WIN0_DRAIN_LO 0 (v t.drainLo)).setReg .CHM_WIN0_DRAIN_HI 0 (v t.drainHi)
  (s.setReg .CHM_WIN1_CHG_LO 0 (v t.chgLo)).setReg .CHM_WIN1_CHG_HI 0 (v t.chgHi)

/-- The reactions; sources 0 to 4 are fixed (R40, R480). -/
def State.loadReact (s : State) (l : List Nat) : State :=
  ((l.zipIdx).drop 5).foldl
    (fun (s : State) (x : Nat × Nat) =>
      (s.setReg .FLT_SRC_REACTION x.2 (x.1 % 4)).setReg .FLT_SRC_ERR_N x.2 (x.1 / 4 % 2))
    s

/-- The monitors' windows; those of disabled monitors are not loaded (R38, R576). -/
def State.loadMons (s : State) (l : List MonCfg) : State :=
  (l.zipIdx).foldl
    (fun (s : State) (x : MonCfg × Nat) =>
      if x.1.enabled then
        let s := (s.setReg .FBX_MON_LOW x.2 x.1.low).setReg .FBX_MON_HIGH x.2 x.1.high
        (s.setReg .FBX_MON_GLITCH x.2 x.1.glitch).setReg .FBX_MON_QUAL x.2 x.1.qual
      else s)
    s

/-- The units the SERVICE section leaves out start FENCED (R47, R363). -/
def State.loadService (s : State) (v : ServiceCfg) : State :=
  let us := bitsOf v.wings ++ (bitsOf v.larders).map (fun w => 8 + w) ++ (bitsOf v.cellars).map fun c => 16 + c
  us.foldl (fun (s : State) (u : Nat) => s.setSvc u 2 1) s

/-- ROLE, INDEX, term and what the device knows of its pool: from the pool record when it is of this pool, else from the
POOL section (R410). -/
def State.loadPool (s : State) (p : PoolCfg) : State :=
  let (own, role, index, term, manager, standby) := match s.cb.pool with
    | some (id, role, index, term, manager, standby) =>
      if id = p.poolId then (true, role, index, term, manager, standby) else (false, p.role, p.index, 0, 0, p.standby)
    | none => (false, p.role, p.index, 0, 0, p.standby)
  let s := { s with pl := { s.pl with
    poolId := p.poolId, manager := manager, standby := standby, mirrored := s.pl.mirrored || !own } }
  let s := (s.setReg .LND_STATE_ROLE 0 role).setReg .LND_STATE_INDEX 0 index
  (s.setReg .LND_TERM 0 term).setReg .PRC_RT_PHASE 0 (index % 16)

/-- The boot record, written when it changes (R517). -/
def State.putBootRecord (s : State) (p : Plan) : State :=
  if s.cb.boot == some (p.retries, p.imageSeq) then s
  else s.queueRecord [2764] [2765] (.boot (p.retries, p.imageSeq))

/-- A loaded plan takes effect. -/
def State.loadPlan (s : State) (p : Plan) : State :=
  let s := { s with plan := some p }
  let s := s.wings.foldl (fun s w => s.loadWingRegs p w) s
  let s := (((s.loadThermal p.thermal).loadReact p.react).loadMons p.mons).loadService p.service
  (s.loadPool p.pool).putBootRecord p

/-! ### The slots and the log (R48 to R53) -/

/-- A slot failed: its cause, and the event (R49). -/
def State.slotFailed (s : State) (slot cause : Nat) : State :=
  (if slot = 0 then s.setReg .HALL_FP_STATUS_A_CAUSE 0 cause else s.setReg .HALL_FP_STATUS_B_CAUSE 0 cause).emit
    srcSlotFailed

/-- Tries slots in order (R48 steps 2 to 7). -/
def State.trySlots (s : State) (env : BootEnv) : List Nat → State × Option (Nat × Plan)
  | [] => (s, none)
  | slot :: rest =>
    match s.trySlot slot (if slot = 0 then env.flashA else env.flashB) with
    | .ok p => (s, some (slot, p))
    | .error cause => State.trySlots (s.slotFailed slot cause) env rest

/-- The flash protocol and clock that SFDP allows (R25). -/
def State.flashClock (s : State) (env : BootEnv) : State :=
  if env.sfdp8d && 7 ≤ env.sfdpMHz && !s.flag .HALL_FLASH_CTRL_SINGLE_ONLY 0 then
    let div := max 8 ((1600 + env.sfdpMHz - 1) / env.sfdpMHz)
    (s.setReg .HALL_FLASH_CTRL_MODE 0 1).setReg .HALL_FLASH_CTRL_CLK_DIV 0 div
  else s

/-- Voids log entries: their MAGIC is programmed to zero (R52). -/
def State.voidEntries (s : State) (l : List (Nat × Bool × Nat × Nat)) : State :=
  let cells := l.foldl (fun c e => flashProgram c (logBase + e.1) [0, 0, 0, 0]) s.flash.cells
  { s with flash := { s.flash with cells := cells } }

/-- h of measurement block 4 after an amendment (R341). -/
def hashChain (h : BitVec 384) (b : List Byte) : BitVec 384 :=
  Config.sha384 (toBytes 48 h.toNat ++ toBytes 48 (Config.sha384 b).toNat)

/-- One log entry, checked and applied to the plan rebuilt so far (R51). -/
def State.replayEntry (s : State) (p : Plan) (e : Nat × Bool × Nat × Nat) : Except Nat (Plan × Nat × List Byte) := do
  let b := s.logBytes e
  need ((crc32 b).toNat == e.2.2.2) badCrc
  let (h, secs) ← formOf s.part b true
  need (h.imageId == p.imageId && h.imageSeq == p.imageSeq) wrongBase
  need (h.amdSeq == s.reg .HALL_AMD_SEQ 0 + 1) staleSeq
  let p ← amendPlan s.part p (inTypeOrder secs)
  return (p, h.amdSeq, b)

/-- Replays the entries in order; the first that fails stops it and is voided with all after it (R51, R52). -/
def State.replay (s : State) (p : Plan) : List (Nat × Bool × Nat × Nat) → State × Plan
  | [] => (s, p)
  | e :: rest =>
    if e.2.1 then State.replay s p rest
    else match s.replayEntry p e with
      | .ok (p, seq, b) =>
        let s := { s with lk := { s.lk with amdHash := hashChain s.lk.amdHash b } }
        State.replay (s.setReg .HALL_AMD_SEQ 0 seq) p rest
      | .error _ =>
        let s := (s.setFlag .HALL_FP_STATUS_REPLAY_STOPPED 0 true).emit srcReplayStopped
        (s.voidEntries (e :: rest), p)

/-- IMAGE_ID of a log entry. -/
def State.entryImage (s : State) (e : Nat × Bool × Nat × Nat) : Nat := le (s.logBytes e) 0x28 16

/-- The log of another image is erased (R53). -/
def State.eraseForeign (s : State) (p : Plan) : State :=
  match s.log.find? fun e => !e.2.1 with
  | some e =>
    if s.entryImage e == p.imageId then s
    else
      ({ s with flash := { s.flash with cells := flashErase s.flash.cells logBase logSize } } : State).emit srcLogErased
  | none => s

/-- USED and ENTRIES of the log. -/
def State.logFields (s : State) : State :=
  (s.setReg .HALL_AMD_LOG_USED 0 s.logUsed).setReg .HALL_AMD_LOG_ENTRIES 0 s.log.length

/-- A slot passed: its identity, its log, and the first RAILS step (R48 steps 8 and 9). -/
def State.imageLoaded (s : State) (slot : Nat) (p : Plan) : State :=
  let s := (s.setReg .HALL_FP_STATUS_ACTIVE 0 (slot + 1)).setFlag .HALL_FLASH_CTRL_WP_ACTIVE 0 true
  let s := (s.setReg .HALL_FP_SEQ_IMAGE_SEQ 0 p.imageSeq).setReg .HALL_FP_KEYS_KEY_USED 0 p.keyIndex
  let s := (s.setReg .HALL_FP_ID0_ID_LO 0 (p.imageId % 2 ^ 64)).setReg .HALL_FP_ID1_ID_HI 0 (p.imageId / 2 ^ 64)
  let s := { s with lk := { s.lk with imageHash := Config.sha384 (s.slotBytes slot), amdHash := 0 } }
  let s := s.eraseForeign p
  let (s, p) := (s.setReg .HALL_AMD_SEQ 0 0).replay p s.log
  (s.logFields.loadPlan p).raiseStep false 1

/-- FLOOR_PLAN_LOAD (R48). With both slots failed the device stays in BOOT (R50). -/
def execFloorPlanLoad (env : BootEnv) (s : State) : Result :=
  if s.pw.dev != .boot || s.pw.bootTried then .next s
  else
    let s := { s with pw := { s.pw with bootTried := true, boot := some env } }
    let s := (s.flashClock env).setReg .HALL_FP_STATUS_ACTIVE 0 0
    match s.trySlots env (s.slotOrder env) with
    | (s, some (slot, p)) => .next (s.imageLoaded slot p)
    | (s, none) => .next (s.setFlag .HALL_FLASH_CTRL_WP_ACTIVE 0 false)

/-! ### Self-test in BOOT (R46, R533 to R535) -/

/-- A BIST result: the signatures and whether each run passes, for target `t` and the runs of `kinds`. -/
def State.bistResult (s : State) (t : Nat) (lb mb : Bool) (got want : Word × Word) : State × Bool :=
  let ok := (!lb || got.1 == want.1) && (!mb || got.2 == want.2)
  let s := if lb then s.setReg .BST_MISR (2 * t) got.1.toNat else s
  let s := if mb then s.setReg .BST_MISR (2 * t + 1) got.2.toNat else s
  let s := s.setReg .BST_STATUS_KIND t (if lb && mb then 2 else if mb then 1 else 0)
  (s.setReg .BST_STATUS_STATE t (if ok then 2 else 3), ok)

/-- A unit fails its test in BOOT and comes up FENCED with CAUSE 3; one that is fenced already keeps its cause. -/
def State.fenceTested (s : State) (u : Nat) : State := if s.svc u == 0 then s.setSvc u 2 3 else s

/-- BIST of the wings, where the plan asks for it (R46, R534). -/
def State.bistWings (s : State) (p : Plan) (env : BootEnv) : State :=
  if !p.bist.bootBist.testBit 1 then s
  else s.wings.foldl
    (fun (s : State) (w : Nat) =>
      let (s, ok) := s.bistResult w true true (env.wingMisr.getD w (0, 0))
        (p.bist.wingLbist.getD w 0, p.bist.wingMbist.getD w 0)
      if ok then s else s.fenceTested w)
    s

/-- The checkers' self-test: BST_ECC, and the units of failed checkers FENCED (R535). -/
def State.checkers (s : State) (v : Nat) : State :=
  let s := ((s.setReg .BST_ECC_PANTRY 0 (v % 256)).setReg .BST_ECC_LARDER 0 (v / 2 ^ 8 % 256)).setReg .BST_ECC_CELLAR 0
    (v / 2 ^ 16 % 2 ^ 32)
  let s := ((s.setReg .BST_ECC_MAC 0 (v / 2 ^ 48 % 256)).setReg .BST_ECC_CORRIDOR 0 (v / 2 ^ 56 % 2)).setReg
    .BST_ECC_CUPBOARD 0 (v / 2 ^ 57 % 2)
  let s := (s.setReg .BST_ECC_FIXED 0 (v / 2 ^ 58 % 32)).setFlag .BST_ECC_DONE 0 true
  let s := s.wings.foldl
    (fun (s : State) (w : Nat) =>
      let s := if v.testBit w || v.testBit (48 + w) then s.fenceTested w else s
      if v.testBit (8 + w) then s.fenceTested (8 + w) else s)
    s
  s.cellars.foldl (fun (s : State) (c : Nat) => if v.testBit (16 + c) then s.fenceTested (16 + c) else s) s

/-! ### Identification, formatting and training (R158, R196, R212) -/

/-- IDENT of a cellar's packages: those that answer as their profile says, and those that do not (R196, R225). -/
def State.identCellar (s : State) (p : Plan) (env : BootEnv) (c : Nat) : State :=
  let n := p.units.packages.getD c 0
  let named := 2 ^ n - 1
  let good := (env.ident.getD c 0).toNat &&& named
  let bad := named - good
  let s := ((s.setReg .CEL_STATUS_PRESENT c named).setReg .CEL_STATUS_FAILED c bad).setFlag .CEL_STATUS_READY c (good != 0)
  let m := s.profile c
  let s := (List.range n).foldl
    (fun (s : State) (k : Nat) =>
      if bad.testBit k then s.emit (srcCellar c 6)
      else
        let (serial, s) := s.free
        let s := match m with
          | some m => (s.setReg .CEL_ID_VENDOR (8 * c + k) m.vendor).setReg .CEL_ID_DEVICE (8 * c + k) m.device
          | none => s
        s.setReg .CEL_ID_SERIAL (8 * c + k) serial.toNat)
    s
  if good = 0 then s.setFlag .CEL_STATUS_BUS_FAULT c true else s

/-- A package is formatted: nothing listed of it is left (R212). -/
def State.formatPackage (s : State) (c k : Nat) : State :=
  let u := c * 8 + k
  { s with md := { s.md with
    frames := s.md.frames.filter fun x => x.1 / 2 ^ 27 != u
    used := del s.md.used u
    spare := del s.md.spare u
    retired := del s.md.retired u } }

/-- The packages BOOT formats: they answer and have no valid format record. -/
def State.unformatted (s : State) (env : BootEnv) : List (Nat × Nat) :=
  s.allPackages.filter fun (c, k) => (s.packages c).contains k && !(env.formatted.getD c 0).getLsbD k

/-- Formatting; a device is new only if every one of its packages is formatted (R212, R306). -/
def State.formatAll (s : State) (env : BootEnv) : State :=
  let l := s.unformatted env
  let s := l.foldl (fun (s : State) x => s.formatPackage x.1 x.2) s
  let new := l.length == s.allPackages.length
  let s := if new then { s with pl := { s.pl with directory := [], quotas := [], escrow := [], members := [] } } else s
  { s with md := { s.md with newDevice := new } }

/-- Training of a channel: from the Cupboard's results, or in full and stored there (R158). -/
def State.trainLarder (s : State) (p : Plan) (env : BootEnv) (w : Nat) : State :=
  if s.svc w == 2 || s.svc (8 + w) == 2 then s
  else if !env.trained.getLsbD w then (s.emit (srcLarder w 6)).loseLarder w
  else
    let fast := s.pw.fromSlumber || (!p.larder.train.testBit 0 && s.cb.training.getLsbD w)
    let s := (s.setFlag .LAR_STATUS_TRAINED w true).setFlag .LAR_STATUS_FAST_TRAIN w fast
    if fast then s
    else s.queueRecord [2844 + 8 * w, 2846 + 8 * w, 2848 + 8 * w, 2850 + 8 * w]
      [2845 + 8 * w, 2847 + 8 * w, 2849 + 8 * w, 2851 + 8 * w] (.training w)

/-- The Corridor modules of a wing come up with all their lanes (R12, R13). -/
def State.raiseLinks (s : State) (w : Nat) : State :=
  [w, 8 + 3 * w, 9 + 3 * w, 10 + 3 * w].foldl
    (fun (s : State) (i : Nat) => (s.setFlag .COR_LINK_UP i true).setReg .COR_LINK_LANES i 64) s

/-- A room as it enters the table (R137, R138). -/
def Room.added (c : RoomCfg) (limit : Nat) : Room where
  cfg := c
  state := .serving
  inUse := 0
  limit := limit
  tokens := 0
  allocFail := 0
  plain := 0
  secure := 0
  deferred := 0
  forwarding := false
  former := none

/-- The room table as it is first served: every room of the plan (R137). -/
def State.loadRooms (s : State) (p : Plan) : State :=
  let stage := s.reg .CHM_STATUS_STAGE 0
  let one := fun (m : SMap Room) (c : RoomCfg) => put m c.room (Room.added c (creditLimit c.credits stage))
  { s with rooms := p.rooms.foldl one [] }

/-- The firmware floors rise to the versions loaded (R45, R517). -/
def State.raiseFloors (s : State) (p : Plan) : State :=
  let v := (max s.cb.fwFloors.1 (p.fwVersion.getD 0 0), max s.cb.fwFloors.2 (p.fwVersion.getD 1 0))
  if v = s.cb.fwFloors then s else s.queueRecord [2762] [2763] (.floors v)

/-- Every domain of a list is on. -/
def State.domainsOn (s : State) (ds : List Nat) : State :=
  s.setReg .FBX_PD_ON 0 (ds.foldl (fun v d => v ||| 2 ^ d) (s.reg .FBX_PD_ON 0))

/-- The end of BOOT: self-test, identification, formatting, training, and RECOVERY (R48 step 9). A failure of the Hall's
own test powers the other rails down again (R534). -/
def State.finishBoot (s : State) : State :=
  match s.plan, s.pw.boot with
  | some p, some env =>
    let s := s.setReg .FBX_SEQ_PHASE 0 0
    let s := s.domainsOn ((s.wings.filter fun w => s.svc w != 2).flatMap wingDomains)
    let hall := p.bist.bootBist.testBit 0
    let (s, hallOk) := if hall then s.bistResult 8 true false env.hallMisr (p.bist.hallLbist, p.bist.hallMbist) else (s, true)
    let s := (s.bistWings p env).checkers env.checkers.toNat
    if !hallOk || env.checkers.toNat / 2 ^ 56 != 0 then
      let s := { s with pw := { s.pw with shutdownTo := .boot } }
      s.reverse 2
    else
      let s := s.cellars.foldl (fun (s : State) c => s.identCellar p env c) s
      let s := s.formatAll env
      let s := s.wings.foldl (fun (s : State) w => s.raiseLinks w) s
      let s := s.loadRooms p
      let s := s.wings.foldl (fun (s : State) w => s.trainLarder p env w) s
      let s := ((s.raiseFloors p).setReg .FBX_SEQ_RETRIES_LEFT 0 p.retries).loadMgmt
      let s := { s with pw := { s.pw with delaying := false, recovered := false } }
      s.spareLevels.goto .recovery
  | _, _ => s

/-! ### The sequencer goes up (R444, R445, R447) -/

/-- The power-up is in progress. -/
def State.poweringUp (s : State) : Bool :=
  s.reg .FBX_SEQ_PHASE 0 == 1 && (s.pw.dev == .powering || s.pw.dev == .boot)

/-- The enabled monitors that no step of the plan waits on (R445). -/
def State.unnamedMons (s : State) : List Nat :=
  match s.plan with
  | some p => (List.range 32).filter fun m => s.monEnabled m && 4 ≤ m && p.steps.all fun x => !x.wait.getLsbD m
  | none => []

/-- Raises RAILS step `k`; with the last, the monitors in no wait-for-good set begin to qualify (R445). -/
def State.raiseRail (s : State) (k last : Nat) : State :=
  let s := s.raiseStep false k
  if k < last then s
  else s.unnamedMons.foldl
    (fun (s : State) m => if s.reg .FBX_MON_STATE m == 2 then s else s.setReg .FBX_MON_STATE m 1) s

/-- MONITOR_QUALIFIED (R444, R447); an off request latched meanwhile skips the step's delay (R450). -/
def execMonitorQualified (mon : Mon) (s : State) : Result :=
  let m := mon.val
  if s.reg .FBX_MON_STATE m != 1 || s.flag .FBX_MON_OUTSIDE m then .next s
  else
    let s := s.setReg .FBX_MON_STATE m 2
    let s := { s with pw := { s.pw with outside := del s.pw.outside m } }
    if s.poweringUp && s.stepGood && !s.pw.delaying then
      if s.flag .FBX_SEQ_OFF_LATCHED 0 then .next s.reverseToOff
      else .next { s with pw := { s.pw with delaying := true } }
    else .next s

/-- The first enabled monitor that is not running. -/
def State.notRunning (s : State) : Option Nat :=
  (List.range 32).find? fun m => s.monEnabled m && s.reg .FBX_MON_STATE m != 2

/-- STEP_DELAY_EXPIRY: the next step; BOOT after the last Hall step, and the end of the sequence after the last RAILS
step (R445, R447). -/
def execStepDelayExpiry (s : State) : Result :=
  if !s.poweringUp || !s.pw.delaying then .next s
  else
    let k := s.reg .FBX_SEQ_STEP 0
    let last := match s.plan with | some p => p.steps.length | none => 0
    if s.flag .FBX_SEQ_HALL 0 then .next (if k < 4 then s.raiseStep true (k + 1) else s.enterBoot)
    else if k < last then .next (s.raiseRail (k + 1) last)
    else match s.notRunning with
      | some m => .next (s.sequenceFault m)
      | none => .next s.finishBoot

/-- PANTRY_INIT_DONE: the slice's tags are invalid, and requests may enter (R148). -/
def execPantryInitDone (w : Wing) (s : State) : Result :=
  if !s.wings.contains w.val || !s.pw.dev.hallOn || s.svc w.val == 2 then .next s
  else .next (s.setFlag .PAN_STATUS_INIT_DONE w.val true).settle

end Sys2Proof.Machine
end

