-- ==== Sys2Proof/Machine/Recover.lean ====
section
/-! DEFINITION. RECOVERY and the entry to SERVING, and the image commands of the mailbox (R103, R104, R111, R142, R211,
R237, R248, R305 to R307, R333, R334, R371, R518). -/

namespace Sys2Proof.Machine

/-! ### Markers and the anchor (R303, R306, R307) -/

/-- The copy of a two-copy record that wins: the newer, copy 0 on equal numbers (R307). -/
def newestCopy {α : Type} (seq : α → Nat) : Option α × Option α → Option α
  | (some a, some b) => if seq a < seq b then some b else some a
  | (some a, none) => some a
  | (none, b) => b

/-- A new device: counter 0 reads 0 and every package was formatted in this BOOT (R306). -/
def State.isNew (s : State) : Bool := s.counterValue 0 == 0 && s.md.newDevice

/-- The marker found; none is sought on a new device. -/
def State.foundMarker (s : State) : Option Marker :=
  if s.isNew then none else newestCopy (fun (m : Marker) => m.seq) s.md.markers

/-- The image's UNITS, MEDIA and LARDER sections match the drained state (R306, R577). -/
def State.fitsDrained (s : State) (p : Plan) : Bool :=
  match s.unitRecordNow with
  | none => true
  | some r => r.units == p.units && r.media == p.media && r.larder == p.larder

/-- A stop was clean (R306, R454). -/
def State.cleanStop (s : State) : Bool :=
  s.isNew ||
  match s.foundMarker, s.plan with
  | some m, some p =>
    !s.flag .HALL_STATE_UNCLEAN_RAIL 0 && (m.kind == 1 || m.kind == 2) && m.anchor == s.counterValue 0 &&
      ((m.imageSeq == p.imageSeq && m.amdSeq == s.reg .HALL_AMD_SEQ 0) ||
        (m.imageSeq < p.imageSeq && s.fitsDrained p))
  | _, _ => false

/-- Step 1: what the marker says, and the count of unclean stops. -/
def State.readMarker (s : State) : State :=
  let m := s.foundMarker
  let s := s.setReg .HALL_DRAIN_STATUS_LAST_KIND 0 (match m with | some x => x.kind | none => 3)
  let s := s.setReg .HALL_DRAIN_STATUS_LAST_STOP 0 (match m with | some x => x.stop | none => 0)
  let s := s.setReg .HALL_DRAIN_LAST_SKIPPED 0 (match m with | some x => x.skipped | none => 0)
  let s := s.setReg .HALL_DRAIN_LAST_DRAIN_MS 0 (match m with | some x => x.ms | none => 0)
  if s.cleanStop then s
  else
    let s := s.satReg .HALL_DRAIN_STATUS_DIRTY_STOPS 0 1
    (s.advanceCounter 2 (s.counterValue 2 + 1)).emit srcUnclean

/-- BEAT without Porch continuity: one above the last anchor and the last drain (R237, R518). -/
def State.startBeat (s : State) : State :=
  if s.rt.continuity then s
  else
    let anchor := match s.cb.anchor with | some (_, b, _) => b | none => 0
    let drain := match newestCopy (fun (m : Marker) => m.seq) s.md.markers with | some m => m.beat | none => 0
    let b := max (max anchor drain) (max s.rt.drainBeat s.beat) + 1
    let s := (s.setReg .PRC_RT_BEAT 0 b).setTime 0
    { s with rt := { s.rt with lastLocked := s.ageUnit } }

/-! ### Maps and the write-through log (R111, R142, R306 steps 2, 3 and 6) -/

/-- The map as checkpointed, with its journal (R116). -/
def State.recoveredMap (s : State) : SMap MapEntry :=
  s.md.mapJournal.foldl (fun (m : SMap MapEntry) (x : Nat × MapEntry) => put m x.1 x.2) s.md.ckptMap

/-- A page belongs to a persistent room of the table; every other page goes (R111, R142). -/
def State.keepsPage (s : State) (k : Nat) : Bool :=
  match s.room (keyRoom k) with | some r => r.cfg.persistent | none => false

/-- The pages as their maps, their programmed counter blocks and, after a SLUMBER, their Larder slots give them. -/
def State.recoverPages (s : State) (keepLarder : Bool) : State :=
  let m := s.recoveredMap
  let base := if keepLarder then s.ti.pages
    else mapAll s.ti.pages fun _ p => { Page.blank with ctrMedia := p.ctrMedia }
  let pages := m.foldl
    (fun (acc : SMap Page) (x : Nat × MapEntry) => put acc x.1 { lookD acc x.1 Page.blank with entry := x.2 }) base
  { s with ti := { s.ti with pages := mapPages pages fun _ p => { p with ctr := p.ctrMedia } } }

/-- The pages of ephemeral rooms and of rooms that are gone: their frames return to the pool (R111, R142). -/
def State.dropForeign (s : State) : State :=
  let gone := s.ti.pages.filter fun x => !s.keepsPage x.1
  let s := { s with ti := { s.ti with pages := s.ti.pages.filter fun x => s.keepsPage x.1 } }
  gone.foldl
    (fun (s : State) (x : Nat × Page) =>
      let s := match x.2.entry.frame with | some a => s.freeFrame a | none => s
      s.journalEntry (keyRoom x.1) (keyPage x.1) Page.blank.entry)
    s

/-- A slot whose FLOOR is past HIGH (R322). -/
def KeySlot.past (k : KeySlot) : KeySlot := { k with floor := k.high + 1 }

/-- The slots that no room of the table names rise past HIGH, since the rooms that used them are gone (R322). -/
def State.raiseUnnamed (s : State) : State :=
  let named := (s.rooms.filter fun x => x.2.cfg.persistent).map fun x => x.2.cfg.keySlot
  let one := fun (x : Nat × KeySlot) => if named.contains x.1 || x.2.high < x.2.floor then x else (x.1, x.2.past)
  { s with lk := { s.lk with slots := s.lk.slots.map one } }

/-- Step 3: one log entry is programmed into its frame with its entry and counter block. -/
def State.replayLogEntry (s : State) (e : LogEntry) : State :=
  if !s.keepsPage (pageKey e.room e.page) then s
  else
    let p := s.page e.room e.page
    let s := s.setPage e.room e.page { p with entry := e.entry, ctr := some e.ctr, ctrMedia := some e.ctr }
    let s := s.journalEntry e.room e.page e.entry
    match e.entry.frame with
    | some a =>
      let s := s.programLines a e.lines
      match s.frame a with
      | some f => s.setFrame a { f with pcount := satAdd 32 f.pcount 1 }
      | none => s
    | none => s

/-- Step 3: the log in sequence order. -/
def State.replayLog (s : State) : State :=
  let l := sortBy (fun (e : LogEntry) => e.seq) s.md.log
  l.foldl State.replayLogEntry { s with md := { s.md with log := [] } }

/-- Frames in use that no map entry and no stripe names, and migration targets, are free again (R217); those that wait to
be overwritten are (R132, R133). -/
def State.freeStray (s : State) : State :=
  let named := (s.ti.pages.filterMap fun x => x.2.entry.frame.map FrameAddr.key) ++
    s.br.stripes.flatMap fun x => (x.2.frames.map FrameAddr.key)
  let stray := s.md.frames.filter fun x =>
    (x.2.st == 5 || (x.2.st == 2 && x.2.role == 0)) && !named.contains x.1 && !s.md.overwrites.contains x.1
  let s := stray.foldl (fun (s : State) (x : Nat × Frame) => s.freeFrame (frameOfKey x.1)) s
  (s.md.overwrites.filter fun k => s.frameReachable (frameOfKey k)).foldl
    (fun (s : State) k => s.queueOp (mediaOp .overwrite 5 (frameOfKey k) 0)) s

/-! ### Counter trees (R333, R334) -/

/-- The root checkpoint is accepted, refused as rolled back, or absent (R333). -/
inductive RootCheck where
  | accepted (r : RootCkpt) | rolledBack | absent
  deriving DecidableEq, Repr

/-- R333; the MAC of what the device itself programmed verifies. -/
def State.rootCheck (s : State) : RootCheck :=
  let c := s.counterValue 0
  if s.isNew then .absent
  else match s.rootCkpt with
    | some r => if r.anchor == c || r.anchor == c + 1 then .accepted r else .rolledBack
    | none => .absent

/-- Every tree is lost at its root (R333, R337). -/
def State.rootsLost (s : State) : State :=
  s.rooms.foldl
    (fun (s : State) (x : Nat × Room) =>
      if !x.2.cfg.persistent then s
      else
        let pages := (s.roomPages x.1).map Prod.fst
        s.wings.foldl
          (fun (s : State) (w : Nat) =>
            match pages.find? fun g => s.home x.1 g == w with
            | some g => s.treeLost x.2.cfg x.1 g 20
            | none => s)
          s)
    s

/-- A page's last record in the dirty-page journal is dirty. -/
def State.lastDirtyRecord (s : State) (k : Nat) : Bool :=
  (lastDirty s.md.journal).any fun x => pageKey x.2.1 x.2.2.1 == k

/-- The pages with a record programmed after the checkpoint, each once. -/
def State.journalled (s : State) : List Nat :=
  ((s.md.journal.drop s.md.journalMark).map fun x => pageKey x.2.1 x.2.2.1).dedup.filter s.keepsPage

/-- A page of R334: a block below its parent's version fails as a MAC does; a dirty page's MAJOR rises by 2^28, and a
clean page's block is SUSPECT. -/
def State.checkBlock (s : State) (k : Nat) : State :=
  let room := keyRoom k
  let page := keyPage k
  match s.room room, (s.page room page).ctr with
  | some r, some b =>
    if b.version < lookD s.lk.versions k 0 then s.lockdown room (s.localIndex page) 0 2 (s.home room page)
    else
      let dirty := s.lastDirtyRecord k
      let b := if dirty then { b with major := min majorEnd (b.major + 2 ^ 28) } else { b with suspect := true }
      let s := if dirty then s.satReg .LKS_CTR_STAT_SKIPS 0 1 else s
      let (s, p) := s.setBlock r.cfg room page (s.page room page) b
      s.setPage room page p
  | _, _ => s

/-- Step 4: the root checkpoint, and after an unclean stop the pages of the journal. -/
def State.restoreTrees (s : State) (clean : Bool) : State :=
  match s.rootCheck with
  | .accepted r =>
    let s := { s with lk := { s.lk with versions := r.versions.filter fun x => s.keepsPage x.1 } }
    let s := (s.setReg .LKS_ANCHOR_A 0 r.anchor).setReg .LKS_CKPT_LAST_BEAT 0 r.beat
    if clean then s else s.journalled.foldl State.checkBlock s
  | .rolledBack => s.lockdown 0 0 0 5 0
  | .absent => if s.isNew then s else s.rootsLost

/-! ### Poison, wear and ages after the stop (R211, R248, R305, R371) -/

/-- Step 5: pages whose last record is dirty read as poison (R305). -/
def State.poisonDirty (s : State) : State :=
  let due := ((lastDirty s.md.journal).map fun x => (x.2.1, x.2.2.1)).filter fun x => s.keepsPage (pageKey x.1 x.2)
  let s := due.foldl
    (fun (s : State) (x : Nat × Nat) =>
      (List.range 64).foldl (fun (s : State) l => s.listPoison x.1 x.2 l) (s.poisonPage x.1 x.2 false))
    s
  let s := s.setReg .HALL_DRAIN_RECOVERY_POISONED 0 due.length
  if due.isEmpty then s else s.emit srcPoisoned

/-- After an unclean stop, a frame of a journalled page has its checkpointed PCOUNT raised by 64 and an unknown age, and
heads the refresh queue; the others have their checkpointed values (R211, R248). -/
def State.reviseFrames (s : State) (pages : List Nat) : State :=
  let named := pages.filterMap fun k => (s.page (keyRoom k) (keyPage k)).entry.frame.map FrameAddr.key
  let one := fun (k : Nat) (f : Frame) =>
    if named.contains k then { f with pcount := satAdd 32 f.pcountCk 64, age := f.ageCk, ageUnknown := true }
    else { f with pcount := f.pcountCk, age := f.ageCk }
  let s := { s with md := { s.md with frames := mapAll s.md.frames one } }
  named.foldl (fun (s : State) k => s.queueRefresh (frameOfKey k) true) s

/-- A page's stripe is to be recomputed. -/
def State.recomputeDue (s : State) (room page : Nat) : State :=
  let n := (s.stripeOf page).1
  let s := s.setStripe room n { s.stripe room n with recompute := true }
  s.setFlag .WING_BRACE_RECOMPUTE (s.parityWing room n) true

/-- The stripes of the pages with a dirty record are to be recomputed (R371). -/
def State.markRecompute (s : State) (pages : List Nat) : State :=
  pages.foldl
    (fun (s : State) k =>
      let room := keyRoom k
      if s.isBraced room && s.lastDirtyRecord k then s.recomputeDue room (keyPage k)
      else s)
    s

/-! ### Units that did not come back (R197, R212, R358) -/

/-- A frame that was lost with its package: one that no longer answers, or was formatted in this BOOT (R212). -/
def State.frameGone (s : State) (env : BootEnv) (a : FrameAddr) : Bool :=
  s.cellars.contains a.cellar &&
    (!(s.packages a.cellar).contains a.pkg || !(env.formatted.getD a.cellar 0).getLsbD a.pkg)

/-- The pages of lost and of replaced packages (R197, R212, R361). -/
def State.losePackages (s : State) (env : BootEnv) : State :=
  let hit := s.frameGone env
  let pages := s.pagesOn hit
  let s := s.loseFrames hit
  let s := s.cellars.foldl
    (fun (s : State) (c : Nat) =>
      s.rebuildFrames (c / 4) c (pages.filter fun x =>
        match (s.page x.1 x.2).entry.frame with | some a => a.cellar == c && hit a | none => false))
    s
  s.cellars.foldl (fun (s : State) (c : Nat) => if (s.packages c).isEmpty then s.loseCellar c else s) s

/-- The wings that are not in service at the start have an acting home (R358). -/
def State.windows (s : State) : State :=
  s.wings.foldl (fun (s : State) w => if s.wingUp w then s else s.openWindow w) s

/-- A cellar with stale frames, or with members left VACANT, was LOST or REBUILDING when the device stopped: its rebuild
starts again from the first stripe (R369). -/
def State.resumeRebuild (s : State) : State :=
  let vacant := s.br.stripes.flatMap fun x =>
    ((List.range s.part.stripeData).filter fun i => x.2.vacant.getLsbD i).filterMap fun i => x.2.members.getD i none
  s.cellars.foldl
    (fun (s : State) (c : Nat) =>
      let stale := s.md.frames.any (fun x => x.2.stale && (frameOfKey x.1).cellar == c)
      if s.svc (16 + c) == 0 && (stale || vacant.any fun a => a.cellar == c) then s.startRebuild (16 + c) else s)
    s

/-! ### RECOVERY (R306) -/

/-- A wing's copy of the slot table can be read: it serves, and a package of it answers with its format record. -/
def State.copyReadable (s : State) (env : BootEnv) (w : Nat) : Bool :=
  s.wings.contains w && s.serves w && (List.range 4).any fun i =>
    (s.packages (4 * w + i)).any fun p => (env.formatted.getD (4 * w + i) 0).getLsbD p

/-- The slot table is read; with both copies unreadable every slot reads EMPTY (R312, R316). -/
def State.loadSlots (s : State) (env : BootEnv) : State :=
  if !s.md.slotTable.isEmpty && s.md.slotHome.all fun w => !s.copyReadable env w then
    ({ s with lk := { s.lk with slots := [], tableLost := true }, md := { s.md with slotTable := [] } } : State).emit
      srcSlotTableLost
  else { s with lk := { s.lk with slots := s.md.slotTable, tableLost := false } }

/-- Steps 2 to 6. -/
def State.recover (s : State) (env : BootEnv) (clean : Bool) : State :=
  let keep := s.pw.fromSlumber && clean && !s.flag .PRC_IN_STATUS_SR_BROKEN 0
  let s := s.loadSlots env
  let s := s.md.hists.foldl (fun s x => s.setReg (keyFld x.1) (keyInst x.1) x.2) s
  let s := (s.recoverPages keep).replayLog.dropForeign.freeStray
  let s := s.raiseUnnamed.restoreTrees clean
  if s.pw.dev != .recovery then s
  else
    let pages := s.journalled
    let s := if clean then s else (s.markRecompute pages).reviseFrames pages
    let s := s.poisonDirty
    let s := { s with md := { s.md with journal := [], journalMark := 0 } }
    let s := (s.losePackages env).windows.resumeRebuild
    let s := if clean then s else s.checkpointNow
    let (ms, s) := s.free
    let s := s.setReg .HALL_DRAIN_RECOVERY_RECOVERY_MS 0 ms.toNat
    let s := { s with pw := { s.pw with recovered := true } }
    s.spareLevels

/-- RECOVERY (R306 steps 1 to 6). -/
def execRecovery (s : State) : Result :=
  match s.pw.boot with
  | some env =>
    if s.pw.dev != .recovery || s.pw.recovered then .next s
    else
      let clean := s.cleanStop
      .next (s.readMarker.startBeat.recover env clean)
  | none => .next s

/-! ### Entry to SERVING (R237, R306 step 7) -/

/-- Every wing that is in use has its tags invalid (R148). -/
def State.slicesReady (s : State) : Bool :=
  s.wings.all fun w => s.svc w == 2 || s.svc w == 5 || s.flag .PAN_STATUS_INIT_DONE w

/-- The rooms of the image are offered to those who may hold them and neither hold nor were offered them (R82). -/
def State.offerImage (s : State) : State :=
  s.rooms.foldl
    (fun (s : State) (x : Nat × Room) =>
      let c := x.2.cfg
      (s.offerees c).foldl
        (fun (s : State) (r : Nat) =>
          if (s.hp.extents ++ s.hp.offers).any (fun e => e.requester == r && e.room == c.room) then s
          else s.offer { requester := r, room := c.room, region := c.region, base := c.base, size := c.size })
        s)
    s

/-- SERVING_ENTRY: the KIND 0 marker and the unit record, then SERVING; a latched off request or shutdown acts
(R237, R306 step 7, R472, R577). -/
def execServingEntry (waited2s : Bool) (s : State) : Result :=
  if s.pw.dev != .recovery || !s.pw.recovered || s.reg .FBX_SEQ_PHASE 0 != 0 || !s.slicesReady ||
      !(s.rt.continuity || s.rt.epochSeen || waited2s) then .next s
  else
    let s := s.putUnitRecord
    let s := s.putMarker (s.marker 0 0)
    let s := (s.goto .serving).setReg .HALL_DRAIN_STATUS_STEP 0 0
    let s := { s with rt := { s.rt with continuity := true }, pw := { s.pw with fromSlumber := false } }
    let s := (s.offerImage.computeBudget).repin.settle
    if s.flag .FBX_SEQ_OFF_LATCHED 0 then .next ((s.setFlag .FBX_SEQ_OFF_LATCHED 0 false).drainStart 1 .off)
    else if s.pw.shutdownDue then
      .next ((({ s with pw := { s.pw with shutdownDue := false } } : State).setFlag .CHM_STATUS_LATCH 0 true).drainStart 2
        .thermalLatch)
    else .next s

/-! ### Image commands (R100, R103, R104) -/

/-- The slot an image command acts on while a slot is active: the other one. -/
def State.otherSlot (s : State) : Option Nat :=
  let a := s.reg .HALL_FP_STATUS_ACTIVE 0
  if a = 0 then none else some (2 - a)

/-- IMAGE_BEGIN: the inactive slot, or the named one while none is active, is erased in the background. -/
def execImageBegin (from_ : Sender) (slot : Byte) (s : State) : Result :=
  .next (s.mailbox from_ 0xC001 fun s =>
    if s.hp.background.isSome then (s, .busy, [])
    else
      let t := match s.otherSlot with | some t => t | none => slot.toNat
      if 1 < t then (s, .invalidInput, [])
      else
        ({ s with
          hp := { s.hp with background := some (.imageBegin t) }
          flash := { s.flash with target := some t, erased := false } }, .background, []))

/-- IMAGE_WRITE: 256 to 8,192 bytes at a 256-byte aligned offset of the target slot, erased since its last check. -/
def execImageWrite (from_ : Sender) (offset : Nat) (bytes : List Byte) (s : State) : Result :=
  .next (s.mailbox from_ 0xC002 fun s =>
    match s.flash.target with
    | none => (s, .refused, [])
    | some t =>
      if !s.flash.erased || some t == (if s.reg .HALL_FP_STATUS_ACTIVE 0 = 0 then none
          else some (s.reg .HALL_FP_STATUS_ACTIVE 0 - 1)) then (s, .refused, [])
      else if offset % 256 != 0 || bytes.length < 256 || 8192 < bytes.length || slotSize < offset + bytes.length then
        (s, .invalidInput, [])
      else
        ({ s with flash := { s.flash with cells := flashProgram s.flash.cells (slotBase t + offset) bytes } },
          .success, []))

/-- IMAGE_CHECK: steps 2 to 5 of R48 on the target slot, in the background. -/
def execImageCheck (from_ : Sender) (s : State) : Result :=
  .next (s.mailbox from_ 0xC003 fun s =>
    if s.hp.background.isSome then (s, .busy, [])
    else match (match s.otherSlot with | some t => some t | none => s.flash.target) with
      | none => (s, .invalidInput, [])
      | some t => ({ s with hp := { s.hp with background := some (.imageCheck t) } }, .background, []))

/-- The cause of an Image Check, 0 when the slot passes (R61). -/
def State.checkCause (s : State) (slot : Nat) : Nat :=
  match s.checkSlot slot true with | .ok _ => 0 | .error c => c

/-- BACKGROUND_COMMAND_DONE: the command's result is reported and the next may run (R100). -/
def execBackgroundCommandDone (s : State) : Result :=
  match s.hp.background with
  | none => .next s
  | some b =>
    let s := { s with hp := { s.hp with background := none } }
    match b with
    | .imageBegin t =>
      let s := { s with flash := { s.flash with cells := flashErase s.flash.cells (slotBase t) slotSize, erased := true } }
      .next (s.send (.mailbox false 0 0xC001 .success []))
    | .imageCheck t =>
      let cause := s.checkCause t
      let s := { s with flash := { s.flash with erased := false } }
      .next (s.send (.mailbox false 0 0xC003 .success [pword cause]))
    | .sanitize => .next (s.sanitizeNow.send (.mailbox false 0 0x4400 .success []))

end Sys2Proof.Machine
end

