-- ==== Sys2Proof/Machine/LandingCore.lean ====
section
/-! DEFINITION. What every Landing message goes through: sessions, the header, terms, sequence numbers and stored
answers, sending, and the mirror of manager state (R410 to R415, R420 to R423). -/

namespace Sys2Proof.Machine

/-- ROLE (0 manager, 1 standby, 2 worker), INDEX and TERM (R437). -/
def State.role (s : State) : Nat := s.reg .LND_STATE_ROLE 0
def State.index (s : State) : Nat := s.reg .LND_STATE_INDEX 0
def State.term (s : State) : Nat := s.reg .LND_TERM 0

/-- The Hall runs the Landing agent, and the device manages its pool. -/
def State.isManager (s : State) : Bool := s.pw.dev.hallOn && s.plan.isSome && s.role == 0

/-- The pool record is written in both copies (R410). -/
def State.putPoolRecord (s : State) : State :=
  s.queueRecord [2760] [2761] (.pool (s.pl.poolId, s.role, s.index, s.term, s.pl.manager, s.pl.standby))

/-- The other members the device knows: those that sent a heartbeat and those with a session. -/
def State.memberList (s : State) : List Nat :=
  sortBy (fun (n : Nat) => n) ((s.pl.members.map Prod.fst ++ s.pl.sessions).dedup.filter fun n => n != s.index)

/-- Messages to a peer go over I3C: the only transport allowed, or the one left after PCIe VDM failed (R412). -/
def State.overI3c (s : State) (peer : Nat) : Bool :=
  match s.plan with
  | some p => p.pool.transport == 2 || (p.pool.transport == 3 && s.pl.failedVdm.contains peer)
  | none => true

/-- Puts a message on its transport; without a session it waits for one (R413). -/
def State.landingPut (s : State) (o : Outstanding) : State :=
  if s.pl.sessions.contains o.peer then
    (s.send (.landing o.peer o.type (if o.last then 2 else 0) s.term o.i3c o.seq 0 o.body)).count 320 1
  else s

/-- Sends a request to a peer, with the next sequence number for it (R415). -/
def State.landingRequest (s : State) (peer type : Nat) (last : Bool) (body : List Word) (asker : Option Sender)
    (rooms : List RoomCfg) : State :=
  let seq := lookD s.pl.nextSeq peer 0
  let o : Outstanding := { peer := peer, seq := seq, type := type, resends := 0, i3c := s.overI3c peer, last := last,
                           body := body, asker := asker, rooms := rooms }
  let s := { s with pl := { s.pl with
    nextSeq := put s.pl.nextSeq peer (seq + 1), outstanding := s.pl.outstanding ++ [o] } }
  s.landingPut o

/-- A request in one message that nobody waits for. -/
def State.landingSend (s : State) (peer type : Nat) (body : List Word) : State := s.landingRequest peer type false body none []

/-- Answers a request, and keeps the last 32 answers of each peer (R415). -/
def State.landingAnswer (s : State) (h : Hdr) (type status : Nat) (body : List Word) : State :=
  let l := { seq := h.seq, type := type, status := status, body := body } :: lookD s.pl.answered h.src []
  let s := { s with pl := { s.pl with answered := put s.pl.answered h.src (l.take 32) } }
  (s.send (.landing h.src type 1 s.term h.i3c h.seq status body)).count 320 1

/-- The manager stops every manager function and becomes the standby, with the index of the former one (R411, R421). -/
def State.stepDownAsManager (s : State) : State :=
  let index := if s.pl.standby < 4096 then s.pl.standby else s.index
  let s := (s.setReg .LND_STATE_ROLE 0 1).setReg .LND_STATE_INDEX 0 index
  let s := { s with pl := { s.pl with
    standby := index, mirrored := false, evacuating := none, outstanding := [] } }
  ((s.setFlag .LND_STATE_EVACUATING 0 false).setFlag .LND_STATE_MIRROR_STALE 0 false).level srcMirrorStale false

/-- A term above the highest seen is recorded, with the manager's index 0, before the message is acted on; a manager
that sees one stops (R411, R420, R421). -/
def State.learnTerm (s : State) (term : Nat) : State :=
  if s.term < term then
    let s := if s.role == 0 then s.stepDownAsManager else s
    let s := s.setReg .LND_TERM 0 term
    ({ s with pl := { s.pl with manager := 0 } } : State).putPoolRecord
  else s

/-- A message that reaches the agent: the Hall is up, the session stands, and the header names this device (R413 to
R415). -/
def State.landingReaches (s : State) (h : Hdr) : Bool :=
  s.pw.dev.hallOn && h.version == 1 && h.dst == s.index && s.pl.sessions.contains h.src

/-- The sequence number is older than the answers kept (R415). -/
def olderSeq (seq : BitVec 32) (kept : List Answered) : Bool :=
  match kept.getLast? with
  | some x => 2 ^ 31 ≤ (seq - x.seq).toNat
  | none => false

/-- A request: dropped, answered from the stored answers, refused for its pool or its term, or run. `run` gives the
answer's type, status and body, or none for a message that is dropped. -/
def State.landingTry (s : State) (h : Hdr) (type : Nat) (run : State → State × Option (Nat × Nat × List Word)) : State :=
  if !s.landingReaches h then s
  else
    let kept := lookD s.pl.answered h.src []
    let s := s.count 321 1
    match kept.find? fun x => x.seq == h.seq with
    | some a =>
      ((s.satReg .LND_ERR_DUPLICATES 0 1).send (.landing h.src a.type 1 s.term h.i3c h.seq a.status a.body)).count 320 1
    | none =>
      if olderSeq h.seq kept then s
      else if s.plan.isSome && h.poolId.toNat != s.pl.poolId then s.landingAnswer h type 2 []
      else if h.term.toNat < s.term then
        ((s.satReg .LND_ERR_TERM_REJECTS 0 1).emit srcTermReject).landingAnswer h type 1
          [pword s.term, pword s.pl.manager]
      else
        match run (s.learnTerm h.term.toNat) with
        | (s, some (t, st, body)) => s.landingAnswer h t st body
        | (s, none) => s

/-- A request that is always answered, with its own type. -/
def State.landingIn (s : State) (h : Hdr) (type : Nat) (run : State → State × Nat × List Word) : State :=
  s.landingTry h type fun s => let (s, st, body) := run s; (s, some (type, st, body))

/-- A message only the pool manager sends; from anyone else it is not valid (R24, R313, R414, R426). -/
def State.managerOnly (s : State) (h : Hdr) (run : State → State × Nat × List Word) : State × Nat × List Word :=
  if h.src == s.pl.manager then run s else (s, 5, [])

/-- A response reaches the agent: its request is no longer outstanding, and a higher term is recorded (R415, R420). -/
def State.landingReply (s : State) (h : Hdr) (type : Nat) : State × Option Outstanding :=
  if !s.landingReaches h || (s.plan.isSome && h.poolId.toNat != s.pl.poolId) then (s, none)
  else
    let s := (s.count 321 1).learnTerm h.term.toNat
    match takeFirst (fun (o : Outstanding) => o.peer == h.src && o.seq == h.seq && o.type == type) s.pl.outstanding with
    | some (o, rest) => ({ s with pl := { s.pl with outstanding := rest } }, some o)
    | none => (s, none)

/-- Heartbeats missed in a row from a peer. -/
def State.missedOf (s : State) (peer : Nat) : Nat := lookD s.pl.missed peer 0

/-- A change of manager state goes to the standby, or the mirror is stale while it cannot be reached (R423). -/
def State.mirrorChange (s : State) (body : List Word) : State :=
  if s.role != 0 || 4096 ≤ s.pl.standby then s
  else if 3 ≤ s.missedOf s.pl.standby || !s.pl.sessions.contains s.pl.standby then
    (s.setFlag .LND_STATE_MIRROR_STALE 0 true).level srcMirrorStale true
  else s.landingSend s.pl.standby 0x0C body

/-! ### The internal ring of a migration (R384, R388, R429) -/

/-- The key of a ring, and of the internal ring a migration runs on (R429). -/
def ringKey (requester ring : Nat) : Nat := requester * 64 + ring
def internalRing : Nat := 4096 * 64

/-- A command descriptor (R384): MIGRATE_OUT of a room to a peer's address, or MIGRATE_IN of a room's window. -/
def migrateLine (op sspace dspace src dst len sid did arg0 : Nat) : Line :=
  lineOf (toBytes 1 op ++ [0] ++ toBytes 1 sspace ++ toBytes 1 dspace ++ toBytes 4 0 ++ toBytes 8 src ++ toBytes 8 dst ++
    toBytes 8 len ++ toBytes 2 sid ++ toBytes 2 did ++ toBytes 4 0 ++ toBytes 8 arg0)

/-- Posts a command on the internal ring. -/
def State.postInternal (s : State) (cmd : Line) : State :=
  let mine := s.rg.fetched.filter fun c => c.ring == internalRing
  let index : BitVec 32 := match mine.getLast? with | some c => c.index + 1 | none => 0
  { s with rg := { s.rg with fetched := s.rg.fetched ++ [(⟨internalRing, index, cmd, false⟩ : RingCmd)] } }

/-- Posts a MIGRATE_OUT of a room's whole window with its ARG0. -/
def State.postOut (s : State) (room peer arg0 : Nat) : State :=
  match s.room room with
  | some r => s.postInternal
      (migrateLine 9 0 2 0 (Config.peerBase peer room) r.cfg.size room (Config.peerId peer % 4096) arg0)
  | none => s

/-- Posts a MIGRATE_IN of a room's whole window for the source device; ARG0 bit 16 closes it. -/
def State.postIn (s : State) (room peer : Nat) (close : Bool) : State :=
  match s.room room with
  | some r => s.postInternal
      (migrateLine 10 0 0 0 0 r.cfg.size 0 room (Config.peerId peer % 4096 + if close then 2 ^ 16 else 0))
  | none => s

/-- The migration on this device, with LND_MIG (R437). -/
def State.setMig (s : State) (m : Option Migration) : State :=
  let s := { s with pl := { s.pl with mig := m } }
  let v := fun (f : Migration → Nat) => match m with | some x => f x | none => 0
  let s := (s.setReg .LND_MIG_ROOM 0 (v Migration.room)).setReg .LND_MIG_STEP 0 (v Migration.step)
  let s := s.setReg .LND_MIG_SOURCE 0 (v fun x => if x.source then 1 else 0)
  (s.setReg .LND_MIG_ROUND 0 (v fun x => min 255 x.rounds)).setReg .LND_MIG_PEER 0 (v Migration.peer)

end Sys2Proof.Machine
end

