-- ==== Sys2Proof/Machine/Amend.lean ====
section
/-! DEFINITION. Amendments: their chunks, the checks against the live state, the log and the commit; what a change of the
room table does to extents and pages; the end of a removal and the release of extents
(R54 to R60, R82 to R86, R137 to R142, R282, R322, R365, R366, R407, R416, R577). -/

namespace Sys2Proof.Machine

/-! ### Live checks (R60, R141) -/

/-- Commands of a ring that channels or the fetch queue have begun. -/
def State.inExecution (s : State) (k : Nat) : Nat :=
  s.rg.fetched.countP fun c => c.ring == k && c.started

/-- A ring is idle: IDLE, or STOPPED with nothing in execution (R407). -/
def State.ringIdle (s : State) (k : Nat) : Bool :=
  match look s.rg.ctx k with
  | some c => c.state == .idle || (c.state == .stopped && s.inExecution k == 0)
  | none => true

/-- The requester's entry in the RINGS section. -/
def Plan.ringsOf (p : Plan) (requester : Nat) : Option RingCfg := p.rings.find? fun x => x.requester == requester

/-- The rings that have a context. -/
def State.ringKeys (s : State) : List Nat := s.rg.ctx.map Prod.fst

/-- Some ring charged to a room is active. -/
def State.chargedActive (s : State) (p : Plan) (room : Nat) : Bool :=
  s.ringKeys.any fun k =>
    (match p.ringsOf (k / 64) with | some x => x.charge == room | none => false) && !s.ringIdle k

/-- The entries that name rooms on their way out. -/
def State.removingCheck (s : State) (x : RoomCfg) : Except Nat Unit := do
  let removing := s.rooms.filter fun r => r.2.state == .removing
  need (removing.all fun r => r.1 != x.room) roomBusy
  if x.action == 1 then do
    need (removing.all fun r => r.2.cfg.base + r.2.cfg.size ≤ x.base || x.base + x.size ≤ r.2.cfg.base) roomBusy
    need (removing.all fun r => !(r.2.cfg.persistent && x.persistent && r.2.cfg.keySlot == x.keySlot)) keyShared

/-- Turning off the host map buffer: the Larder's metadata areas must hold the room's leaves (R60). -/
def State.leavesFit (s : State) (room : Nat) : Bool :=
  let kept := s.hp.hmbLeaves.filter fun x => x.1 != room
  let inLarder := s.leaves.filter fun x => !kept.contains x
  s.wings.all fun w => (inLarder.countP fun x => x.2 / 2 ^ 30 == w) ≤ s.leafRoom

/-- Extents held of a room. -/
def State.extentsIn (s : State) (room : Nat) : List Extent := s.hp.extents.filter fun e => e.room == room

/-- A change of a room against the live state. -/
def State.changeCheck (s : State) (old : Room) (x : RoomCfg) : Except Nat Unit := do
  let shrink := x.size < old.cfg.size
  need (!shrink || (s.roomPages x.room).all fun p => !(x.pages ≤ p.1 && p.2.backed)) roomBusy
  need (!shrink || (s.extentsIn x.room).all fun e => e.base + e.size ≤ x.base + x.size) roomBusy
  need (old.cfg.region == x.region || old.former.isNone) roomBusy
  need (!old.cfg.hmb || x.hmb || s.leavesFit x.room) larderShort

/-- One entry of a ROOMS section against the live state (R60). -/
def State.roomCheck (s : State) (p : Plan) (x : RoomCfg) : Except Nat Unit := do
  match s.room x.room with
  | none => do
    need (!x.persistent || (look s.lk.slots x.keySlot).isSome) keyEmptyCause
    need (s.pl.evacuating != some s.index) liveConflict
  | some r =>
    if x.action == 3 then do
      need ((s.extentsIn x.room).isEmpty && !s.chargedActive p x.room) roomBusy
    else s.changeCheck r x

/-- A section of an amendment against the live state, before and after the rules of the plan (R55 step 5, R60). -/
def State.liveSection (s : State) (p : Plan) (x : Section) : Except Nat Plan := do
  let entries := match roomsOf x.body true with | .ok l => l | .error _ => []
  if x.type == 4 then needAll entries s.removingCheck
  let q ← amendSection s.part p x
  if x.type == 4 then needAll entries fun e => s.roomCheck p e
  if x.type == 5 then
    need (s.ringKeys.all fun k => s.ringIdle k ||
      (match q.ringsOf (k / 64) with | some y => k % 64 < y.count | none => false)) ringBusy
  if x.type == 10 then
    need (s.wings.all fun w => q.pantry.getD w 0 == p.pantry.getD w 0 || !s.serves w) liveConflict
  return q

/-- Every section in type order. -/
def State.liveSections (s : State) (p : Plan) : List Section → Except Nat Plan
  | [] => .ok p
  | x :: xs => do
    let p ← s.liveSection p x
    State.liveSections s p xs

/-- Steps 2 to 5 of R55 and the room in the log: the plan that a commit brings, with AMD_SEQ and the sections. -/
def State.checkAmendment (s : State) (b : List Byte) : Except Nat (Plan × Nat × List Section) := do
  match s.plan with
  | none => .error wrongBase
  | some p =>
    let (h, secs) ← formOf s.part b true
    need (h.imageId == p.imageId && h.imageSeq == p.imageSeq) wrongBase
    need (s.reg .HALL_AMD_SEQ 0 < h.amdSeq) staleSeq
    need (h.amdSeq == s.reg .HALL_AMD_SEQ 0 + 1) gapSeq
    let q ← s.liveSections p (inTypeOrder secs)
    need (s.log.length < 4096 && s.logUsed + 16 + b.length ≤ logSize) logFullCause
    return (q, h.amdSeq, inTypeOrder secs)

/-! ### Effects at commit -/

/-- Drops the offers of a room that pass a test, made, deferred or held back. -/
def State.dropOffers (s : State) (room : Nat) (p : Extent → Bool) : State :=
  let keep := fun (e : Extent) => !(e.room == room && p e)
  { s with hp := { s.hp with
    offers := s.hp.offers.filter keep, deferred := s.hp.deferred.filter keep
    heldOffers := s.hp.heldOffers.filter keep } }

/-- The device is the target of a migration of a room, before its CUTOVER (R429). -/
def State.migrationTarget (s : State) (room : Nat) : Bool :=
  match s.pl.mig with | some m => m.room == room && !m.source | none => false

/-- A room is added: SERVING with empty maps, its window offered, or held back
for a migration and opened to its source (R82, R138, R429). -/
def State.roomAdd (s : State) (c : RoomCfg) : State :=
  let first := c.persistent && s.rooms.all fun x => !x.2.cfg.persistent
  let s := s.setRoom c.room (Room.added c (creditLimit c.credits (s.reg .CHM_STATUS_STAGE 0)))
  let s := if first then s.putUnitRecord else s
  if s.migrationTarget c.room then
    let held := (s.offerees c).map fun r =>
      ({ requester := r, room := c.room, region := c.region, base := c.base, size := c.size } : Extent)
    let s := { s with hp := { s.hp with heldOffers := s.hp.heldOffers ++ held } }
    match s.pl.mig with | some m => s.postIn c.room m.peer false | none => s
  else s.offerRoom c c.base c.size

/-- The whole window is offered to every eligible requester that holds no extent of the room (R139). -/
def State.offerToEmpty (s : State) (c : RoomCfg) : State :=
  (s.offerees c).foldl
    (fun (s : State) (r : Nat) =>
      if (s.hp.extents.any fun e => e.room == c.room && e.requester == r) then s
      else s.offer { requester := r, room := c.room, region := c.region, base := c.base, size := c.size })
    s

/-- A change of DC_REGION: the window in the new region, and a request to release the old extents (R86). -/
def State.regionChange (s : State) (c : RoomCfg) (former : Nat) : State :=
  let s := s.dropOffers c.room fun _ => true
  let held := s.extentsIn c.room
  let s := if held.isEmpty then s else s.modRoom c.room fun r => { r with former := some former }
  held.foldl (fun (s : State) e => s.send (.releaseCapacity e)) (s.offerRoom c c.base c.size)

/-- A room is changed (R60, R86, R139, R282). Weight and credits act at the next refill. -/
def State.roomChange (s : State) (old : Room) (c : RoomCfg) : State :=
  let s := s.modRoom c.room fun r => { r with cfg := c }
  let s := if old.cfg.hmb && !c.hmb then
      { s with hp := { s.hp with hmbLeaves := s.hp.hmbLeaves.filter fun x => x.1 != c.room } }
    else s
  if old.cfg.region != c.region then s.regionChange c old.cfg.region
  else if old.cfg.size < c.size then s.offerRoom c (c.base + old.cfg.size) (c.size - old.cfg.size)
  else if c.size < old.cfg.size then
    (s.dropOffers c.room fun e => c.base + c.size < e.base + e.size).offerToEmpty c
  else s

/-- A migration of a room on this device is over. -/
def State.endMigration (s : State) (room : Nat) : State :=
  match s.pl.mig with
  | some m =>
    if m.room == room then
      let one := fun (k : Nat) (p : Page) =>
        if keyRoom k == room then { p with released := none, written := false } else p
      let s := { s with
        rg := { s.rg with
          tracking := s.rg.tracking.filter fun t => t.1 != room
          ranges := s.rg.ranges.filter fun g => g.room != room
          fetched := s.rg.fetched.filter fun c => c.ring != internalRing || c.started }
        ti := { s.ti with pages := mapPages s.ti.pages one } }
      s.setMig none
    else s
  | none => s

/-- A room is removed: every access to it is refused from now on (R140). -/
def State.roomRemove (s : State) (room : Nat) : State :=
  let s := (s.dropOffers room fun _ => true).modRoom room fun r => { r with state := .removing, forwarding := false }
  s.endMigration room

/-- One entry of a ROOMS section acts. -/
def State.applyRoom (s : State) (x : RoomCfg) : State :=
  let c := { x with action := 0 }
  match s.room x.room with
  | none => s.roomAdd c
  | some r => if x.action == 3 then s.roomRemove x.room else s.roomChange r c

/-- The mode of a wing's slice (R41). -/
def State.applyPantry (s : State) (q : Plan) : State :=
  s.wings.foldl
    (fun (s : State) (w : Nat) =>
      let parity := q.pantry.getD w 0 == 1
      if s.flag .PAN_CFG_MODE w == parity then s
      else (s.setFlag .PAN_CFG_MODE w parity).setReg .PAN_CFG_WAYS w (if parity then 18 else 16))
    s

/-- Units newly marked out are drained, and units marked in are returned (R60, R364 to R366). -/
def State.applyService (s : State) (v : ServiceCfg) : State :=
  let units := (List.range 48).filter s.unitEnabled
  let out := fun (u : Nat) =>
    if u < 8 then v.wings.getLsbD u else if u < 16 then v.larders.getLsbD (u - 8) else v.cellars.getLsbD (u - 16)
  units.foldl
    (fun (s : State) (u : Nat) =>
      let st := s.svc u
      if out u then
        let s := { s with br := { s.br with readmit := s.br.readmit.filter fun x => x != u } }
        (if st == 0 || st == 4 then s.takeOut u else s)
      else if st == 1 || st == 2 || st == 3 || st == 5 then s.bringBack u (v.flags % 2 == 1)
      else s)
    s

/-- A section acts. -/
def State.applySection (s : State) (q : Plan) (x : Section) : State :=
  match x.type with
  | 4 => (match roomsOf x.body true with | .ok l => l | .error _ => []).foldl State.applyRoom s |>.repin
  | 8 => s.loadThermal q.thermal
  | 9 => s.loadReact q.react
  | 10 => s.applyPantry q
  | 11 => ({ s with pl := { s.pl with standby := q.pool.standby } } : State).putPoolRecord
  | 13 => s.spareLevels.computeBudget
  | 16 => s.applyService q.service
  | _ => s

/-- The log record of an amendment (R51). -/
def logRecord (b : List Byte) : List Byte :=
  toBytes 4 0x4B464C47 ++ toBytes 4 b.length ++ toBytes 4 (crc32 b).toNat ++ toBytes 4 0 ++ b

/-- The append and the commit (R55 steps 6 and 7). The unit record of R577 is programmed with the room it is for. -/
def State.commitAmendment (s : State) (q : Plan) (seq : Nat) (secs : List Section) (b : List Byte) : State :=
  let s := { s with
    flash := { s.flash with cells := flashProgram s.flash.cells (logBase + s.logUsed) (logRecord b) }
    lk := { s.lk with amdHash := hashChain s.lk.amdHash b }
    plan := some q }
  let s := (s.setReg .HALL_AMD_SEQ 0 seq).logFields
  let s := secs.foldl (fun (s : State) x => s.applySection q x) s
  let s := (s.setReg .HALL_AMD_STATUS_RESULT 0 1).setReg .HALL_AMD_STATUS_LAST_SEQ 0 seq
  ((s.count 160 1).emit srcAmdCommitted).settle

/-- A rejection (R56). -/
def State.rejectAmendment (s : State) (cause seq : Nat) : State :=
  let s := (s.setReg .HALL_AMD_STATUS_RESULT 0 2).setReg .HALL_AMD_STATUS_CAUSE 0 cause
  ((s.setReg .HALL_AMD_STATUS_LAST_SEQ 0 seq).count 161 1).emit srcAmdRejected

/-- Handles a whole amendment: the cause and its AMD_SEQ (R50, R53, R55). -/
def State.amend (s : State) (b : List Byte) : State × Nat × Nat :=
  let seq := le b 0x38 8
  let early := s.pw.dev == .boot && !s.pw.bootTried
  let open_ := s.pw.dev == .boot || s.pw.dev == .recovery || s.pw.dev == .serving
  let r := if early || !open_ then .error busyCause else s.checkAmendment b
  match r with
  | .ok (q, n, secs) => (s.commitAmendment q n secs b, 0, seq)
  | .error cause => (s.rejectAmendment cause seq, cause, seq)

/-! ### Chunks (R415, R416) -/

/-- A chunk joins the amendment in progress; the last one starts R55, and AMD_RESULT answers it. A chunk at offset 0
begins anew; any other one out of order is dropped. -/
def State.chunk (s : State) (h : Hdr) (offset : Nat) (bytes : List Byte) : State × Option (Nat × Nat × List Word) :=
  let busy := fun (s : State) b => s.setFlag .HALL_AMD_STATUS_BUSY 0 b
  let other := match s.pl.partialAmd with | some (src, _) => src != h.src | none => false
  if other then
    (busy { s with pl := { s.pl with partialAmd := none } } false, some (0x03, 3, []))
  else
    let sofar := match s.pl.partialAmd with | some (_, b) => if offset = 0 then [] else b | none => []
    if sofar.length != offset then (s, none)
    else
      let b := sofar ++ bytes
      if h.last then
        let s := { s with pl := { s.pl with partialAmd := none } }
        let (s, cause, seq) := (busy s false).amend b
        (s, some (0x04, 0, [pword cause, pword seq]))
      else (busy { s with pl := { s.pl with partialAmd := some (h.src, b) } } true, some (0x03, 0, []))

/-- A worker has lost both manager and standby (R24). -/
def State.poolLost (s : State) : Bool :=
  s.role == 2 && 3 ≤ s.missedOf s.pl.manager && (4096 ≤ s.pl.standby || 3 ≤ s.missedOf s.pl.standby)

/-- AMENDMENT: one chunk of an amendment; with the last chunk it is committed or rejected (R54 to R59, R416). A worker
that lost both manager and standby takes it from the manager alone (R24). -/
def execAmendment (h : Hdr) (offset : Nat) (bytes : List Byte) (s : State) : Result :=
  .next (s.landingTry h 0x03 fun s =>
    if s.poolLost && h.src != s.pl.manager then (s, some (0x03, 5, [])) else s.chunk h offset bytes)

/-! ### The end of a removal (R140, R142, R322) -/

/-- A room's slot after the room: FLOOR is above HIGH (R322). -/
def State.raiseFloor (s : State) (c : RoomCfg) : State :=
  if c.persistent then
    match look s.lk.slots c.keySlot with
    | some k => s.fillSlot c.keySlot { k with floor := k.high + 1 }
    | none => s
  else { s with lk := { s.lk with ephFloor := s.ephHigh + 1 } }

/-- Nothing of a room's maps, trees, stripes and counters is left. -/
def State.freeRoom (s : State) (room : Nat) : State :=
  let of := fun (k : Nat) => keyRoom k == room
  { s with
    rooms := del s.rooms room
    ti := { s.ti with pages := s.ti.pages.filter fun x => !of x.1 }
    md := { s.md with
      ckptMap := s.md.ckptMap.filter fun x => !of x.1, mapJournal := s.md.mapJournal.filter fun x => !of x.1 }
    lk := { s.lk with versions := s.lk.versions.filter fun x => !of x.1 }
    br := { s.br with stripes := s.br.stripes.filter fun x => x.1 / 2 ^ 40 != room }
    hp := { s.hp with hmbLeaves := s.hp.hmbLeaves.filter fun x => x.1 != room }
    me := { s.me with
      rooms := s.me.rooms.filter fun x => x.1 / 32 != room
      roomShadow := s.me.roomShadow.filter fun x => x.1 / 32 != room } }

/-- A request of a room that has not been answered yet. -/
def State.roomHasRequests (s : State) (room : Nat) : Bool :=
  s.hp.pend.any (fun q => q.room == room) || s.hp.ingress.any fun q => q.room == room

/-- ROOM_REMOVAL_DONE: the walk of R140 has released every page, and the room is ABSENT. It waits for the requests the
room still has. -/
def execRoomRemovalDone (room : RoomNo) (s : State) : Result :=
  match s.room room.val with
  | none => .next s
  | some r =>
    if r.state != .removing || !s.pw.dev.hallOn || s.roomHasRequests room.val then .next s
    else
      let s := (s.releasePages room.val ((s.roomPages room.val).map Prod.fst) false).1
      let s := (s.raiseFloor r.cfg).freeRoom room.val
      let last := r.cfg.persistent && s.rooms.all fun x => !x.2.cfg.persistent
      .next (if last then s.putUnitRecord else s).settle

/-! ### Release of extents (R84, R86) -/

/-- What stays held of an extent when a part of it is released. -/
def Extent.rest (e : Extent) (base size : Nat) : List Extent :=
  (if e.base < base then [{ e with size := base - e.base }] else []) ++
  (if base + size < e.base + e.size then [{ e with base := base + size, size := e.base + e.size - (base + size) }] else [])

/-- A part a host may release: the whole extent, or one that starts and ends on a 1 GiB boundary (R84). -/
def Extent.part (e : Extent) (base size : Nat) : Bool :=
  (base == e.base && size == e.size) ||
    (0 < size && e.base ≤ base && base + size ≤ e.base + e.size && base % 2 ^ 30 == 0 && size % 2 ^ 30 == 0)

/-- The former region goes with its last holder (R86). -/
def State.formerOver (s : State) (room : Nat) : State :=
  s.modRoom room fun r =>
    match r.former with
    | some g => if (s.hp.extents.any fun e => e.room == room && e.region == g) then r else { r with former := none }
    | none => r

end Sys2Proof.Machine
end

