-- ==== Sys2Proof/Machine/Rings.lean ====
section
/-! DEFINITION. Rings: doorbells, contexts, ring states, completion records and interrupts, and the dispatch of commands to
Stair channels (R376 to R384, R389 to R391, R394, R395). -/

namespace Sys2Proof.Machine

/-! ### Contexts (R376 to R379) -/

/-- A ring that the RINGS section gives (R376). -/
def State.ringExists (s : State) (requester ring : Nat) : Bool :=
  match s.plan with
  | some p => (match p.ringsOf requester with | some x => ring < x.count | none => false)
  | none => false

/-- The context of an IDLE ring: all zero. -/
def RingCtx.blank : RingCtx where
  sqBase := 0
  cqBase := 0
  msiAddr := 0
  msiData := 0
  sqLog2 := 0
  cqLog2 := 0
  irqMode := 0
  state := .idle
  sqHead := 0
  sqTail := 0
  cqTail := 0
  cqHead := 0
  coalesceCount := 0
  coalesceTime := 0
  phase := false
  errIndex := 0
  errStatus := 0
  waiting := []
  counted := 0

/-- A ring's context. -/
def State.ctx (s : State) (k : Nat) : RingCtx := lookD s.rg.ctx k RingCtx.blank

/-- Puts a context; an IDLE ring has none. -/
def State.setCtx (s : State) (k : Nat) (c : RingCtx) : State :=
  { s with rg := { s.rg with ctx := if c.state == .idle then del s.rg.ctx k else put s.rg.ctx k c } }

/-- Codes of R378. -/
def RingState.code : RingState → Nat
  | .idle => 0 | .stopped => 1 | .running => 2 | .stopping => 3 | .error => 4

/-- The 64 bytes of a context (R377). -/
def RingCtx.words (c : RingCtx) : List Word :=
  let b := fun (n v : Nat) => v * 2 ^ n
  [pword c.sqBase, pword c.cqBase, pword c.msiAddr,
   pword (c.msiData.toNat + b 32 c.sqLog2 + b 40 c.cqLog2 + b 48 c.irqMode + b 56 c.state.code),
   pword (c.sqHead.toNat + b 32 c.sqTail.toNat), pword (c.cqTail.toNat + b 32 c.cqHead.toNat),
   pword (c.coalesceCount + b 8 c.coalesceTime + b 32 (if c.phase then 1 else 0)),
   pword (c.errIndex.toNat + b 32 c.errStatus)]

/-- A context as a CONTEXT write gives it: the device-set fields zeroed, PHASE 1, STOPPED (R379). -/
def contextOf (d : Line) : RingCtx :=
  let w := fun i => (wordAt d i).toNat
  { RingCtx.blank with
    sqBase := w 0, cqBase := w 1, msiAddr := w 2, msiData := BitVec.ofNat 32 (w 3)
    sqLog2 := w 3 / 2 ^ 32 % 256, cqLog2 := w 3 / 2 ^ 40 % 256, irqMode := w 3 / 2 ^ 48 % 256, state := .stopped
    coalesceCount := w 6 % 256, coalesceTime := w 6 / 256 % 2 ^ 16, phase := true }

/-- A context R379 accepts. -/
def RingCtx.ok (c : RingCtx) : Bool :=
  4 ≤ c.sqLog2 && c.sqLog2 ≤ 16 && 4 ≤ c.cqLog2 && c.cqLog2 ≤ 16 && c.sqBase % 64 == 0 && c.cqBase % 64 == 0 &&
    c.irqMode ≤ 2

/-! ### Records and interrupts (R382, R383, R389) -/

/-- The completion ring is full. -/
def RingCtx.full (c : RingCtx) : Bool := (c.cqTail - c.cqHead).toNat == 2 ^ c.cqLog2

/-- Sends the ring's interrupt message and starts the count anew; none while MSI_ADDR is 0 (R383). -/
def State.ringMessage (s : State) (k : Nat) : State :=
  let c := s.ctx k
  if c.msiAddr = 0 then s
  else
    let s := s.setCtx k { c with counted := 0 }
    (s.send (.memWrite (k / 64) c.msiAddr (toBytes 4 c.msiData.toNat) false)).count 259 1

/-- Writes one record: tag, index, status, flags and result; bit 8 of the flags says that it asks for an interrupt under
IRQ_MODE 1. -/
def State.putRecord (s : State) (k : Nat) (x : Nat × Nat × Nat × Nat × Word) : State :=
  let (tag, index, status, flags, result) := x
  let c := s.ctx k
  let slot := c.cqTail.toNat % 2 ^ c.cqLog2
  let bytes := toBytes 4 tag ++ toBytes 2 index ++ toBytes 1 status ++
    toBytes 1 (flags % 256 + if c.phase then 1 else 0) ++ toBytes 8 result.toNat
  let s := (s.send (.memWrite (k / 64) (c.cqBase + 16 * slot) bytes false)).count 258 1
  let counts := c.irqMode == 2 || (c.irqMode == 1 && 256 ≤ flags)
  let n := if counts then c.counted + 1 else c.counted
  let s := s.setCtx k { c with
    cqTail := c.cqTail + 1, phase := if slot + 1 == 2 ^ c.cqLog2 then !c.phase else c.phase, counted := n }
  if counts && max 1 c.coalesceCount ≤ n then s.ringMessage k else s

/-- A record is written, or waits while the completion ring is full or others wait. The internal ring has none. -/
def State.record (s : State) (k : Nat) (x : Nat × Nat × Nat × Nat × Word) : State :=
  let c := s.ctx k
  if k == internalRing || c.state == .idle then s
  else if c.full || !c.waiting.isEmpty then s.setCtx k { c with waiting := c.waiting ++ [x] }
  else s.putRecord k x

/-- Waiting records are written as far as there is room. -/
def State.flushRecords : Nat → State → Nat → State
  | 0, s, _ => s
  | n + 1, s, k =>
    let c := s.ctx k
    match c.waiting with
    | [] => s
    | x :: rest => if c.full then s else State.flushRecords n ((s.setCtx k { c with waiting := rest }).putRecord k x) k

/-- Moves a ring to a state; STOPPED, RUNNING and ERROR write a state record (R380). -/
def State.setRing (s : State) (k : Nat) (st : RingState) : State :=
  let s := s.setCtx k { s.ctx k with state := st }
  if st == .stopped || st == .running || st == .error then s.record k (0, 0, 0, 2, pword st.code) else s

/-- SQ_HEAD goes back to the oldest command fetched but not started. -/
def State.unfetch (s : State) (k : Nat) : State :=
  let mine := fun (c : RingCmd) => c.ring == k && !c.started
  match s.rg.fetched.find? mine with
  | none => s
  | some c =>
    let s := { s with rg := { s.rg with fetched := s.rg.fetched.filter fun x => !mine x } }
    s.setCtx k { s.ctx k with sqHead := c.index }

/-- A ring goes to ERROR with a status and, where a command caused it, its index (R380, R390). -/
def State.ringError (s : State) (k : Nat) (index : Option (BitVec 32)) (status : Nat) : State :=
  let s := s.unfetch k
  let c := s.ctx k
  let s := s.setCtx k { c with errIndex := index.getD c.errIndex, errStatus := status }
  s.setRing k .error

/-- A STOPPING ring becomes STOPPED with its last command in execution (R380). -/
def State.ringStopped (s : State) (k : Nat) : State :=
  if (s.ctx k).state == .stopping && s.inExecution k == 0 then s.setRing k .stopped else s

/-! ### Doorbells (R93, R378 to R382) -/

/-- A doorbell write that is ignored and counted. -/
def State.doorbellIgnored (s : State) : State := s.satReg .RING_ERR_DB_IGNORED 0 1

/-- A doorbell write reaches a ring of its own requester; one to another's page is discarded with an event (R93), and one
to a ring that does not exist is ignored (R36). -/
def State.doorbell (s : State) (requester page ring : Nat) (run : State → Nat → State) : State :=
  if !s.pw.dev.hallOn then s
  else
    let r := s.requesterOf requester
    let s := s.count 256 1
    if r != page then (s.satReg .RING_ERR_FOREIGN 0 1).emitReq srcForeign r 2 0 0
    else if !s.ringExists r ring then s.doorbellIgnored
    else run s (ringKey r ring)

/-- A CTRL value given in a state it acts in, or one that is ignored (R380). -/
def State.ctrl (s : State) (k : Nat) (states : List RingState) (run : State → State) : State :=
  if states.contains (s.ctx k).state then run s else s.doorbellIgnored

/-- SQ_TAIL (R381). -/
def execSqTail (requester page : Requester) (ring : RingNo) (tail : BitVec 32) (s : State) : Result :=
  .next (s.doorbell requester.val page.val ring.val fun s k =>
    let c := s.ctx k
    if c.state == .idle then s.doorbellIgnored
    else if (c.sqTail - c.sqHead).toNat ≤ (tail - c.sqHead).toNat && (tail - c.sqHead).toNat ≤ 2 ^ c.sqLog2 then
      s.setCtx k { c with sqTail := tail }
    else if c.state == .error then s.setCtx k { c with errStatus := 0x1E }
    else s.ringError k none 0x1E)

/-- CQ_HEAD (R382). -/
def execCqHead (requester page : Requester) (ring : RingNo) (head : BitVec 32) (s : State) : Result :=
  .next (s.doorbell requester.val page.val ring.val fun s k =>
    let c := s.ctx k
    if c.state == .idle || (c.cqTail - c.cqHead).toNat < (head - c.cqHead).toNat then s.doorbellIgnored
    else State.flushRecords c.waiting.length (s.setCtx k { c with cqHead := head }) k)

/-- START (R380). -/
def execRingStart (requester page : Requester) (ring : RingNo) (s : State) : Result :=
  .next (s.doorbell requester.val page.val ring.val fun s k => s.ctrl k [.stopped] fun s => s.setRing k .running)

/-- STOP (R380): what was fetched but not started is fetched again after the next START. -/
def execRingStop (requester page : Requester) (ring : RingNo) (s : State) : Result :=
  .next (s.doorbell requester.val page.val ring.val fun s k =>
    s.ctrl k [.running] fun s => ((s.unfetch k).setRing k .stopping).ringStopped k)

/-- RESUME (R380). -/
def execRingResume (requester page : Requester) (ring : RingNo) (s : State) : Result :=
  .next (s.doorbell requester.val page.val ring.val fun s k => s.ctrl k [.error] fun s => s.setRing k .running)

/-- RESET (R380): everything not completed is discarded. -/
def execRingReset (requester page : Requester) (ring : RingNo) (s : State) : Result :=
  .next (s.doorbell requester.val page.val ring.val fun s k =>
    s.ctrl k [.stopped, .error] fun s =>
      let gone := (s.rg.chans.filter fun (x : Nat × Channel) => x.2.ring == k).map Prod.fst
      { s with rg := { s.rg with
        ctx := del s.rg.ctx k
        fetched := s.rg.fetched.filter fun c => c.ring != k
        chans := s.rg.chans.filter fun x => x.2.ring != k
        waiters := s.rg.waiters.filter fun c => !gone.contains c } })

/-- CONTEXT (R379). -/
def execContext (requester page : Requester) (ring : RingNo) (data : Line) (s : State) : Result :=
  .next (s.doorbell requester.val page.val ring.val fun s k =>
    let c := contextOf data
    if (s.ctx k).state == .idle && c.ok then (s.setCtx k c).setRing k .stopped
    else (s.satReg .RING_ERR_BAD_CONTEXT 0 1).emitReq srcBadContext (k / 64) 2 0 0)

/-- COALESCE_TIMER: the time after the first counted record is over (R383). -/
def execCoalesceTimer (requester : Requester) (ring : RingNo) (s : State) : Result :=
  let k := ringKey requester.val ring.val
  let c := s.ctx k
  if c.counted = 0 || c.coalesceTime = 0 || !s.pw.dev.hallOn then .next s else .next (s.ringMessage k)

/-! ### Commands (R384, R386) -/

/-- The fields of a command. -/
structure StairCmd where
  op : Nat
  unordered : Bool
  irq : Bool
  flags : Nat
  sspace : Nat
  dspace : Nat
  tag : Nat
  src : Nat
  dst : Nat
  len : Nat
  sid : Nat
  did : Nat
  zero0 : Nat
  arg0 : Nat
  arg1 : Nat
  zero1 : Nat
  deriving DecidableEq, Repr

/-- Reads a command. -/
def stairCmd (d : Line) : StairCmd :=
  let f := fun off n => le (bytesOf d off n) 0 n
  { op := f 0 1, unordered := (f 1 1).testBit 0, irq := (f 1 1).testBit 1, flags := f 1 1, sspace := f 2 1,
    dspace := f 3 1, tag := f 4 4, src := f 8 8, dst := f 0x10 8, len := f 0x18 8, sid := f 0x20 2, did := f 0x22 2,
    zero0 := f 0x24 4, arg0 := f 0x28 8, arg1 := f 0x30 8, zero1 := f 0x38 8 }

/-- A space with its ID: the ID is zero in requester memory and 12 bits elsewhere. -/
def spaceOk (space id : Nat) : Bool := if space = 1 then id == 0 else space ≤ 2 && id < 4096

/-- The commands that work on a range of room pages, named by DST and DID (log entry 20). -/
def StairCmd.pageOp (c : StairCmd) : Bool := 3 ≤ c.op && c.op ≤ 7

/-- BAD_COMMAND and BAD_ALIGN, 0 when neither holds (R384, R386, R390). -/
def StairCmd.check (c : StairCmd) : Nat :=
  let common := c.flags < 4 && c.zero0 == 0 && c.zero1 == 0
  let noSrc := c.src == 0 && c.sspace == 0 && c.sid == 0
  let noDst := c.dst == 0 && c.dspace == 0 && c.did == 0
  let noArgs := c.arg0 == 0 && c.arg1 == 0
  let moved := 1 ≤ c.len && c.len ≤ 2 ^ 30
  let ok := match c.op with
    | 1 => spaceOk c.sspace c.sid && spaceOk c.dspace c.did && moved && noArgs
    | 2 => noSrc && spaceOk c.dspace c.did && moved && noArgs
    | 3 | 4 | 5 | 6 | 7 => noSrc && c.dspace == 0 && c.did < 4096 && noArgs
    | 8 => noSrc && noDst && c.len == 0 && noArgs
    | 9 => c.sspace == 0 && c.sid < 4096 && c.dspace == 2 && c.did < 4096 && c.arg0 < 4 && c.arg1 == 0
    | 10 => noSrc && c.dspace == 0 && c.did < 4096 && (c.arg0 % 2 ^ 16) < 4096 && c.arg0 / 2 ^ 16 < 2 && c.arg1 == 0
    | 11 => c.sspace ≤ 1 && spaceOk c.sspace c.sid && noDst && 1 ≤ c.len && c.len ≤ 4096 && noArgs
    | _ => false
  let aligned := match c.op with
    | 3 | 4 | 5 | 6 | 7 | 10 => c.dst % 4096 == 0 && c.len % 4096 == 0
    | 9 => c.src % 4096 == 0 && c.len % 4096 == 0
    | _ => true
  if !(common && ok) then 0x10 else if !aligned then 0x11 else 0

/-- The cost of a dispatch (R394). -/
def StairCmd.cost (c : StairCmd) : Nat :=
  match c.op with
  | 1 | 2 => c.len
  | 8 | 10 => 64
  | 11 => 64 * c.len
  | _ => 64 * (c.len / 4096)

/-- The first room address of a command, as room and page (R395). -/
def StairCmd.firstRoom (c : StairCmd) : Option (Nat × Nat) :=
  let src := if c.sspace = 0 then some (c.sid, c.src / 4096) else none
  let dst := if c.dspace = 0 then some (c.did, c.dst / 4096) else none
  match c.op with
  | 1 => match src with | some x => some x | none => dst
  | 9 | 11 => src
  | 8 => none
  | _ => dst

/-! ### Dispatch (R391, R394, R395) -/

/-- A requester's entry of the RINGS section, for a ring; the internal ring is charged to the room its command moves. -/
def State.chargeRoom (s : State) (k : Nat) (cmd : Option Line) : Nat :=
  if k == internalRing then
    match cmd with
    | some d => let c := stairCmd d; if c.op = 9 then c.sid else c.did
    | none => 0
  else match s.plan with
    | some p => (match p.ringsOf (k / 64) with | some x => x.charge | none => 0)
    | none => 0

/-- The wings whose channels may serve a ring. -/
def State.ringWings (s : State) (k : Nat) : List Nat :=
  let mask := if k == internalRing then 255 else match s.plan with
    | some p => (match p.ringsOf (k / 64) with | some x => x.mask | none => 0)
    | none => 0
  s.wings.filter fun w => mask.testBit w && s.serves w

/-- The lowest free channel of a wing. -/
def State.freeChannel (s : State) (w : Nat) : Option Nat :=
  ((List.range 32).map fun i => 32 * w + i).find? fun ch => (look s.rg.chans ch).isNone

/-- The channel a command goes to: the home wing of its first room page, then the lowest wing with a free one. -/
def State.channelFor (s : State) (k : Nat) (cmd : Line) : Option Nat :=
  let ws := s.ringWings k
  let first := match (stairCmd cmd).firstRoom with
    | some (room, page) => if s.wings.isEmpty then [] else [s.home room page]
    | none => []
  (first.filter (fun w => ws.contains w) ++ ws).findSome? s.freeChannel

/-- The first command of a ring that is fetched and not started. -/
def State.unstarted (s : State) (k : Nat) : Option RingCmd := s.rg.fetched.find? fun c => c.ring == k && !c.started

/-- A command may start: every earlier one completed, or with UNORDERED every earlier one without the flag; at most 8
in execution (R391). -/
def State.mayStart (s : State) (c : RingCmd) : Bool :=
  let earlier := s.rg.fetched.filter fun x => x.ring == c.ring && x.started
  s.inExecution c.ring < 8 &&
    (if (stairCmd c.cmd).unordered then earlier.all fun x => (stairCmd x.cmd).unordered else earlier.isEmpty)

/-- A ready ring: its next command is fetched, or can be, and may start (R394; log entry 21). -/
def State.ringReady (s : State) (k : Nat) (fetch : Bool) : Bool :=
  let c := s.ctx k
  (k == internalRing || (c.state == .running && c.waiting.isEmpty && !c.full)) &&
    (match s.unstarted k with
     | some x => s.mayStart x && (s.channelFor k x.cmd).isSome
     | none => fetch && k != internalRing && c.sqHead != c.sqTail && s.inExecution k < 8 && s.hp.link == .l0)

/-- The virtual time of a room as a dispatch sees it: at least that of the last dispatch. -/
def State.virtualTime (s : State) (room : Nat) : Rat := max (lookD s.rg.vtime room 0) s.rg.lastV

/-- The room of least virtual time, the lower number on ties. -/
def State.leastRoom (s : State) : List Nat → Option Nat
  | [] => none
  | r :: rs =>
    match State.leastRoom s rs with
    | none => some r
    | some q =>
      if s.virtualTime q < s.virtualTime r || (s.virtualTime q == s.virtualTime r && q < r) then some q else some r

/-- The ring after the last one served in a room. -/
def State.ringAfterLast (s : State) (room : Nat) (rings : List Nat) : Option Nat :=
  let l := sortBy (fun (k : Nat) => k) rings
  match look s.rg.lastRing room with
  | some k => (match l.find? fun x => k < x with | some x => some x | none => l.head?)
  | none => l.head?

/-- The ring a dispatch serves. -/
def State.dispatchChoice (s : State) (fetch : Bool) : Option Nat :=
  let keys := ((internalRing :: s.ringKeys).filter fun k => s.ringReady k fetch).map fun k =>
    (s.chargeRoom k ((s.unstarted k).map RingCmd.cmd), k)
  match s.leastRoom (keys.map Prod.fst) with
  | none => none
  | some room => s.ringAfterLast room ((keys.filter fun x => x.1 == room).map Prod.snd)

/-- A channel with a command it has just been given. -/
def Channel.start (ring : Nat) (index : BitVec 32) (cmd : Line) (charge : Nat) : Channel where
  ring := ring
  index := index
  cmd := cmd
  charge := charge
  done := (stairCmd cmd).check != 0
  status := (stairCmd cmd).check
  result := 0
  bases := []
  program := []
  pc := 0
  loops := []
  waitBeat := none
  loaded := false
  todo := []

/-- Counts on a Stair channel: 0 commands, 1 line requests, 2 bytes (R523). -/
def State.stairCount (s : State) (ch k n : Nat) : State := s.count (512 + 768 * (ch / 32) + 480 + 4 * (ch % 32) + k) n

/-- Gives a command to a channel and charges its room. -/
def State.startCommand (s : State) (c : RingCmd) (ch : Nat) : State :=
  let room := s.chargeRoom c.ring (some c.cmd)
  let weight := match s.room room with | some r => max 1 r.cfg.weight | none => 1
  let v := s.virtualTime room
  let mark := fun (x : RingCmd) => if x.ring == c.ring && x.index == c.index then { x with started := true } else x
  let s := { s with rg := { s.rg with
    fetched := s.rg.fetched.map mark
    chans := put s.rg.chans ch (Channel.start c.ring c.index c.cmd room)
    vtime := put s.rg.vtime room (v + ((stairCmd c.cmd).cost : Rat) / (weight : Rat))
    lastV := v
    lastRing := put s.rg.lastRing room c.ring } }
  s.stairCount ch 0 1

/-- The next command of a ring is fetched at SQ_HEAD. -/
def State.fetchCommand (s : State) (k : Nat) (d : Line) : State :=
  let c := s.ctx k
  let s := { s with rg := { s.rg with
    fetched := s.rg.fetched ++ [(⟨k, c.sqHead, d, false⟩ : RingCmd)] } }
  (s.setCtx k { c with sqHead := c.sqHead + 1 }).count 257 1

/-- Starts the next command of a ring when it may start and a channel is free. -/
def State.startNext (s : State) (k : Nat) : State :=
  match s.unstarted k with
  | some c => if s.mayStart c then (match s.channelFor k c.cmd with | some ch => s.startCommand c ch | none => s) else s
  | none => s

/-- DISPATCH (R394, R395): the ready ring of the ready room of least virtual time. A ring whose next command is not here
yet fetches it first; a fetch that fails puts the ring in ERROR with HOST_ERROR. Fetch stops outside SERVING (R406). -/
def execDispatch (fetched : Option Line) (s : State) : Result :=
  if s.pw.dev != .serving then .next s
  else match s.dispatchChoice true with
    | none => .next s
    | some k =>
      match s.unstarted k, fetched with
      | some _, _ => .next (s.startNext k)
      | none, some d => .next ((s.fetchCommand k d).startNext k)
      | none, none => .next (s.ringError k (some (s.ctx k).sqHead) 0x17)

/-- COMMAND_COMPLETE: the record of a finished command is written or waits; a status of 0x10 or above stops the ring
(R382, R389, R390). -/
def execCommandComplete (ch : StairCh) (s : State) : Result :=
  match look s.rg.chans ch.val with
  | none => .next s
  | some c =>
    if !c.done then .next s
    else
      let d := stairCmd c.cmd
      let s := { s with rg := { s.rg with
        chans := del s.rg.chans ch.val
        waiters := s.rg.waiters.filter fun x => x != ch.val
        fetched := s.rg.fetched.filter fun x => !(x.ring == c.ring && x.index == c.index && x.started) } }
      let flags := (if d.unordered then 4 else 0) + (if d.irq then 256 else 0)
      let s := s.record c.ring (d.tag, c.index.toNat % 2 ^ 16, c.status, flags, c.result)
      if c.status < 0x10 then .next (s.ringStopped c.ring)
      else
        let s := (s.satReg .STR_STAT_ERRORS ch.val 1).emit (srcStair ch.val)
        let st := (s.ctx c.ring).state
        if st == .running || st == .stopping then .next (s.ringError c.ring (some c.index) c.status) else .next s

end Sys2Proof.Machine
end

