-- ==== Sys2Proof/Machine/Stair.lean ====
section
/-! DEFINITION. The Stair channels: line requests and their checks, the commands, and programs with their waits and
signals (R385 to R388, R392, R393, R396 to R408). -/

namespace Sys2Proof.Machine

/-! ### Line requests (R385, R396) -/

/-- The requester of a ring passes R71 step 5 for a room offset; the internal ring of a migration is not checked. -/
def State.stairMay (s : State) (k room offset : Nat) : Bool :=
  match s.room room with
  | none => false
  | some r =>
    let dpa := r.cfg.base + offset
    let q := k / 64
    r.state != .removing && offset < r.cfg.size &&
      (k == internalRing || (r.cfg.admits q && s.hp.extents.any fun e =>
        e.requester == q && e.room == room && r.regionOk e.region && e.base ≤ dpa && dpa < e.base + e.size))

/-- A room's lines stand still for a ring: a migration freeze, or a home that is not serving yet (R99, R148, R358). -/
def State.stairHeld (s : State) (k room page : Nat) : Bool :=
  match s.room room with
  | none => false
  | some r => (k != internalRing && r.state == .frozen) || s.homeWaits r.cfg room page

/-- A Stair write would make a clean page dirty while there is no room for it (R176, R396). -/
def State.stairPaced (s : State) (c : RoomCfg) (room page : Nat) : Bool :=
  let dirty := (s.page room page).dirty && !s.writeThrough
  !dirty && !s.unstorable c (s.page room page) &&
    (s.noRoom c room page || s.hp.pend.any (s.pacedOn (s.home room page)))

/-- A write of a page would be handled under R128. -/
def State.discards (s : State) (c : RoomCfg) (room page : Nat) : Bool :=
  s.unstorable c (s.page room page) || (!(s.page room page).backed && (s.chooseFrame c room page).isNone)

/-- The contiguous runs of a mask, as first byte and length. -/
def maskRuns (mask : BitVec 64) : List (Nat × Nat) :=
  ((List.range 64).foldl
    (fun (acc : List (Nat × Nat)) i =>
      if !mask.getLsbD i then acc
      else match acc with
        | (f, n) :: rest => if f + n == i then (f, n + 1) :: rest else (i, 1) :: (f, n) :: rest
        | [] => [(i, 1)])
    []).reverse

/-- How one write ends. -/
inductive WriteEnd where
  | done (s : State)
  | waits
  | fails (status : Nat) (s : State)

/-- Makes one write of a command (R385): REFUSED, DISCARDED, HOST_ERROR or PEER_ERROR where it fails. -/
def State.stairWrite (s : State) (wing k : Nat) (w : StairWrite) : WriteEnd :=
  if w.space = 0 then
    match s.room w.id with
    | none => .fails 0x12 s
    | some r =>
      let page := w.addr / 4096
      let line := w.addr / 64 % 64
      if !s.stairMay k w.id w.addr then .fails 0x12 s
      else if s.stairHeld k w.id page || s.stairPaced r.cfg w.id page then .waits
      else
        let bad := s.discards r.cfg w.id page || s.unreachable r.cfg w.id page
        let s := s.invalidateHosts w.id page line
        if s.unreachable r.cfg w.id page then .fails 0x13 s
        else
          let s := s.storeLine (k / 64) w.id page line w.data w.mask w.poison
          let s := if bad || w.poison then s else s.ownWritten wing w.id page line
          if bad then .fails 0x13 s else .done s
  else if s.hp.link != .l0 then .fails (if w.space = 1 then 0x17 else 0x18) s
  else
    let one := fun (s : State) (x : Nat × Nat) =>
      let bytes := bytesOf w.data x.1 x.2
      s.send (if w.space = 1 then .memWrite (k / 64) (w.addr + x.1) bytes w.poison
        else .uioWrite w.id (w.addr + x.1) bytes w.poison)
    .done ((maskRuns w.mask).foldl one s)

/-- Changes a channel's command. -/
def State.modChan (s : State) (ch : Nat) (f : Channel → Channel) : State :=
  { s with rg := { s.rg with chans := adjust s.rg.chans ch f } }

/-- A channel's command ends with a status. -/
def State.endChan (s : State) (ch status : Nat) (result : Word) : State :=
  s.modChan ch fun c => { c with done := true, status := status, result := result, todo := [], waitBeat := none }

/-- Bytes a mask writes. -/
def maskBytes (mask : BitVec 64) : Nat := (List.range 64).countP fun i => mask.getLsbD i

/-- Counts a line request of a channel and its bytes. -/
def State.stairMoved (s : State) (ch n : Nat) : State :=
  ((s.satReg .STR_STAT_BYTES ch n).stairCount ch 1 1).stairCount ch 2 n

/-- Where a channel's read of a line is served: SOURCE of its sample record (R529). -/
def State.stairSource (s : State) (wing room page line : Nat) : Nat :=
  let p := s.page room page
  let owned := match s.hitSlice room page line with | some w => w != s.home room page | none => false
  if (look s.ti.pantry (sliceKey wing (lineKey room page line))).isSome then 0
  else if owned then 5
  else if (s.pantryLine room page line).isSome then 0
  else if (p.slotLine line).isSome then 1
  else if p.backed then (if s.away p then 4 else 2) else 3

/-- A channel's line request reaches its home tracker, and may be sampled (R529). -/
def State.stairSeen (s : State) (ch room addr type : Nat) : State :=
  let source := if type = 0 then s.stairSource (ch / 32) room (addr / 4096) (addr / 64 % 64) else 0
  let mark := s.takesSample room
  let s := { s with me := { s.me with admitted := s.me.admitted + 1, sampleNext := false } }
  if mark then s.sampleRecord (2 ^ 15 + ch) room (addr / 4096) (addr / 64 % 64) type source 0 else s

/-- The line requests of a channel's read of a room. -/
def State.stairReads (s : State) (ch space room addr len : Nat) : State :=
  if space = 0 then
    let first := addr / 64
    (List.range ((addr + len + 63) / 64 - first)).foldl
      (fun (s : State) i =>
        let s := (s.stairCount ch 1 1).stairSeen ch room (64 * (first + i)) 0
        let page := (first + i) / 64
        let line := (first + i) % 64
        match s.lineNow room page line with
        | some d => if s.realLine room page line then s.share (ch / 32) room page line d else s
        | none => s)
      s
  else s

/-- Makes the writes of a command in order, until one waits or fails; a failure reports `at_`. -/
def State.stairFlush : Nat → State → Nat → Option Word → State
  | 0, s, _, _ => s
  | n + 1, s, ch, at_ =>
    match look s.rg.chans ch with
    | none => s
    | some c =>
      match c.todo with
      | [] => s
      | w :: rest =>
        match s.stairWrite (ch / 32) c.ring w with
        | .waits => s
        | .fails st s => s.endChan ch st (at_.getD c.result)
        | .done s =>
          let b := maskBytes w.mask
          let s := if w.space = 0 then s.stairSeen ch w.id w.addr (if fullMask w.mask then 1 else 2) else s
          let s := (s.modChan ch fun c => { c with
            todo := rest, result := c.result + pword b, status := if w.poison then 1 else c.status }).stairMoved ch b
          State.stairFlush n s ch at_

/-- Bytes with their poison, cut into writes of aligned lines. -/
def cutLines (space id : Nat) : Nat → Nat → List (Byte × Bool) → List StairWrite
  | 0, _, _ => []
  | n + 1, addr, bs =>
    if bs.isEmpty then []
    else
      let off := addr % 64
      let part := bs.take (64 - off)
      let mask : BitVec 64 := BitVec.ofNat 64 ((2 ^ part.length - 1) * 2 ^ off)
      { space := space, id := id, addr := addr - off,
        data := lineOf (List.replicate off 0 ++ part.map Prod.fst), mask := mask, poison := part.any Prod.snd } ::
      cutLines space id n (addr + part.length) (bs.drop part.length)

/-- The writes of a run of bytes. -/
def writesOf (space id addr : Nat) (bs : List (Byte × Bool)) : List StairWrite := cutLines space id (bs.length + 1) addr bs

/-- Consecutive writes of one line become one (R401). -/
def mergeWrites : List StairWrite → List StairWrite
  | [] => []
  | w :: ws =>
    match mergeWrites ws with
    | [] => [w]
    | v :: vs =>
      if v.space == w.space && v.id == w.id && v.addr == w.addr then
        { w with data := mergeLine w.data v.data v.mask, mask := w.mask ||| v.mask, poison := w.poison || v.poison } :: vs
      else w :: v :: vs

/-- One line of a room as a channel reads it. -/
def State.stairLine (s : State) (room line : Nat) : List (Byte × Bool) :=
  match s.lineNow room (line / 64) (line % 64) with
  | some d => (bytesOf d 0 64).map fun b => (b, false)
  | none => List.replicate 64 (0, true)

/-- Reads a run of bytes: from a room as it stands, or as the requester's memory or the peer answered; the status of a
read that fails (R385). -/
def State.stairRead (s : State) (k space id addr len : Nat) (answer : List Byte) : Except Nat (List (Byte × Bool)) :=
  if space = 0 then
    let first := addr / 64
    let lines := (List.range ((addr + len + 63) / 64 - first)).map fun i => first + i
    if lines.all fun l => s.stairMay k id (64 * l) then
      .ok (((lines.flatMap fun l => s.stairLine id l).drop (addr % 64)).take len)
    else .error 0x12
  else if s.hp.link != .l0 || answer.length < len then .error (if space = 1 then 0x17 else 0x18)
  else .ok ((answer.take len).map fun b => (b, false))

/-- A source in a room is held up. -/
def State.stairReadHeld (s : State) (k space id addr len : Nat) : Bool :=
  space == 0 && ((List.range ((addr + len + 4095) / 4096 - addr / 4096)).any fun i => s.stairHeld k id (addr / 4096 + i))

/-! ### A channel's turn -/

/-- A channel works: SERVING, its wing in service, not paused (R406, R408). -/
def State.channelRuns (s : State) (ch : Nat) : Bool :=
  s.pw.dev == .serving && s.serves (ch / 32) && !s.flag .STR_CTRL_PAUSE ch

/-- Runs a channel's command when it is the given one and not over. -/
def State.onCommand (s : State) (ch op : Nat) (run : State → Channel → StairCmd → State) : Result :=
  match look s.rg.chans ch with
  | none => .next s
  | some c =>
    let d := stairCmd c.cmd
    if c.done || d.op != op || !s.channelRuns ch then .next s else .next (run s c d).settle

/-- Goes on with the writes of a command, and ends it when none is left. -/
def State.stairGo (s : State) (ch : Nat) : State :=
  match look s.rg.chans ch with
  | none => s
  | some c =>
    let s := State.stairFlush c.todo.length s ch none
    match look s.rg.chans ch with
    | some c => if c.todo.isEmpty && !c.done then s.endChan ch c.status c.result else s
    | none => s

/-- COPY (R386): the source is read whole first, and then written line by line. -/
def execCopy (ch : StairCh) (source : List Byte) (s : State) : Result :=
  s.onCommand ch.val 1 fun s c d =>
    if c.loaded then s.stairGo ch.val
    else if s.stairReadHeld c.ring d.sspace d.sid d.src d.len then s
    else match s.stairRead c.ring d.sspace d.sid d.src d.len source with
      | .error st => s.endChan ch.val st 0
      | .ok bs =>
        let s := s.stairReads ch.val d.sspace d.sid d.src d.len
        (s.modChan ch.val fun c => { c with loaded := true, todo := writesOf d.dspace d.did d.dst bs }).stairGo ch.val

/-- A line ZERO leaves alone: of an unbacked page, or with minor 0 (R386). -/
def State.zeroSkips (s : State) (k : Nat) (w : StairWrite) : Bool :=
  match s.room w.id with
  | none => false
  | some r =>
    let p := s.page w.id (w.addr / 4096)
    w.space == 0 && s.stairMay k w.id w.addr &&
      (!p.backed || (p.block (s.floorOf r.cfg)).minor (w.addr / 64 % 64) == 0)

/-- ZERO (R386). -/
def execZero (ch : StairCh) (s : State) : Result :=
  s.onCommand ch.val 2 fun s c d =>
    if c.loaded then s.stairGo ch.val
    else
      let all := writesOf d.dspace d.did d.dst (List.replicate d.len (0, false))
      (s.modChan ch.val fun c => { c with loaded := true, todo := all.filter fun w => !s.zeroSkips c.ring w }).stairGo
        ch.val

/-! ### Page commands (R130, R131, R165, R169, R387) -/

/-- How far extents cover the addresses from one on. -/
def coveredTo : Nat → List Extent → Nat → Nat
  | 0, _, a => a
  | n + 1, l, a =>
    match l.find? fun e => e.base ≤ a && a < e.base + e.size with
    | some e => coveredTo n l (e.base + e.size)
    | none => a

/-- The pages from the first of a range that a ring's requester reaches, at most `n`. -/
def State.reachable (s : State) (k room first n : Nat) : Nat :=
  match s.room room with
  | none => 0
  | some r =>
    let q := k / 64
    let mine := s.hp.extents.filter fun e => e.requester == q && e.room == room && r.regionOk e.region
    let limit := r.cfg.base + r.cfg.size
    let to_ := if k == internalRing then limit
      else if r.cfg.admits q then min limit (coveredTo mine.length mine (r.cfg.base + first * 4096)) else 0
    if r.state == .removing then 0 else min n ((to_ - (r.cfg.base + first * 4096)) / 4096)

/-- The listed pages of a range, rising. -/
def State.rangePages (s : State) (room first n : Nat) : List Nat :=
  ((s.roomPages room).map Prod.fst).filter fun p => first ≤ p && p < first + n

/-- Requests of a range's pages already at their trackers (R130 step 1). -/
def State.rangeBusy (s : State) (room first n : Nat) : Bool :=
  s.hp.pend.any fun q => q.room == room && q.todo.any fun o => first ≤ o.page && o.page < first + n

/-- Runs a page command over the pages it reaches: `step` takes a state and a page and gives the state, how many pages it
counts and a status; one of 0x10 or above ends the command. A range the requester reaches only in part ends with
REFUSED. -/
def State.overPages (s : State) (ch : Nat) (c : Channel) (d : StairCmd)
    (step : State → RoomCfg → Nat → State × Nat × Nat) : State :=
  let first := d.dst / 4096
  let n := d.len / 4096
  match s.room d.did with
  | none => s.endChan ch 0x12 0
  | some r =>
    if r.state == .frozen && c.ring != internalRing then s
    else
      let m := s.reachable c.ring d.did first n
      let one := fun (acc : State × Nat × Nat) (p : Nat) =>
        let (s, count, st) := acc
        if 0x10 ≤ st then acc
        else
          let (s, k, st') := step s r.cfg p
          (s, count + k, max st st')
      let (s, count, st) := (s.rangePages d.did first m).foldl one (s, 0, 0)
      s.endChan ch (if st < 0x10 && m < n then 0x12 else st) (pword count)

/-- One page of a release. -/
def State.releaseStep (room : Nat) (secure : Bool) (s : State) (_c : RoomCfg) (page : Nat) : State × Nat × Nat :=
  if (s.page room page).untouched then (s, 0, 0)
  else
    let (s, deferred) := s.releasePage room page secure
    (s, 1, if deferred then 2 else 0)

/-- RELEASE (R130, R386): it waits for the requests that already have a tracker. -/
def execRelease (ch : StairCh) (s : State) : Result :=
  s.onCommand ch.val 3 fun s c d =>
    if s.rangeBusy d.did (d.dst / 4096) (d.len / 4096) then s
    else s.overPages ch.val c d (State.releaseStep d.did false)

/-- SECURE_RELEASE (R131, R133). -/
def execSecureRelease (ch : StairCh) (s : State) : Result :=
  s.onCommand ch.val 4 fun s c d =>
    if s.rangeBusy d.did (d.dst / 4096) (d.len / 4096) then s
    else s.overPages ch.val c d (State.releaseStep d.did true)

/-- One page of a PREFETCH; POLICY in a TIER 2 room. -/
def State.prefetchStep (room : Nat) (s : State) (c : RoomCfg) (page : Nat) : State × Nat × Nat :=
  if c.tier == 2 then (s, 0, 0x16)
  else if (s.page room page).backed then (s.promote room page false, 1, 0) else (s, 0, 0)

/-- A TIER 2 room refuses a command whatever its range holds (R387). -/
def State.tier2 (s : State) (room : Nat) : Bool := match s.room room with | some r => r.cfg.tier == 2 | none => false

/-- PREFETCH (R386, R387). -/
def execPrefetch (ch : StairCh) (s : State) : Result :=
  s.onCommand ch.val 5 fun s c d =>
    if s.tier2 d.did then s.endChan ch.val 0x16 0 else s.overPages ch.val c d (State.prefetchStep d.did)

/-- Sets or clears PINNED in a page's entry and slot. -/
def State.setPinned (s : State) (room page : Nat) (on : Bool) : State :=
  let p := s.page room page
  let e := { p.entry with pinned := on }
  let slot := p.slot.map fun sl => { sl with pinned := on }
  (s.setPage room page { p with entry := e, slot := slot }).journalEntry room page e

/-- A page is pinned in its slot. -/
def Page.slotPinned (p : Page) : Bool := match p.slot with | some sl => sl.pinned | none => false

/-- One page of a PIN: PIN_SHORT when half the wing's page area would be left short (R169). -/
def State.pinStep (room : Nat) (s : State) (_c : RoomCfg) (page : Nat) : State × Nat × Nat :=
  let p := s.page room page
  let w := s.home room page
  if !p.backed then (s, 0, 0)
  else if p.slotPinned then (s.setPinned room page true, 1, 0)
  else if s.slots w < 2 * (s.pinnedOn w + 1) then (s, 0, 0x15)
  else ((s.promote room page true).setPinned room page true, 1, 0)

/-- PIN (R387). -/
def execPin (ch : StairCh) (s : State) : Result :=
  s.onCommand ch.val 6 fun s c d =>
    if s.tier2 d.did then s.endChan ch.val 0x16 0 else s.overPages ch.val c d (State.pinStep d.did)

/-- One page of an UNPIN. -/
def State.unpinStep (room : Nat) (s : State) (_c : RoomCfg) (page : Nat) : State × Nat × Nat :=
  let p := s.page room page
  if p.entry.pinned || p.slotPinned then (s.setPinned room page false, 1, 0) else (s, 0, 0)

/-- UNPIN (R386, R387). -/
def execUnpin (ch : StairCh) (s : State) : Result :=
  s.onCommand ch.val 7 fun s c d => (s.overPages ch.val c d (State.unpinStep d.did)).repin

/-- The channels of a ring's commands that came before one and are not over. -/
def State.earlierBusy (s : State) (c : Channel) : Bool :=
  (s.rg.fetched.takeWhile fun x => !(x.ring == c.ring && x.index == c.index)).any fun x =>
    x.ring == c.ring && s.rg.chans.any fun y => y.2.ring == x.ring && y.2.index == x.index && !y.2.done

/-- PERSIST_BARRIER (R392): every write of the model has finished at its target when its command is over. -/
def execPersistBarrier (ch : StairCh) (s : State) : Result :=
  s.onCommand ch.val 8 fun s c _ => if s.earlierBusy c then s else s.endChan ch.val 0 0

/-! ### Migration commands (R388, R430) -/

/-- The written lines of a page go to the peer as UIO writes; answers whether one was poison. -/
def State.sendPage (s : State) (c : RoomCfg) (room page peer addr : Nat) : State × Bool :=
  let b := (s.page room page).block (s.floorOf c)
  let lines := (List.range 64).filter fun l => b.minor l != 0
  lines.foldl
    (fun (acc : State × Bool) l =>
      match acc.1.lineNow room page l with
      | some d => (acc.1.send (.uioWrite peer (addr + 64 * l) (bytesOf d 0 64) false), acc.2)
      | none => (acc.1.send (.uioWrite peer (addr + 64 * l) (List.replicate 64 0) true), true))
    (s, false)

/-- The releases since the last round go to the target in notices of up to 500 pages (R430). -/
def State.sendReleases (s : State) (room : Nat) (pages : List Nat) : State :=
  match s.pl.mig with
  | some m =>
    let word := fun p => pword (2 * p + if (s.page room p).released == some true then 1 else 0)
    let groups := (List.range ((pages.length + 499) / 500)).map fun i => (pages.drop (500 * i)).take 500
    groups.foldl (fun (s : State) g => s.landingSend m.peer 0x0A (pword room :: g.map word)) s
  | none => s

/-- A round of a migration on this device has been sent (LND_MIG). -/
def State.countRound (s : State) : State :=
  match s.pl.mig with
  | some m =>
    let s := { s with pl := { s.pl with mig := some { m with rounds := m.rounds + 1, failed := false } } }
    s.satReg .LND_MIG_ROUND 0 1
  | none => s

/-- A round of a migration cannot be sent: its target is not reached (R434). -/
def State.roundFailed (s : State) (k : Nat) : State :=
  match s.pl.mig with
  | some m => if k == internalRing then { s with pl := { s.pl with mig := some { m with failed := true } } } else s
  | none => s

/-- What a round of a migration sends (R388): with ARG0 bit 0 every backed page, else the releases since the last round
and the pages written since then; tracking starts with bit 0 and ends with bit 1. Answers whether a line went as poison,
and the number of pages sent. -/
def State.sendRound (s : State) (c : RoomCfg) (d : StairCmd) : State × Bool × Nat :=
  let first := d.src / 4096
  let n := d.len / 4096
  let start := d.arg0 % 2 == 1
  let pages := s.rangePages d.sid first n
  let released := pages.filter fun p => (s.page d.sid p).released.isSome
  let s := if start then s else s.sendReleases d.sid released
  let out := pages.filter fun p =>
    let x := s.page d.sid p
    x.backed && (start || x.written)
  let one := fun (acc : State × Bool) p =>
    let (s, bad) := acc.1.sendPage c d.sid p d.did (d.dst + (p * 4096 - d.src))
    (s, acc.2 || bad)
  let (s, bad) := out.foldl one (s, false)
  let clear := fun (s : State) p => s.setPage d.sid p { s.page d.sid p with written := false, released := none }
  let s := pages.foldl clear s
  let rest := s.rg.tracking.filter fun t => t != (d.sid, first, n)
  let on := start || s.rg.tracking.contains (d.sid, first, n)
  let s := { s with rg := { s.rg with
    tracking := if d.arg0 / 2 % 2 == 1 then rest else if on then rest ++ [(d.sid, first, n)] else rest } }
  (s, bad, out.length)

/-- MIGRATE_OUT (R388): it ends with the number of pages sent, REFUSED where the requester does not reach the whole
range, or PEER_ERROR without the link. -/
def execMigrateOut (ch : StairCh) (s : State) : Result :=
  s.onCommand ch.val 9 fun s c d =>
    match s.room d.sid with
    | none => s.endChan ch.val 0x12 0
    | some r =>
      if s.reachable c.ring d.sid (d.src / 4096) (d.len / 4096) < d.len / 4096 then s.endChan ch.val 0x12 0
      else if s.hp.link != .l0 then (s.roundFailed c.ring).endChan ch.val 0x18 0
      else
        let (s, bad, sent) := s.sendRound r.cfg d
        let s := if c.ring == internalRing then s.countRound else s
        s.endChan ch.val (if bad then 1 else 0) (pword sent)

/-- MIGRATE_IN (R388): the range opens to its source's UIO writes, or closes and reports the pages it received. -/
def execMigrateIn (ch : StairCh) (s : State) : Result :=
  s.onCommand ch.val 10 fun s c d =>
    let n := d.len / 4096
    let source := d.arg0 % 4096
    let hit := fun (g : OpenRange) => g.room == d.did && g.base == d.dst && g.length == d.len && g.source == source
    if s.reachable c.ring d.did (d.dst / 4096) n < n then s.endChan ch.val 0x12 0
    else if d.arg0.testBit 16 then
      let got := (s.rg.ranges.filter hit).flatMap OpenRange.pages
      ({ s with rg := { s.rg with ranges := s.rg.ranges.filter fun g => !hit g } } : State).endChan ch.val 0
        (pword got.length)
    else
      let g : OpenRange := { room := d.did, base := d.dst, length := d.len, source := source, pages := [] }
      ({ s with rg := { s.rg with ranges := s.rg.ranges ++ [g] } } : State).endChan ch.val 0 0

/-! ### Programs (R397 to R399) -/

/-- A field of an instruction. -/
def fieldOf (w : StairWord) (lo n : Nat) : Nat := w.toNat / 2 ^ lo % 2 ^ n

/-- A signed 32-bit field, as what it adds to a 64-bit address. -/
def signedOf (w : StairWord) (lo : Nat) : Nat := ((BitVec.ofNat 32 (fieldOf w lo 32)).signExtend 64).toNat

/-- An instruction (R399). -/
inductive StairInstr where
  | move (sb db soff doff len : Nat)
  | move2d (sb db soff doff line count sstride dstride : Nat)
  | fill (db doff len pattern : Nat)
  | loop (ctr target count bx by_ dx dy : Nat)
  | wait (kind index value timeout : Nat)
  | signal (kind index value : Nat)
  | persist
  deriving DecidableEq, Repr

/-- Reads instruction `i`; none where R405 stops the program with BAD_PROGRAM. -/
def stairInstr (i : Nat) (w : StairWord) : Option StairInstr :=
  let f := fieldOf w
  let moved := fun n => 1 ≤ n && n ≤ 2 ^ 30
  let keep := fun (ok : Bool) (x : StairInstr) => if ok && f 4 4 == 0 then some x else none
  match f 0 4 with
  | 1 => keep (moved (f 92 32) && f 124 4 == 0) (.move (f 8 2) (f 10 2) (f 12 40) (f 52 40) (f 92 32))
  | 2 => keep (1 ≤ f 68 14 && 1 ≤ f 82 14)
      (.move2d (f 8 2) (f 10 2) (f 12 28) (f 40 28) (f 68 14) (f 82 14) (f 96 16) (f 112 16))
  | 3 => keep (f 8 2 == 0 && moved (f 52 32) && f 116 12 == 0) (.fill (f 10 2) (f 12 40) (f 52 32) (f 84 32))
  | 4 => keep (f 10 12 ≤ i && f 114 14 == 0)
      (.loop (f 8 2) (f 10 12) (f 22 24) (f 46 2) (f 48 2) (signedOf w 50) (signedOf w 82))
  | 5 => keep (f 112 16 == 0) (.wait (f 8 2) (f 10 6) (f 16 64) (f 80 32))
  | 6 => keep (f 80 48 == 0) (.signal (f 8 2) (f 10 6) (f 16 64))
  | 7 => keep (f 8 120 == 0) .persist
  | _ => none

/-- A base of a header; none when its zero byte is not zero. -/
def baseOf (w : StairWord) : Option StairBase :=
  if fieldOf w 72 8 = 0 then
    some { addr := fieldOf w 0 64, run := fieldOf w 0 64, space := fieldOf w 64 8, id := fieldOf w 80 16,
           limit := fieldOf w 96 32 }
  else none

/-- The instruction a channel has reached. -/
def Channel.instr (c : Channel) : Option StairInstr :=
  match c.program[c.pc]? with | some w => stairInstr c.pc w | none => none

/-- Where a program stands: past its last instruction it is over, at a bad one it stops (R397, R405). -/
def State.programAt (s : State) (ch : Nat) : State :=
  match look s.rg.chans ch with
  | none => s
  | some c =>
    if c.program.length ≤ c.pc then s.endChan ch c.status (pword (c.program.length - 1))
    else if c.instr.isNone then s.endChan ch 0x19 (pword c.pc)
    else s

/-- Goes to an instruction. -/
def State.jump (s : State) (ch pc : Nat) : State :=
  (s.modChan ch fun c => { c with pc := pc, loaded := false, todo := [], waitBeat := none }).programAt ch

/-- The next instruction. -/
def State.advancePc (s : State) (ch : Nat) : State :=
  match look s.rg.chans ch with | some c => s.jump ch (c.pc + 1) | none => s

/-- 16-byte words of a run of bytes. -/
def stairWords : Nat → List Byte → List StairWord
  | 0, _ => []
  | n + 1, b => BitVec.ofNat 128 (ofBytes (b.take 16)) :: stairWords n (b.drop 16)

/-- The header and instructions of a RUN: from the room, or as the requester's memory answered. -/
def State.programWords (s : State) (k : Nat) (d : StairCmd) (header program : List StairWord) :
    Except Nat (List StairWord) :=
  if d.sspace = 0 then
    match s.stairRead k 0 d.sid d.src (64 + 16 * d.len) [] with
    | .ok bs => if bs.any Prod.snd then .error 0x19 else .ok (stairWords (4 + d.len) (bs.map Prod.fst))
    | .error st => .error st
  else if s.hp.link != .l0 || header.length != 4 || program.length < d.len then .error 0x17
  else .ok (header ++ program.take d.len)

/-- RUN (R397, R398): the header's bases and the instructions are fetched, and the program starts at instruction 0. -/
def execRun (ch : StairCh) (header program : List StairWord) (s : State) : Result :=
  s.onCommand ch.val 11 fun s c d =>
    if !c.program.isEmpty || s.stairReadHeld c.ring d.sspace d.sid d.src (64 + 16 * d.len) then s
    else match s.programWords c.ring d header program with
      | .error st => s.endChan ch.val st 0
      | .ok ws =>
        let bases := (ws.take 4).filterMap baseOf
        if bases.length < 4 then s.endChan ch.val 0x19 0
        else (s.modChan ch.val fun c => { c with bases := bases, program := ws.drop 4, pc := 0 }).programAt ch.val

/-- Runs a program's present instruction. -/
def State.onInstr (s : State) (ch : Nat) (run : State → Channel → StairInstr → State) : Result :=
  s.onCommand ch 11 fun s c _ => match c.instr with | some i => run s c i | none => s

/-! ### Moves and fills (R398, R400, R401) -/

/-- A base an instruction may use, with the address of an access in it; BAD_PROGRAM or BOUNDS (R398, R405). -/
def Channel.access (c : Channel) (b off len : Nat) : Except Nat (StairBase × Nat) :=
  match c.bases[b]? with
  | none => .error 0x19
  | some x =>
    let a := (x.run + off) % 2 ^ 64
    if 3 ≤ x.space then .error 0x19
    else if x.addr ≤ a && a + len ≤ x.addr + x.limit * 4096 then .ok (x, a) else .error 0x14

/-- Goes on with an instruction's writes; the next one follows when none is left. -/
def State.instrGo (s : State) (ch : Nat) : State :=
  match look s.rg.chans ch with
  | none => s
  | some c =>
    let s := State.stairFlush c.todo.length s ch (some (pword c.pc))
    match look s.rg.chans ch with
    | some c => if c.todo.isEmpty && !c.done then s.advancePc ch else s
    | none => s

/-- Starts an instruction's writes, or stops the program. -/
def State.instrLoad (s : State) (ch : Nat) (c : Channel) (r : Except Nat (List StairWrite)) : State :=
  match r with
  | .error st => s.endChan ch st (pword c.pc)
  | .ok ws => (s.modChan ch fun c => { c with loaded := true, todo := ws }).instrGo ch

/-- MOVE (R400). -/
def execMove (ch : StairCh) (source : List Byte) (s : State) : Result :=
  s.onInstr ch.val fun s c i =>
    match i with
    | .move sb db soff doff len =>
      if c.loaded then s.instrGo ch.val
      else match c.access sb soff len, c.access db doff len with
        | .ok (x, a), .ok (y, b) =>
          if s.stairReadHeld c.ring x.space x.id a len then s
          else
            let got := (s.stairRead c.ring x.space x.id a len source).map (writesOf y.space y.id b)
            (if got.toBool then s.stairReads ch.val x.space x.id a len else s).instrLoad ch.val c got
        | .error st, _ => s.endChan ch.val st (pword c.pc)
        | _, .error st => s.endChan ch.val st (pword c.pc)
    | _ => s

/-- The rows of a MOVE2D, read before any is written (R400). -/
def State.rows (s : State) (c : Channel) (sb db soff doff line sstride dstride : Nat) (source : List Byte) :
    List Nat → Except Nat (List StairWrite)
  | [] => .ok []
  | i :: is =>
    match c.access sb (soff + i * sstride) line, c.access db (doff + i * dstride) line with
    | .ok (x, a), .ok (y, b) =>
      match s.stairRead c.ring x.space x.id a line ((source.drop (i * line)).take line) with
      | .error st => .error st
      | .ok bs => (State.rows s c sb db soff doff line sstride dstride source is).map fun rest =>
          writesOf y.space y.id b bs ++ rest
    | .error st, _ => .error st
    | _, .error st => .error st

/-- MOVE2D (R400, R401): a line shared by consecutive rows is written once. -/
def execMove2d (ch : StairCh) (source : List Byte) (s : State) : Result :=
  s.onInstr ch.val fun s c i =>
    match i with
    | .move2d sb db soff doff line count sstride dstride =>
      let held := fun (i : Nat) =>
        match c.access sb (soff + i * sstride) line with
        | .ok (x, a) => s.stairReadHeld c.ring x.space x.id a line
        | .error _ => false
      if c.loaded then s.instrGo ch.val
      else if (List.range count).any held then s
      else
        let got := (s.rows c sb db soff doff line sstride dstride source (List.range count)).map mergeWrites
        let one := fun (s : State) (i : Nat) =>
          match c.access sb (soff + i * sstride) line with
          | .ok (x, a) => s.stairReads ch.val x.space x.id a line
          | .error _ => s
        (if got.toBool then (List.range count).foldl one s else s).instrLoad ch.val c got
    | _ => s

/-- A pattern repeated, lowest byte first. -/
def patternBytes (pattern len : Nat) : List (Byte × Bool) :=
  (List.range len).map fun i => (BitVec.ofNat 8 (pattern / 2 ^ (8 * (i % 4))), false)

/-- FILL (R400). -/
def execFill (ch : StairCh) (s : State) : Result :=
  s.onInstr ch.val fun s c i =>
    match i with
    | .fill db doff len pattern =>
      if c.loaded then s.instrGo ch.val
      else s.instrLoad ch.val c
        ((c.access db doff len).map fun (y, b) => writesOf y.space y.id b (patternBytes pattern len))
    | _ => s

/-- Adds to a base's running address. -/
def stepBase (l : List StairBase) (b d : Nat) : List StairBase :=
  l.modify b fun x => { x with run := (x.run + d) % 2 ^ 64 }

/-- LOOP (R402): a loop that is active has its counter listed. -/
def execLoop (ch : StairCh) (s : State) : Result :=
  s.onInstr ch.val fun s c i =>
    match i with
    | .loop ctr target count bx by_ dx dy =>
      let left := (look c.loops ctr).getD count
      if left = 0 then
        (s.modChan ch.val fun c => { c with loops := del c.loops ctr }).advancePc ch.val
      else
        (s.modChan ch.val fun c => { c with
          loops := put c.loops ctr (left - 1), bases := stepBase (stepBase c.bases bx dx) by_ dy }).jump ch.val target
    | _ => s

/-! ### Waits and signals (R403, R404) -/

/-- The semaphore or event flag a WAIT waits on, as kind and index. -/
def Channel.waitsOn (c : Channel) : Option (Nat × Nat × Nat) :=
  match c.instr with
  | some (.wait kind index value _) => if kind = 0 || kind = 3 then some (kind, index, value) else none
  | _ => none

/-- What a WAIT asks for is there. -/
def State.waitMet (s : State) (requester : Nat) (x : Nat × Nat × Nat) : Bool :=
  if x.1 = 0 then (lookD s.rg.events requester 0).getLsbD x.2.1
  else x.2.2 ≤ lookD s.rg.sems (requester * 64 + x.2.1) 0

/-- A WAIT takes what it asked for: VALUE off a semaphore, or the event flag. -/
def State.takeWait (s : State) (requester : Nat) (x : Nat × Nat × Nat) : State :=
  if x.1 = 0 then
    let flags := lookD s.rg.events requester 0
    { s with rg := { s.rg with events := put s.rg.events requester (flags &&& ~~~(1#64 <<< x.2.1)) } }
  else
    let k := requester * 64 + x.2.1
    { s with rg := { s.rg with sems := put s.rg.sems k (lookD s.rg.sems k 0 - x.2.2) } }

/-- Serves the waiters of a requester in arrival order; one that must go on waiting holds those behind it on the same
semaphore or flag. -/
def State.serveWaiters (s : State) (requester : Nat) : State :=
  let one := fun (acc : State × List (Nat × Nat)) (ch : Nat) =>
    let (s, blocked) := acc
    match look s.rg.chans ch with
    | none => acc
    | some c =>
      match c.waitsOn with
      | none => acc
      | some x =>
        if c.ring / 64 != requester then acc
        else if blocked.contains (x.1, x.2.1) || !s.waitMet requester x then (s, (x.1, x.2.1) :: blocked)
        else
          let s := { s.takeWait requester x with
            rg := { (s.takeWait requester x).rg with waiters := s.rg.waiters.filter fun y => y != ch } }
          (s.advancePc ch, blocked)
  (s.rg.waiters.foldl one (s, [])).1

/-- Adds to a semaphore, saturating at 32 bits, and serves its waiters. -/
def State.semAdd (s : State) (requester index n : Nat) : State :=
  let k := requester * 64 + index
  ({ s with rg := { s.rg with sems := put s.rg.sems k (satAdd 32 (lookD s.rg.sems k 0) n) } } : State).serveWaiters
    requester

/-- Sets event flags, and serves their waiters. -/
def State.eventSet (s : State) (requester : Nat) (flags : BitVec 64) : State :=
  ({ s with rg := { s.rg with events := put s.rg.events requester (lookD s.rg.events requester 0 ||| flags) } } :
    State).serveWaiters requester

/-- SEM_ADD (R403). -/
def execSemAdd (requester page : Requester) (ring : RingNo) (value : Word) (s : State) : Result :=
  .next (s.doorbell requester.val page.val ring.val fun s k =>
    s.semAdd (k / 64) (value.toNat % 64) (value.toNat / 2 ^ 32))

/-- EVENT_SET (R403). -/
def execEventSet (requester page : Requester) (ring : RingNo) (flags : Word) (s : State) : Result :=
  .next (s.doorbell requester.val page.val ring.val fun s k => s.eventSet (k / 64) flags)

/-- WAIT (R403): met at once, or the channel waits in arrival order; a beat WAIT waits for its number. -/
def execWaitInstr (ch : StairCh) (s : State) : Result :=
  s.onInstr ch.val fun s c i =>
    match i with
    | .wait kind index value _ =>
      if kind = 0 || kind = 3 then
        if s.rg.waiters.contains ch.val then s
        else
          let same := fun (y : Nat) => match look s.rg.chans y with
            | some d => d.ring / 64 == c.ring / 64 &&
                (match d.waitsOn with | some x => x.1 == kind && x.2.1 == index | none => false)
            | none => false
          if s.waitMet (c.ring / 64) (kind, index, value) && !s.rg.waiters.any same then
            (s.takeWait (c.ring / 64) (kind, index, value)).advancePc ch.val
          else { s with rg := { s.rg with waiters := s.rg.waiters ++ [ch.val] } }
      else
        let b := c.waitBeat.getD (if kind = 1 then value else s.beat + value)
        if b ≤ s.beat then s.advancePc ch.val else s.modChan ch.val fun c => { c with waitBeat := some b }
    | _ => s

/-- BEAT_WAIT_END (R403). -/
def execBeatWaitEnd (ch : StairCh) (s : State) : Result :=
  s.onInstr ch.val fun s c _ =>
    match c.waitBeat with
    | some b => if b ≤ s.beat then s.advancePc ch.val else s
    | none => s

/-- WAIT_TIMEOUT (R403): a WAIT with a TIMEOUT that is still not met. -/
def execWaitTimeout (ch : StairCh) (s : State) : Result :=
  s.onInstr ch.val fun s c i =>
    match i with
    | .wait _ _ _ timeout =>
      if timeout != 0 && (c.waitBeat.isSome || s.rg.waiters.contains ch.val) then
        let s := { s with rg := { s.rg with waiters := s.rg.waiters.filter fun y => y != ch.val } }
        s.endChan ch.val 0x1A (pword c.pc)
      else s
    | _ => s

/-- SIGNAL (R404): a record, which waits for a slot like any other, the interrupt at once, a semaphore or an event. -/
def execSignal (ch : StairCh) (s : State) : Result :=
  s.onInstr ch.val fun s c i =>
    match i with
    | .signal kind index value =>
      let d := stairCmd c.cmd
      let k := c.ring
      if kind = 0 then
        if 8 ≤ (s.ctx k).waiting.length then s
        else
          let flags := 8 + (if d.unordered then 4 else 0) + (if d.irq then 256 else 0)
          (s.record k (d.tag, c.index.toNat % 2 ^ 16, 0, flags, pword value)).advancePc ch.val
      else if kind = 1 then (s.ringMessage k).advancePc ch.val
      else if kind = 2 then (s.semAdd (k / 64) index value).advancePc ch.val
      else (s.eventSet (k / 64) (1#64 <<< index)).advancePc ch.val
    | _ => s

/-- PERSIST (R405): every earlier write of the program has finished at its target. -/
def execPersist (ch : StairCh) (s : State) : Result :=
  s.onInstr ch.val fun s _ i => match i with | .persist => s.advancePc ch.val | _ => s

/-! ### Interruptions (R385, R406, R408) -/

/-- The status of the access a command waits for, when it is one that can time out: a read of memory or of a peer, or a
UIO write. -/
def Channel.timeoutStatus (c : Channel) : Option Nat :=
  let d := stairCmd c.cmd
  let read := fun (space : Nat) => if space = 1 then some 0x17 else if space = 2 then some 0x18 else none
  let base := fun (b : Nat) => match c.bases[b]? with | some x => read x.space | none => none
  match c.todo with
  | w :: _ => if w.space = 2 then some 0x18 else none
  | [] =>
    match d.op, c.instr with
    | 1, _ => read d.sspace
    | 9, _ => some 0x18
    | 11, none => read d.sspace
    | 11, some (.move sb _ _ _ _) => base sb
    | 11, some (.move2d sb _ _ _ _ _ _ _) => base sb
    | _, _ => none

/-- LINE_REQUEST_TIMEOUT (R385). -/
def execLineRequestTimeout (ch : StairCh) (s : State) : Result :=
  match look s.rg.chans ch.val with
  | none => .next s
  | some c =>
    if c.done then .next s
    else match c.timeoutStatus with
      | some st => .next ((s.roundFailed c.ring).endChan ch.val st (if c.program.isEmpty then c.result else pword c.pc))
      | none => .next s

/-- PAUSE: the channel is held, or goes on where it stopped (R408). -/
def execPause (ch : StairCh) (on : Bool) (s : State) : Result :=
  if !s.pw.dev.hallOn || !s.wingReached (ch.val / 32) then .next s else .next (s.setFlag .STR_CTRL_PAUSE ch.val on)

/-- ABORT: the command ends with ABORTED (R408). -/
def execAbort (ch : StairCh) (s : State) : Result :=
  match look s.rg.chans ch.val with
  | none => .next s
  | some c =>
    if c.done || !s.pw.dev.hallOn then .next s
    else
      let s := { s with rg := { s.rg with waiters := s.rg.waiters.filter fun y => y != ch.val } }
      .next (s.endChan ch.val 0x1B (if c.program.isEmpty then c.result else pword c.pc))

end Sys2Proof.Machine
end

