-- ==== Sys2Proof/Machine/Attic.lean ====
section
/-! DEFINITION. Reading and clearing the Attic (R498, R499, R502 to R504, R507), and the clear token (R426). -/

namespace Sys2Proof.Machine

/-! ### Slots (R498, R503) -/

/-- A record's slot as 128 words: header, body, zeros (R498). -/
def AtticSlot.words (x : AtticSlot) : List Word :=
  let r := x.record
  let flags := r.severity % 4 + (if r.forced then 4 else 0) + (if x.kept then 8 else 0)
  let head := x.seq % 2 ^ 32 + 2 ^ 32 * (r.bytes % 2 ^ 16) + 2 ^ 48 * flags + 2 ^ 56 * (r.type % 256)
  let tail := r.beat % 2 ^ 48 + 2 ^ 48 * (r.source % 2 ^ 16)
  let l := pword head :: pword tail :: r.body
  (l ++ List.replicate (128 - l.length) 0).take 128

/-- The words of a slot as it stands: zero when it reads as empty (R502, R504). -/
def State.slotWords (s : State) (p i : Nat) : List Word :=
  match (s.atticPart p).held i with
  | some x => if (s.deadSlots p).contains i then List.replicate 128 0 else x.words
  | none => List.replicate 128 0

/-- A partition with the records still in the buffer included (R503). -/
def State.withBuffered (s : State) (p : Nat) : State :=
  (s.at_.buffer.filter fun r => r.part == p).foldl State.flushOne s

/-- ATTIC_READ: up to 16 slots of one partition (R503). -/
def execAtticRead (from_ : Sender) (part : Fin 11) (slot : Nat) (count : Nat) (s : State) : Result :=
  .next (s.mailRead from_ 0xC050 fun s =>
    let seen := s.withBuffered part.val
    let n := min (min count 16) (s.partSlots part.val - slot)
    (List.range n).flatMap fun i => seen.slotWords part.val (slot + i))

/-! ### Clearing (R426, R504) -/

/-- A clear token holds: it names this device, its latest nonce and the highest term, and the manager of the present
session signed it (R426). -/
def State.tokenOk (s : State) (nonce : BitVec 128) (member term : Nat) (signatureOk : Bool) : Bool :=
  signatureOk && s.pl.nonce == some nonce && member == s.index && term == s.term

/-- The clear of a partition (R504). -/
def State.clearPart (s : State) (p : Nat) : State :=
  let s := s.withBuffered p
  let s := { s with at_ := { s.at_ with buffer := s.at_.buffer.filter fun r => r.part != p } }
  let a := s.atticPart p
  let a := { a with base := a.counter, since := if 9 ≤ p then 0 else a.since }
  let s := ({ s with at_ := { s.at_ with parts := put s.at_.parts p a } } : State).satReg .ATC_PART_CLEARS p 1
  (s.atticNote 9 1 0x04 [pword p, pword s.term, pword s.pl.manager]).emit srcAtticClear

/-- A clear token arrives: the partition is cleared, or the refusal is recorded, under a TYPE the spec does not give
(R426, R504). -/
def State.useToken (s : State) (p : Nat) (nonce : BitVec 128) (member term : Nat) (signatureOk : Bool) :
    State × Bool :=
  if s.tokenOk nonce member term signatureOk then
    (({ s with pl := { s.pl with nonce := none } } : State).clearPart p, true)
  else
    let (f, s) := s.free
    (s.atticNote 9 1 (0x10 + f.toNat % 0x70) [pword p], false)

/-- ATTIC_CLEAR by mailbox (R504). -/
def execAtticClear (from_ : Sender) (part : Fin 11) (nonce : BitVec 128) (member : Nat) (term : Word)
    (signatureOk : Bool) (s : State) : Result :=
  .next (s.mailbox from_ 0xC051 fun s =>
    let (s, ok) := s.useToken part.val nonce member term.toNat signatureOk
    (s, if ok then .success else .invalidInput, []))

/-- The word of ATC_WIN: bytes 8i to 8i + 7 of the selected slot (R507). -/
def State.atcWord (s : State) (i : Nat) : Word :=
  (s.slotWords (s.reg .ATC_SEL_PART 0) (s.reg .ATC_SEL_SLOT 0)).getD i 0

end Sys2Proof.Machine
end

