-- ==== Sys2Proof/Machine/Measure.lean ====
section
/-! DEFINITION. Counters, freeze, snapshots, overflow, the sampling buffer and the BIST commands (R522 to R537). -/

namespace Sys2Proof.Machine

/-! ### Which counters count (R523) -/

/-- Counters in the lists of the Hall's ranges: first index and length. -/
def hallCounters : List (Nat × Nat) :=
  [(0, 14), (128, 10), (160, 6), (192, 5), (256, 4), (320, 4), (352, 3), (384, 5), (448, 4)]

/-- Counters in the lists of a wing's ranges: first index, end, stride and length. -/
def wingCounters : List (Nat × Nat × Nat × Nat) :=
  [(0, 256, 64, 12), (256, 320, 64, 7), (320, 384, 64, 7), (384, 448, 64, 5), (448, 480, 32, 4), (480, 608, 4, 4),
   (608, 672, 8, 3), (672, 704, 32, 4), (704, 736, 32, 5), (736, 768, 32, 3)]

/-- A counter is in its range's list; one beyond it reads zero and never counts. -/
def counterListed (c : Nat) : Bool :=
  if c < 512 then hallCounters.any fun r => r.1 ≤ c && c < r.1 + r.2
  else
    let j := (c - 512) % 768
    wingCounters.any fun r => r.1 ≤ j && j < r.2.1 && (j - r.1) % r.2.2.1 < r.2.2.2

/-! ### Freeze and snapshots (R252, R427, R526, R527) -/

/-- Slots whose request is still in flight (R528). -/
def State.inFlight (s : State) : Nat := s.hp.ingress.length + s.hp.pend.length

/-- Every counter and room counter is copied to the shadow bank (R527, R528). -/
def State.snapshot (s : State) (late skipped : Bool) : State :=
  let s := { s with me := { s.me with live := put s.me.live 137 s.inFlight } }
  let s := { s with me := { s.me with shadow := s.me.live, roomShadow := s.me.rooms, snapshotTaken := true } }
  let s := (s.setFlag .PMC_SNAP_STATUS_LATE 0 late).setFlag .PMC_SNAP_STATUS_SKIPPED 0 skipped
  let s := s.setReg .PMC_SNAP_STATUS_BEAT 0 s.beat
  if s.flag .PMC_CTRL_FREEZE_AT_SNAP 0 then s.setFlag .PMC_CTRL_FREEZE 0 true else s

/-- What is armed, with its level. -/
def State.setArmed (s : State) (b : Option Nat) : State :=
  ({ s with me := { s.me with armed := b } } : State).setFlag .PMC_SNAP_STATUS_ARMED 0 b.isSome

/-- Arms a snapshot at a beat in place of the one armed; a beat already past fires at once, flagged LATE, but in FROZEN
it waits (R252, R527). -/
def State.armAt (s : State) (b : Nat) : State :=
  if b < s.beat && s.timeState != 3 then (s.setArmed none).snapshot true false else s.setArmed (some b)

/-- COUNTER_SNAPSHOT: BEAT has reached the armed beat, or passed it by a step (R252, R527). -/
def execCounterSnapshot (s : State) : Result :=
  match s.me.armed with
  | some b =>
    if !s.pw.dev.hallOn || s.timeState == 3 || s.beat < b then .next s
    else .next ((s.setArmed none).snapshot false (b != s.beat))
  | none => .next s

/-- FREEZE (R526). -/
def execPmcFreeze (on : Bool) (s : State) : Result :=
  .next (if s.pw.dev.hallOn then s.setFlag .PMC_CTRL_FREEZE 0 on else s)

/-- SNAP_NOW (R527). -/
def execSnapNow (s : State) : Result := .next (if s.pw.dev.hallOn then s.snapshot false false else s)

/-- ARM: at SNAP_BEAT (R527). -/
def execArm (s : State) : Result := .next (if s.pw.dev.hallOn then s.armAt (s.reg .PMC_SNAP_BEAT 0) else s)

/-- DISARM. -/
def execDisarm (s : State) : Result := .next (if s.pw.dev.hallOn then s.setArmed none else s)

/-! ### The counter window and wraps (R524, R525, R536) -/

/-- The index of a block's PMC_SEL, and the counter that word `i` of its window shows; the Hall has banks 0 to 3, a wing
0 to 5. -/
def State.windowCounter (s : State) (block : Option Wing) (i : Nat) : Option Nat :=
  match block with
  | none => let j := 128 * s.reg .PMC_SEL_BANK 0 + i; if j < 512 then some j else none
  | some w => let j := 128 * s.reg .PMC_SEL_BANK (1 + w.val) + i; if j < 768 then some (512 + 768 * w.val + j) else none

/-- A block's window shows the shadow bank. -/
def State.windowShadow (s : State) (block : Option Wing) : Bool :=
  s.flag .PMC_SEL_SHADOW (match block with | none => 0 | some w => 1 + w.val)

/-- Presets a live counter and clears its OVF bit (R524, R525). -/
def State.preset (s : State) (c v : Nat) : State :=
  let (i, k) := ovfBit c
  let o := s.reg .PMC_OVF i
  ({ s with me := { s.me with live := put s.me.live c (v % 2 ^ 48) } } : State).setReg .PMC_OVF i
    (if o.testBit k then o - 2 ^ k else o)

/-- PMC_WIN: a write sets the live counter shown; the shadow bank is read-only (R524, R536). -/
def execPmcWin (block : Option Wing) (i : Fin 128) (value : BitVec 48) (s : State) : Result :=
  if !s.pw.dev.hallOn || s.windowShadow block then .next s
  else match s.windowCounter block i.val with
    | some c => .next (if counterListed c then s.preset c value.toNat else s)
    | none => .next s

/-- COUNTER_WRAP: a counter wraps to 0 (R522, R525, R526). -/
def execCounterWrap (counter : Fin 6656) (s : State) : Result :=
  if !s.pw.dev.hallOn || s.flag .PMC_CTRL_FREEZE 0 || !counterListed counter.val then .next s
  else
    .next (({ s with me := { s.me with live := put s.me.live counter.val 0 } } : State).wrapped counter.val)

/-- PMC_SMP_PTR: NEXT is set, the buffer is emptied from there, and FULL clears (R531, R537). -/
def State.setSamplePtr (s : State) (w next : Nat) : State :=
  let s := { s with me := { s.me with
    samples := s.me.samples.filter fun x => !(x.1 / 2 ^ 20 == w && next ≤ x.1 % 2 ^ 20) } }
  (s.setReg .PMC_SMP_PTR_NEXT w next).setFlag .PMC_SMP_PTR_FULL w false

/-- PMC_SMP_PTR. -/
def execPmcSmpPtr (w : Wing) (next : BitVec 20) (s : State) : Result :=
  .next (if s.pw.dev.hallOn then s.setSamplePtr w.val next.toNat else s)

/-! ### BIST by command (R458, R533, R534, R538) -/

/-- The cause a BIST command is refused with; 0 when it runs. The Hall is tested by BOOT alone. -/
def State.bistRefusal (s : State) (t : Nat) : Nat :=
  if t = 8 then 2
  else if !s.wings.contains t then 4
  else if s.me.running.any (fun r => r.1 == t) then 3
  else if s.svc t != 2 then 1
  else 0

/-- A run starts on a FENCED wing with its domains switched on; LBIST makes it TESTING. -/
def State.bistStart (s : State) (t kind : Nat) : State :=
  if 9 ≤ t || !s.pw.dev.hallOn then s
  else
    let cause := s.bistRefusal t
    let s := s.setReg .BST_STATUS_REFUSE t cause
    if cause = 3 then s
    else if cause != 0 then s.setReg .BST_STATUS_STATE t 4
    else
      let s := (s.fenceGroups t).foldl (fun (s : State) g => s.switchGroup g true) s
      let s := { s with me := { s.me with running := s.me.running ++ [(t, kind, false)] } }
      let s := (s.setReg .BST_STATUS_STATE t 1).setReg .BST_STATUS_KIND t kind
      if kind = 1 then s else s.setReg .HALL_SVC_STATE t 3

/-- LBIST. -/
def execLbist (target : Fin 16) (s : State) : Result := .next (s.bistStart target.val 0)

/-- MBIST. -/
def execMbist (target : Fin 16) (s : State) : Result := .next (s.bistStart target.val 1)

/-- LBIST_AND_MBIST. -/
def execLbistAndMbist (target : Fin 16) (s : State) : Result := .next (s.bistStart target.val 2)

/-- What follows a run: a re-admission goes on or fails, one that waited begins, or the wing's domains go off. -/
def State.bistOver (s : State) (w : Nat) (ret ok : Bool) : State :=
  let drop := fun (s : State) => { s with br := { s.br with readmit := s.br.readmit.filter fun x => x != w } }
  let off := fun (s : State) => (s.fenceGroups w).foldl (fun (s : State) g => s.switchGroup g false) s
  let s := s.setReg .HALL_SVC_STATE w 2
  let wanted := s.br.readmit.contains w
  if ret && wanted then
    if ok then s.trainNext w else off (drop (s.setSvc w 2 3))
  else if wanted then
    (drop s).bringBack w (match s.plan with | some p => p.service.flags % 2 == 1 | none => false)
  else off s

/-- BIST_DONE (R533): the signatures are compared with the BIST section. -/
def execBistDone (target : Fin 9) (lbistMisr mbistMisr : Word) (s : State) : Result :=
  let t := target.val
  match s.me.running.find? fun r => r.1 == t, s.plan with
  | some (_, kind, ret), some p =>
    let s := { s with me := { s.me with running := s.me.running.filter fun r => r.1 != t } }
    let (s, ok) := s.bistResult t (kind != 1) (kind != 0) (lbistMisr, mbistMisr)
      (p.bist.wingLbist.getD t 0, p.bist.wingMbist.getD t 0)
    .next (s.bistOver t ret ok)
  | _, _ => .next s

end Sys2Proof.Machine
end

