-- ==== Sys2Proof/Machine/Landing.lean ====
section
/-! DEFINITION. The pool manager and its members: the pool directory and quotas, delivery of amendments, heartbeats,
takeover, the mirror, clear tokens, snapshots, migrations and evacuation (R24, R411 to R436). -/

namespace Sys2Proof.Machine

/-! ### The pool directory and quotas (R424) -/

/-- The directory's record of a room on a device. -/
def State.dirRoom (s : State) (device room : Nat) : Option DirRoom :=
  s.pl.directory.find? fun d => d.device == device && d.room == room

/-- A directory entry of a room of a plan. -/
def dirEntryOf (device : Nat) (c : RoomCfg) (step target : Nat) : DirRoom where
  device := device
  room := c.room
  size := c.size
  cls := c.cls
  step := step
  target := target
  acl := c.acl

/-- The rooms of the pool: those the directory records of other devices, and the manager's own. -/
def State.poolRooms (s : State) : List DirRoom :=
  let own := match s.plan with | some p => p.rooms | none => []
  (s.pl.directory.filter fun d => d.device != s.index) ++ own.map fun c =>
    match s.dirRoom s.index c.room with
    | some d => dirEntryOf s.index c d.step d.target
    | none => dirEntryOf s.index c 0 0

/-- The rooms of the pool with one entry of an amendment to a device applied. -/
def dirApply (device : Nat) (l : List DirRoom) (c : RoomCfg) : List DirRoom :=
  let same := fun (d : DirRoom) => d.device == device && d.room == c.room
  let (step, target) := match l.find? same with | some d => (d.step, d.target) | none => (0, 0)
  let rest := l.filter fun d => !same d
  if c.action == 3 then rest else rest ++ [dirEntryOf device c step target]

/-- Some requester's quota is exceeded (R424). -/
def State.overQuota (s : State) (l : List DirRoom) : Bool :=
  s.pl.quotas.any fun q => q.2 < ((l.filter fun d => d.acl.contains q.1).map DirRoom.size).sum

/-- The MIRROR body of a directory entry. -/
def DirRoom.words (d : DirRoom) : List Word :=
  [1, pword d.device, pword d.room, pword d.size, pword d.cls, pword d.step, pword d.target] ++ d.acl.map pword

/-- A directory record as a room entry. -/
def dirCfg (d : DirRoom) : RoomCfg :=
  { room := d.room, cls := d.cls, attr := 0, tier := 0, action := 0, keySlot := 0, base := 0, size := d.size,
    weight := 0, credits := 0, acl := d.acl, region := 0 }

/-- Puts a directory entry, and mirrors it. -/
def State.putDir (s : State) (d : DirRoom) : State :=
  let rest := s.pl.directory.filter fun x => !(x.device == d.device && x.room == d.room)
  ({ s with pl := { s.pl with directory := rest ++ [d] } } : State).mirrorChange d.words

/-- The migration step of a room in the directory (R429). -/
def State.setDirStep (s : State) (d : DirRoom) (step target : Nat) : State :=
  s.putDir { d with step := step, target := target }

/-- The directory after an amendment a device has committed. -/
def State.recordRooms (s : State) (device : Nat) (rooms : List RoomCfg) : State :=
  rooms.foldl
    (fun (s : State) (c : RoomCfg) =>
      let l := dirApply device s.pl.directory c
      let s := { s with pl := { s.pl with directory := l } }
      match s.dirRoom device c.room with
      | some d => s.mirrorChange d.words
      | none => s.mirrorChange [2, pword device, pword c.room])
    s

/-- The room entries of an amendment. -/
def roomsIn (part : Part) (b : List Byte) : List RoomCfg :=
  match formOf part b true with
  | .ok (_, secs) => (inTypeOrder secs).flatMap fun x =>
      if x.type == 4 then (match roomsOf x.body true with | .ok l => l | .error _ => []) else []
  | .error _ => []

/-! ### Reaching members -/

/-- A member is reachable: fewer than three of its heartbeats are missing in a row, and its session stands. -/
def State.reaches (s : State) (peer : Nat) : Bool := s.pl.sessions.contains peer && s.missedOf peer < 3

/-- Bytes as body words, after the chunk's offset (R414, R416). -/
def chunkBody (offset : Nat) (b : List Byte) : List Word :=
  pword offset :: (List.range ((b.length + 7) / 8)).map fun i => pword (ofBytes ((b.drop (8 * i)).take 8))

/-- Sends an amendment in chunks of up to 4,060 bytes (R414, R416). -/
def State.sendAmendment (s : State) (peer : Nat) (b : List Byte) (rooms : List RoomCfg) (asker : Option Sender) : State :=
  let n := max 1 ((b.length + 4059) / 4060)
  (List.range n).foldl
    (fun (s : State) (i : Nat) =>
      let last := i + 1 == n
      s.landingRequest peer 0x03 last (chunkBody (4060 * i) ((b.drop (4060 * i)).take 4060))
        (if last then asker else none) (if last then rooms else []))
    s

/-- A MIGRATE message: BEGIN, CUTOVER or the close that follows the last holder, as the model spells them. -/
def State.sendMigrate (s : State) (peer kind room source target : Nat) : State :=
  s.landingSend peer 0x09 [pword kind, pword room, pword source, pword target]

/-! ### The two ends of a migration (R429 to R433) -/

/-- The target prepares: it holds back the offers of the room to come. -/
def State.beginTarget (s : State) (room source : Nat) : State :=
  if s.pl.mig.isSome then s
  else s.setMig (some { room := room, source := false, peer := source, step := 1, rounds := 0, failed := false })

/-- The source posts its first round. -/
def State.beginSource (s : State) (room target : Nat) : State :=
  match s.room room with
  | some r =>
    if s.pl.mig.isSome || r.state != .serving then s
    else
      (s.setMig (some { room := room, source := true, peer := target, step := 2, rounds := 0, failed := false })).postOut
        room target 1
  | none => s

/-- The source forwards from now on: it asks every holder for release and leaves FROZEN (R431, R433). -/
def State.startForwarding (s : State) (room target : Nat) : State :=
  let held := s.extentsIn room
  let n := match s.pl.mig with | some m => m.rounds | none => 0
  let s := s.modRoom room fun r => { r with state := .serving, forwarding := true }
  let s := s.setMig (some { room := room, source := true, peer := target, step := 4, rounds := n, failed := false })
  (held.foldl (fun (s : State) e => s.send (.releaseCapacity e)) s).settle

/-- The target makes the offers it held (R431). -/
def State.makeHeld (s : State) (room : Nat) : State :=
  let mine := s.hp.heldOffers.filter fun e => e.room == room
  let s := { s with hp := { s.hp with heldOffers := s.hp.heldOffers.filter fun e => e.room != room } }
  mine.foldl State.offer s

/-- CUTOVER on the target. -/
def State.targetCutover (s : State) (room : Nat) : State :=
  match s.pl.mig with
  | some m => if m.room == room && !m.source then (s.setMig (some { m with step := 4 })).makeHeld room else s
  | none => s

/-- The target closes the range, and the migration is over (R433). -/
def State.targetClose (s : State) (room : Nat) : State :=
  match s.pl.mig with
  | some m => if m.room == room && !m.source then (s.setMig none).postIn room m.peer true else s
  | none => s

/-! ### Orchestration by the manager (R429, R432 to R436) -/

/-- Delivers an amendment to a member, or handles it here: the result at once, or none while AMD_RESULT is awaited. -/
def State.handIn (s : State) (member : Nat) (b : List Byte) (rooms : List RoomCfg) (asker : Option Sender) :
    State × Option (Nat × Nat) :=
  if member = s.index then let (s, cause, seq) := s.amend b; (s, some (cause, seq))
  else (s.sendAmendment member b rooms asker, none)

/-- An amendment of the manager's own, whose bytes the spec does not give. -/
def State.ownAmendment (s : State) : List Byte × State := (Config.poolAmendment s.fresh, { s with fresh := s.fresh + 1 })

/-- A migration before CUTOVER fails: the target room is removed, tracking ends on the source, and an event is raised
(R432, R434, R435). -/
def State.failMigration (s : State) (d : DirRoom) : State :=
  let s := (s.setDirStep d 0 0).emit srcMigrationFailed
  let s := if d.device = s.index then s.endMigration d.room else s
  let removal := { (dirCfg d) with action := 3 }
  let (b, s) := s.ownAmendment
  if d.target = s.index then
    match s.handIn d.target b [removal] none with
    | (s, some (0, _)) => s.recordRooms d.target [removal]
    | (s, _) => s.endMigration d.room
  else (s.handIn d.target b [removal] none).1

/-- The target's add succeeded: its decoder for the source is set, and the source begins (R429 steps 2 and 3). -/
def State.targetReady (s : State) (d : DirRoom) : State :=
  let s := s.setDirStep d 2 d.target
  let s := if d.target = s.index then s
    else s.landingSend d.target 0x0B [pword 0xC010, pword (Config.peerId d.device), pword d.room]
  if d.device = s.index then s.beginSource d.room d.target else s.sendMigrate d.device 1 d.room d.device d.target

/-- The source room is gone: the directory knows the room on its target alone, and the target closes its range. -/
def State.sourceGone (s : State) (d : DirRoom) : State :=
  if d.target = s.index then s.targetClose d.room else s.sendMigrate d.target 3 d.room d.device d.target

/-- What the result of an amendment does to the migrations it was for. -/
def State.migrationResult (s : State) (member : Nat) (rooms : List RoomCfg) (ok : Bool) : State :=
  rooms.foldl
    (fun (s : State) (c : RoomCfg) =>
      let adds := s.pl.directory.filter fun d => d.room == c.room && d.target == member && d.step == 1 && c.action != 3
      let gone := s.pl.directory.filter fun d =>
        d.room == c.room && d.device == member && d.step == 4 && c.action == 3 && ok
      let s := adds.foldl (fun (s : State) d => if ok then s.targetReady d else s.failMigration d) s
      gone.foldl State.sourceGone s)
    s

/-- The result of an amendment that was delivered, or handled here (R416, R424, R429). -/
def State.amendmentDone (s : State) (member : Nat) (rooms : List RoomCfg) (ok : Bool) : State :=
  let s := s.migrationResult member rooms ok
  if ok then s.recordRooms member rooms else s

/-- Starts the migration of a room (R429 step 1). -/
def State.startMigration (s : State) (d : DirRoom) (target : Nat) : State :=
  let s := s.setDirStep d 1 target
  let d := { d with step := 1, target := target }
  let s := if target = s.index then s.beginTarget d.room d.device else s.sendMigrate target 1 d.room d.device target
  let add := { (dirCfg d) with action := 1 }
  let (b, s) := s.ownAmendment
  match s.handIn target b [add] none with
  | (s, some (cause, _)) => s.amendmentDone target [add] (cause == 0)
  | (s, none) => s

/-- Spare left of a member: from its last heartbeat, or the manager's own. -/
def State.memberSpare (s : State) (m : Nat) : Nat :=
  if m = s.index then s.sparePool else ((lookD s.pl.members m []).getD 4 0).toNat

/-- The next migration of an evacuation: the largest room, to the reachable member with most spare left (R436). -/
def State.evacuateNext (s : State) : State :=
  match s.pl.evacuating with
  | none => s
  | some m =>
    let rooms := s.poolRooms.filter fun d => d.device == m
    if rooms.any fun d => d.step != 0 then s
    else
      let ended := fun (s : State) => ({ s with pl := { s.pl with evacuating := none } } : State).setFlag
        .LND_STATE_EVACUATING 0 false
      let big := leastBy (fun (d : DirRoom) => 2 ^ 64 - d.size) rooms
      match big with
      | none => ended s
      | some d =>
        let targets := (s.index :: s.memberList.filter s.reaches).filter fun t =>
          t != m && (s.poolRooms.all fun x => !(x.device == t && x.room == d.room))
        match leastBy (fun (t : Nat) => 2 ^ 64 - s.memberSpare t) targets with
        | some t => s.startMigration d t
        | none => s

/-- Evacuation of a member starts (R436). -/
def State.evacuate (s : State) (m : Nat) : State :=
  let s := ({ s with pl := { s.pl with evacuating := some m } } : State).setFlag .LND_STATE_EVACUATING 0 true
  (s.emit srcEvacuation).evacuateNext

/-! ### Pool commands (R428) -/

/-- A pool command: the manager runs it, any other member answers Unsupported. A command answered later gives none. -/
def State.poolCommand (s : State) (f : Sender) (opcode : Nat)
    (run : State → State × Option (RetCode × List Word)) : State :=
  if !s.pw.dev.hallOn then s
  else if !f.landing && !s.isManagement (s.requesterOf f.requester.val) then
    s.barRefused (s.requesterOf f.requester.val) 0x0B010000
  else if !s.isManager then s.mailAnswer f opcode .unsupported []
  else match run s with
    | (s, some (code, payload)) => s.mailAnswer f opcode code payload
    | (s, none) => s

/-- POOL_STATUS: term, the indices of manager and standby, the member count and MIRROR_STALE. -/
def execPoolStatus (from_ : Sender) (s : State) : Result :=
  .next (s.poolCommand from_ 0xC040 fun s =>
    (s, some (.success, [pword s.term, pword s.pl.manager, pword s.pl.standby, pword (s.memberList.length + 1),
      pword (s.reg .LND_STATE_MIRROR_STALE 0)])))

/-- A member's 64-byte health entry, in a packing of the model's own: the index, UNREACHABLE, and the words of its last
heartbeat. -/
def State.healthEntry (s : State) (m : Nat) : List Word :=
  let l := lookD s.pl.members m []
  let v := fun i => (l.getD i 0).toNat
  let head := m + (if 3 ≤ s.missedOf m then 2 ^ 15 else 0) + 2 ^ 16 * (v 0 % 2 ^ 12) + 2 ^ 32 * (v 1 % 4)
  [pword head, pword (v 2), pword (v 3), pword (v 4 % 2 ^ 32 + 2 ^ 32 * (v 5 % 2 ^ 32)),
   pword (v 6 % 2 ^ 32 + 2 ^ 32 * (v 7 % 2 ^ 32)), pword (v 8 % 2 ^ 16 + 2 ^ 16 * (v 9 % 2 ^ 16)), pword (v 10), pword (v 11)]

/-- POOL_HEALTH: one entry for each member, from its last heartbeat. -/
def execPoolHealth (from_ : Sender) (s : State) : Result :=
  .next (s.poolCommand from_ 0xC041 fun s => (s, some (.success, s.memberList.flatMap s.healthEntry)))

/-- DELIVER_AMENDMENT: refused for a quota, or for a room add on a member being evacuated; else sent, or handled here
(R424, R428, R436). -/
def execDeliverAmendment (from_ : Sender) (member : Nat) (bytes : List Byte) (s : State) : Result :=
  .next (s.poolCommand from_ 0xC042 fun s =>
    let rooms := roomsIn s.part bytes
    let after := rooms.foldl (dirApply member) s.poolRooms
    if s.overQuota after then (s, some (.success, [pword quotaCause, 0]))
    else if s.pl.evacuating == some member && rooms.any fun c => c.action == 1 then
      (s, some (.success, [pword liveConflict, 0]))
    else match s.handIn member bytes rooms (some from_) with
      | (s, some (cause, seq)) =>
        (s.amendmentDone member rooms (cause == 0), some (.success, [pword cause, pword seq]))
      | (s, none) => (s, none))

/-- SET_QUOTA. -/
def execSetQuota (from_ : Sender) (requester : Requester) (bytes : Nat) (s : State) : Result :=
  .next (s.poolCommand from_ 0xC043 fun s =>
    let s := { s with pl := { s.pl with quotas := put s.pl.quotas requester.val bytes } }
    (s.mirrorChange [0, pword requester.val, pword bytes], some (.success, [])))

/-- MIGRATE_ROOM: the room is on the source, in no migration, and the target can be reached and has no room of its
number. -/
def execMigrateRoom (from_ : Sender) (room : RoomNo) (source target : Nat) (s : State) : Result :=
  .next (s.poolCommand from_ 0xC044 fun s =>
    let taken := s.poolRooms.any fun d => d.device == target && d.room == room.val
    match s.poolRooms.find? fun d => d.device == source && d.room == room.val with
    | some d =>
      if d.step != 0 || taken || source == target || !(target == s.index || s.reaches target) then
        (s, some (.invalidInput, []))
      else (s.startMigration d target, some (.success, []))
    | none => (s, some (.invalidInput, [])))

/-- EVACUATE: an unreachable member cannot be evacuated (R436). -/
def execEvacuate (from_ : Sender) (member : Nat) (s : State) : Result :=
  .next (s.poolCommand from_ 0xC045 fun s =>
    if member == s.index || s.reaches member then (s.evacuate member, some (.success, []))
    else (s, some (.invalidInput, [])))

/-- POOL_SNAPSHOT: SNAPSHOT goes to every member, and the manager arms its own; the beat lies at least 256 beats ahead
(R427). -/
def execPoolSnapshot (from_ : Sender) (beat : Word) (s : State) : Result :=
  .next (s.poolCommand from_ 0xC046 fun s =>
    if beat.toNat < s.beat + 256 then (s, some (.invalidInput, []))
    else
      let s := s.memberList.foldl (fun (s : State) m => s.landingSend m 0x08 [beat]) s
      (s.armAt beat.toNat, some (.success, [])))

/-- AMD_RESULT: the result of an amendment this manager delivered (R416, R428). -/
def execAmdResult (h : Hdr) (cause : Byte) (amdSeq : Word) (s : State) : Result :=
  match s.landingReply h 0x03 with
  | (s, none) => .next s
  | (s, some o) =>
    let s := { s with pl := { s.pl with
      outstanding := s.pl.outstanding.filter fun x => !(x.peer == o.peer && x.type == 0x03 && !x.last) } }
    let s := s.amendmentDone o.peer o.rooms (cause == 0)
    let s := match o.asker with
      | some f => s.mailAnswer f 0xC042 .success [cause.setWidth 64, amdSeq]
      | none => s
    .next s.evacuateNext

/-! ### The mirror (R421, R423) -/

/-- The whole of the manager's state goes to the standby, ended by the message that completes it. -/
def State.fullMirror (s : State) : State :=
  let to_ := s.pl.standby
  if 4096 ≤ to_ then s
  else
    let s := s.pl.quotas.foldl (fun (s : State) (q : Nat × Nat) => s.landingSend to_ 0x0C [0, pword q.1, pword q.2]) s
    let s := s.pl.directory.foldl (fun (s : State) (d : DirRoom) => s.landingSend to_ 0x0C d.words) s
    let s := s.pl.escrow.foldl
      (fun (s : State) (x : Nat × EscrowRecord) =>
        s.landingSend to_ 0x0C ([3, pword x.1, pword x.2.origin, pword x.2.floor, pword x.2.high] ++
          (List.range 5).map fun i => wordAt x.2.wrapped i))
      s
    let s := s.memberList.foldl (fun (s : State) m => s.landingSend to_ 0x0C [4, pword m]) s
    ((s.landingSend to_ 0x0C [5]).setFlag .LND_STATE_MIRROR_STALE 0 false).level srcMirrorStale false

/-- A delta applied on the standby. -/
def State.applyDeltaOf (s : State) (d : Delta) : State :=
  match d with
  | .quota r n => { s with pl := { s.pl with quotas := put s.pl.quotas r.val n } }
  | .room device room size cls step target acl =>
    let d : DirRoom := { device := device, room := room, size := size, cls := cls, step := step, target := target, acl := acl }
    { s with pl := { s.pl with
      directory := (s.pl.directory.filter fun x => !(x.device == device && x.room == room)) ++ [d] } }
  | .roomGone device room =>
    { s with pl := { s.pl with directory := s.pl.directory.filter fun x => !(x.device == device && x.room == room) } }
  | .escrow slot r => { s with pl := { s.pl with escrow := put s.pl.escrow (slot * 4096 + r.origin) r } }
  | .member i => { s with pl := { s.pl with members := put s.pl.members i (lookD s.pl.members i []) } }
  | .full => { s with pl := { s.pl with mirrored := true } }

/-- MIRROR: the standby applies a delta and confirms it (R423); for any other role the message is not valid. -/
def execMirrorMsg (h : Hdr) (delta : Delta) (s : State) : Result :=
  .next (s.landingIn h 0x0C fun s => s.managerOnly h fun s =>
    if s.role = 1 then (s.applyDeltaOf delta, 0, []) else (s, 5, []))

/-! ### Takeover and terms (R411, R418 to R422, R435) -/

/-- The standby takes over: the pool record first, then INDEX 0 and the manager functions, then TAKEOVER to every
member; migrations before CUTOVER fail (R411, R419, R435). -/
def State.takeOver (s : State) : State :=
  let s := (s.setReg .LND_TERM 0 (s.term + 1)).setReg .LND_STATE_ROLE 0 0
  let s := s.setReg .LND_STATE_INDEX 0 0
  let s := { s with pl := { s.pl with
    manager := 0, standby := 0xFFFF, missed := del s.pl.missed 0, lastHeard := del s.pl.lastHeard 0 } }
  let s := s.putPoolRecord
  let s := State.finishPages s.cb.queue.length s
  let s := s.emit srcTakeover
  let s := s.memberList.foldl (fun (s : State) m => s.landingSend m 0x02 []) s
  (s.pl.directory.filter fun d => 1 ≤ d.step && d.step < 4).foldl State.failMigration s

/-- TAKEOVER: the higher term was recorded before the message is acted on; the sender manages the pool, and no standby
is known (R420, R422). -/
def execTakeover (h : Hdr) (s : State) : Result :=
  .next (s.landingIn h 0x02 fun s =>
    let s := { s with pl := { s.pl with
      manager := h.src, standby := if s.role = 1 then s.index else 0xFFFF
      missed := del s.pl.missed h.src, lastHeard := put s.pl.lastHeard h.src s.beat } }
    ((s.setFlag .LND_STATE_MANAGER_SEEN 0 true).setFlag .LND_STATE_STANDBY_SEEN 0 false, 0, []))

/-- TERM_RESPONSE: a peer answered STATUS TERM. A manager stops and becomes standby; the term and the manager are
recorded (R420, R421). -/
def execTermResponse (h : Hdr) (higher : Word) (manager : Nat) (s : State) : Result :=
  if !s.landingReaches h then .next s
  else
    let s := s.count 321 1
    let s := { s with pl := { s.pl with
      outstanding := s.pl.outstanding.filter fun o => !(o.peer == h.src && o.seq == h.seq) } }
    if higher.toNat ≤ s.term then .next s
    else
      let s := s.learnTerm higher.toNat
      .next ({ s with pl := { s.pl with manager := manager } } : State).putPoolRecord

/-! ### Heartbeats (R417, R418, R436) -/

/-- What a member reports of itself (R417). -/
def State.healthReport (s : State) : List Word :=
  let media := hottestOf (s.cellars.flatMap s.pkgTemps)
  let stateWord := s.pw.dev.code + 16 * s.reg .HALL_STATE_HALT_CAUSE 0 + 64 * s.pw.previous.code
  [pword stateWord, pword s.timeState, pword (match s.plan with | some p => p.imageSeq | none => 0),
   pword (s.reg .HALL_AMD_SEQ 0), pword s.sparePool, pword (s.reg .HALL_MEDIA_WEAR_MAX 0), pword s.dirtyAmount,
   pword s.effective, BitVec.ofInt 64 (match s.hottest with | some x => x.2 | none => 0),
   BitVec.ofInt 64 (media.getD 0), pword (s.rooms.countP fun r => s.degraded r.1),
   pword (s.lk.slots.countP fun k => k.2.changed)]

/-- Sends a heartbeat: numbered like a request, and never sent again. -/
def State.sendBeat (s : State) (peer : Nat) (body : List Word) : State :=
  let seq := lookD s.pl.nextSeq peer 0
  let s := { s with pl := { s.pl with nextSeq := put s.pl.nextSeq peer (seq + 1) } }
  (s.landingPut { peer := peer, seq := seq, type := 0x01, resends := 0, i3c := s.overI3c peer, last := false, body := body,
                  asker := none, rooms := [] }).count 323 1

/-- HEARTBEAT_SEND: the manager to every member at n mod 64 = 0; any other member to manager and standby at 32 (R417). -/
def execHeartbeatSend (s : State) : Result :=
  if !s.pw.dev.hallOn || s.plan.isNone then .next s
  else if s.role = 0 then
    if s.beat % 64 != 0 then .next s
    else
      let (p, s) := s.fracNow
      let body := [pword s.beat, pword p, pword s.term, pword s.index, pword s.pl.standby]
      .next (s.memberList.foldl (fun (s : State) m => s.sendBeat m body) s)
  else if s.beat % 64 != 32 then .next s
  else
    let to_ := [s.pl.manager, s.pl.standby].filter fun m => m < 4096 && m != s.index
    .next (to_.foldl (fun (s : State) m => s.sendBeat m s.healthReport) s)

/-- A heartbeat counts from now on: the missed count restarts (R418). -/
def State.heard (s : State) (peer : Nat) : State :=
  let s := { s with pl := { s.pl with
    missed := del s.pl.missed peer, lastHeard := put s.pl.lastHeard peer s.beat } }
  let s := if peer = s.pl.manager then s.setFlag .LND_STATE_MANAGER_SEEN 0 true else s
  if peer = s.pl.standby then s.setFlag .LND_STATE_STANDBY_SEEN 0 true else s

/-- The manager's heartbeat on a member: the manager and the standby, and the epoch (R229, R417). -/
def State.managerBeat (s : State) (e p managerIndex standby : Nat) : State :=
  ({ s with pl := { s.pl with manager := managerIndex, standby := standby } } : State).epoch e p

/-- A member's heartbeat on the manager: its health; the standby that returns gets a full mirror; changed key slots are
exported again; a member short of spare is evacuated while EVAC_AUTO is set (R411, R421, R423, R425, R436). -/
def State.memberBeat (s : State) (peer : Nat) (health : List Word) : State :=
  let s := { s with pl := { s.pl with members := put s.pl.members peer health } }
  if s.role != 0 then s
  else
    let back := 4096 ≤ s.pl.standby && (match s.plan with | some p => p.pool.index == peer && peer != 0 | none => false)
    let s := if back then ({ s with pl := { s.pl with standby := peer } } : State).putPoolRecord else s
    let s := if back || (peer == s.pl.standby && s.flag .LND_STATE_MIRROR_STALE 0) then s.fullMirror else s
    let s := if (health.getD 11 0) != 0 then
        (s.pl.escrow.filter fun x => x.2.origin == peer).foldl
          (fun (s : State) x => s.landingSend peer 0x05 [2, pword (x.1 / 4096)]) s
      else s
    if s.flag .LND_CTRL_EVAC_AUTO 0 && (health.getD 4 0).toNat < 2 * s.spareFloor && s.pl.evacuating.isNone &&
        s.reaches peer then s.evacuate peer
    else s

/-- HEARTBEAT (R417, R418). -/
def execHeartbeat (h : Hdr) (manager : Bool) (e p : Word) (managerIndex standby : Nat) (health : List Word) (s : State) :
    Result :=
  .next (s.landingIn h 0x01 fun s =>
    if manager then
      if s.role = 0 then (s, 5, [])
      else ((s.managerBeat e.toNat p.toNat managerIndex standby).heard h.src, 0, [])
    else ((s.heard h.src).memberBeat h.src health, 0, []))

/-- The third miss in a row of a peer: its session ends, and the migrations that need it fail (R413, R418, R434). -/
def State.peerLost (s : State) (peer : Nat) : State :=
  let s := { s with pl := { s.pl with sessions := s.pl.sessions.filter fun x => x != peer } }
  let s := if peer = s.pl.manager then s.setFlag .LND_STATE_MANAGER_SEEN 0 false else s
  let s := if peer = s.pl.standby then s.setFlag .LND_STATE_STANDBY_SEEN 0 false else s
  if s.role = 0 then
    (s.pl.directory.filter fun d => 1 ≤ d.step && d.step < 4 && (d.device == peer || d.target == peer)).foldl
      State.failMigration s
  else s

/-- HEARTBEAT_MISSED: 72 beats without one. After three from the manager in a row, the standby takes over, if it holds
a complete mirror (R24, R418, R419, R421). -/
def execHeartbeatMissed (peer : Nat) (s : State) : Result :=
  match look s.pl.lastHeard peer with
  | none => .next s
  | some last =>
    let n := s.missedOf peer
    if !s.pw.dev.hallOn || s.plan.isNone || s.beat < last + 72 + 64 * n then .next s
    else
      let s := { s with pl := { s.pl with missed := put s.pl.missed peer (n + 1) } }
      let s := s.satReg .LND_ERR_MISSED 0 1
      let s := if peer = s.pl.manager then s.emit srcManagerMissed
        else if peer = s.pl.standby then s.emit srcStandbyMissed else s
      if n + 1 != 3 then .next s
      else
        let s := s.peerLost peer
        if peer = s.pl.manager && s.role = 1 && s.pl.mirrored then .next s.takeOver else .next s

/-- LANDING_RETRY: no response came. The request is sent again, up to three times; then it is given up (R412, R415,
R423, R434). -/
def execLandingRetry (peer : Nat) (seq : BitVec 32) (s : State) : Result :=
  match takeFirst (fun (o : Outstanding) => o.peer == peer && o.seq == seq) s.pl.outstanding with
  | none => .next s
  | some (o, rest) =>
    if !s.pw.dev.hallOn then .next s
    else if o.resends < 3 then
      let o := { o with resends := o.resends + 1 }
      let s := { s with pl := { s.pl with
        outstanding := s.pl.outstanding.map fun (x : Outstanding) => if x.peer == peer && x.seq == seq then o else x } }
      .next (((s.satReg .LND_ERR_RETRIES 0 1).count 322 1).landingPut o)
    else
      let s : State := { s with pl := { s.pl with
        outstanding := rest
        failedVdm := if o.i3c || s.pl.failedVdm.contains peer then s.pl.failedVdm else s.pl.failedVdm ++ [peer] } }
      let s := match o.asker with
        | some f => s.mailAnswer f 0xC042 .refused []
        | none => s
      let s : State := if o.type = 0x0C then (s.setFlag .LND_STATE_MIRROR_STALE 0 true).level srcMirrorStale true else s
      if s.role = 0 then
        .next ((s.pl.directory.filter fun d => 1 ≤ d.step && d.step < 4 && (d.device == peer || d.target == peer)).foldl
          State.failMigration s)
      else .next s

/-! ### Sessions (R413, R425) -/

/-- The pool escrow key: the first manager of a pool generates it, and keeps it in the Cupboard, wrapped (R425). -/
def State.withEscrowKey (s : State) : State :=
  match s.pl.escrowKey with
  | some _ => s
  | none =>
    let key := Config.randomKey s.fresh
    let s := { s with fresh := s.fresh + 1, pl := { s.pl with escrowKey := some key } }
    s.queueRecord [2768] [2769] (.escrow (Config.wrap Config.wrapKey key))

/-- A migration past CUTOVER goes on with a member that returned (R434). -/
def State.resumeForwarding (s : State) (peer : Nat) : State :=
  (s.pl.directory.filter fun d => d.step == 4 && d.device == peer).foldl
    (fun (s : State) d => s.sendMigrate peer 2 d.room d.device d.target) s

/-- SPDM_SESSION_SETUP: mutual authentication, a Kamfel root and equal fuse key hashes make a session; the manager sends
its escrow key at a member's first one (R413, R425). -/
def execSpdmSessionSetup (peer : Nat) (authenticated rootOk fuseHashesEqual : Bool) (s : State) : Result :=
  if !s.pw.dev.hallOn || s.plan.isNone then .next s
  else if authenticated && rootOk && fuseHashesEqual then
    let first := (look s.pl.members peer).isNone
    let s := { s with pl := { s.pl with
      sessions := (s.pl.sessions.filter fun x => x != peer) ++ [peer]
      failedVdm := s.pl.failedVdm.filter fun x => x != peer } }
    let s := s.count 192 1
    if s.role != 0 then .next s
    else
      let s := s.withEscrowKey
      let s := if first then
          let s := { s with pl := { s.pl with members := put s.pl.members peer [] } }
          let s := s.mirrorChange [4, pword peer]
          match s.pl.escrowKey with
          | some k => s.landingSend peer 0x06 ((List.range 4).map fun i => wordAt k i)
          | none => s
        else s
      .next (s.resumeForwarding peer)
  else .next (s.emit srcSpdmFailure)

/-! ### Clear tokens and snapshots (R426, R427) -/

/-- NONCE_REQUEST: a fresh nonce takes the place of the last one (R426). -/
def execNonceRequest (h : Hdr) (s : State) : Result :=
  .next (s.landingIn h 0x07 fun s => s.managerOnly h fun s =>
    let n := Config.nonce s.fresh
    ({ s with fresh := s.fresh + 1, pl := { s.pl with nonce := some n } }, 0, [wordAt n 0, wordAt n 1]))

/-- CLEAR_TOKEN: the partition is cleared, or the token is refused (R426, R504). -/
def execClearToken (h : Hdr) (part : Fin 11) (nonce : BitVec 128) (member : Nat) (tokenTerm : Word) (signatureOk : Bool)
    (s : State) : Result :=
  .next (s.landingIn h 0x07 fun s => s.managerOnly h fun s =>
    let (s, ok) := s.useToken part.val nonce member tokenTerm.toNat signatureOk
    if ok then (s, 0, []) else (s, 4, [pword badField]))

/-- SNAPSHOT: a counter snapshot is armed at the named beat (R427). -/
def execSnapshotMsg (h : Hdr) (beat : Word) (s : State) : Result :=
  .next (s.landingIn h 0x08 fun s => s.managerOnly h fun s => (s.armAt beat.toNat, 0, []))

/-! ### Migration messages and rounds (R429 to R434) -/

/-- MIGRATE_BEGIN: the target prepares, and the source starts (R429). -/
def execMigrateBegin (h : Hdr) (room : RoomNo) (source target : Nat) (s : State) : Result :=
  .next (s.landingIn h 0x09 fun s => s.managerOnly h fun s =>
    if s.pl.mig.isSome then (s, 3, [])
    else if target = s.index then (s.beginTarget room.val source, 0, [])
    else if source = s.index then (s.beginSource room.val target, 0, [])
    else (s, 5, []))

/-- The manager's part when the last holder has released the source's extents: it delivers the removal (R433). -/
def State.removeSource (s : State) (d : DirRoom) : State :=
  let removal := { (dirCfg d) with action := 3 }
  let (b, s) := s.ownAmendment
  match s.handIn d.device b [removal] none with
  | (s, some (cause, _)) => s.amendmentDone d.device [removal] (cause == 0)
  | (s, none) => s

/-- A MIGRATE message past the rounds. CUTOVER: the target makes its offers, the source forwards, the manager records
it. Close: the target closes its range; the manager, told by the source that no extent is held, removes the source room
(R429, R431, R433, R434). -/
def execMigrateCutover (h : Hdr) (room : RoomNo) (close : Bool) (s : State) : Result :=
  .next (s.landingIn h 0x09 fun s =>
    let here := s.pl.directory.filter fun d => d.room == room.val && 1 ≤ d.step && (d.device == h.src || d.target == h.src)
    let s := if s.role = 0 then
        if close then (here.filter fun d => d.step == 4 && d.device == h.src).foldl State.removeSource s
        else here.foldl (fun (s : State) d => s.setDirStep d 4 d.target) s
      else s
    match s.pl.mig with
    | some m =>
      if m.room != room.val then (s, 0, [])
      else if m.source then ((if m.step == 3 && !close then s.startForwarding room.val m.peer else s), 0, [])
      else ((if close then s.targetClose room.val else s.targetCutover room.val), 0, [])
    | none => (s, 0, []))

/-- The commands of the internal ring are over. -/
def State.internalOver (s : State) : Bool :=
  s.rg.fetched.all fun c => c.ring != internalRing ||
    (c.started && s.rg.chans.any fun y => y.2.ring == internalRing && y.2.index == c.index && y.2.done)

/-- A round has been given up on the source: tracking ends and the manager is told, or raises the event (R432). -/
def State.sourceFails (s : State) (m : Migration) : State :=
  if s.role = 0 then
    match s.dirRoom s.index m.room with
    | some d => s.failMigration d
    | none => (s.endMigration m.room).emit srcMigrationFailed
  else (s.endMigration m.room).sendMigrate s.pl.manager 4 m.room s.index m.peer

/-- CUTOVER by the source: the target and the manager are told, and the source forwards (R431). -/
def State.cutOver (s : State) (m : Migration) : State :=
  let s := s.sendMigrate m.peer 2 m.room s.index m.peer
  let s := if s.role = 0 then
      (match s.dirRoom s.index m.room with | some d => s.setDirStep d 4 m.peer | none => s)
    else s.sendMigrate s.pl.manager 2 m.room s.index m.peer
  s.startForwarding m.room m.peer

/-- MIGRATION_ROUND_END: the bytes written while the round ran are compared with what a freeze could send; the freeze
follows, or another round, or after MAX_ROUNDS the migration fails. The end of the freeze's round is CUTOVER (R429,
R431, R432). -/
def execMigrationRoundEnd (sendBytesPerMs : Nat) (writtenBytes : Nat) (s : State) : Result :=
  match s.pl.mig with
  | none => .next s
  | some m =>
    if !m.source || !(m.step == 2 || m.step == 3) || !s.internalOver || s.pw.dev != .serving then .next s
    else if m.failed then
      let s := s.modRoom m.room fun r => if r.state == .frozen then { r with state := .serving } else r
      .next (s.sourceFails m).settle
    else if m.step = 3 then .next (s.cutOver m)
    else
      let ms := max 1 (min 9 (s.reg .LND_CTRL_FREEZE_MS 0))
      if writtenBytes ≤ sendBytesPerMs * ms then
        let s := s.modRoom m.room fun r => { r with state := .frozen }
        .next (((s.setMig (some { m with step := 3 })).postOut m.room m.peer 2).settle)
      else if max 1 (s.reg .LND_CTRL_MAX_ROUNDS 0) ≤ m.rounds then .next (s.sourceFails m)
      else .next (s.postOut m.room m.peer 0)

/-- FREEZE_TIMEOUT: the last round is not complete; the room serves again, tracking goes on and a further round runs
(R432). -/
def execFreezeTimeout (s : State) : Result :=
  match s.pl.mig with
  | none => .next s
  | some m =>
    if !m.source || m.step != 3 || s.internalOver || s.pw.dev != .serving then .next s
    else
      let s := { s with rg := { s.rg with
        fetched := s.rg.fetched.filter fun c => c.ring != internalRing
        chans := s.rg.chans.filter fun (y : Nat × Channel) => y.2.ring != internalRing } }
      let s := s.modRoom m.room fun r => { r with state := .serving }
      .next (((s.setMig (some { m with step := 2 })).postOut m.room m.peer 0).settle)

/-- PAGE_RELEASE: the target releases each page, plain or secure, before it answers (R430). -/
def execPageRelease (h : Hdr) (room : RoomNo) (pages : List (Nat × Bool)) (s : State) : Result :=
  .next (s.landingIn h 0x0A fun s =>
    match s.pl.mig with
    | some m =>
      if m.room == room.val && !m.source && m.peer == h.src then
        ((pages.take 500).foldl (fun (s : State) x => (s.releasePage room.val x.1 x.2).1) s, 0, [])
      else (s, 5, [])
    | none => (s, 5, []))

/-! ### Release of extents by a host (R84, R433) -/

/-- The last holder of a forwarding room has released its extents: the manager removes the room (R433). -/
def State.holdersGone (s : State) (room : Nat) : State :=
  match s.room room with
  | some r =>
    if r.forwarding && (s.extentsIn room).isEmpty then
      if s.role = 0 then
        (match s.dirRoom s.index room with | some d => s.removeSource d | none => s)
      else s.sendMigrate s.pl.manager 3 room s.index (match s.pl.mig with | some m => m.peer | none => 0)
    else s
  | none => s

/-- RELEASE_DC: a host releases an extent or a part of it, and offers deferred for it are made (R83, R84, R86). -/
def execReleaseDc (requester : Requester) (room : RoomNo) (region : Fin 8) (base size : Nat) (s : State) : Result :=
  if !s.pw.dev.hallOn then .next s
  else
    let q := s.requesterOf requester.val
    let mine := fun (e : Extent) => e.requester == q && e.room == room.val && e.region == region.val && e.part base size
    let f : Sender := ⟨requester, false⟩
    match takeFirst mine s.hp.extents with
    | none => .next (s.mailAnswer f 0x4803 .invalidInput [])
    | some (e, others) =>
      let rest := e.rest base size
      if 256 < s.extentsOf q - 1 + rest.length then .next (s.mailAnswer f 0x4803 .invalidInput [])
      else
        let s := { s with hp := { s.hp with extents := others ++ rest } }
        let s := (s.formerOver room.val).mailAnswer f 0x4803 .success []
        .next ((s.offerDeferred q).holdersGone room.val)

end Sys2Proof.Machine
end

