-- ==== Sys2Proof/Machine/KeySlots.lean ====
section
/-! DEFINITION. Key slots and the pool escrow key (R311 to R316, R425). -/

namespace Sys2Proof.Machine

/-- A key-slot operation: the pool manager alone may ask for it, and a refusal carries its cause (R313, R414). -/
def State.keyOp (s : State) (h : Hdr) (run : State → State × Except Nat (List Word)) : State :=
  s.landingIn h 0x05 fun s => s.managerOnly h fun s =>
    match run s with
    | (s, .ok body) => (s.count 193 1, 0, body)
    | (s, .error cause) => (s, 4, [pword cause])

/-- The persistent rooms of the table that name a slot, in any state. -/
def State.roomsOfSlot (s : State) (slot : Nat) : List Nat :=
  (s.rooms.filter fun x => x.2.cfg.persistent && x.2.cfg.keySlot == slot).map Prod.fst

/-- Some page of a room is backed. -/
def State.anyBacked (s : State) (room : Nat) : Bool := (s.roomPages room).any fun p => p.2.backed

/-- GENERATE: an EMPTY slot takes a new random key (R313). -/
def execGenerate (h : Hdr) (slot : Fin 4096) (s : State) : Result :=
  .next (s.keyOp h fun s =>
    if (look s.lk.slots slot.val).isSome then (s, .error badField)
    else if (s.roomsOfSlot slot.val).any s.anyBacked then (s, .error roomBusy)
    else
      let (k, s) := s.newKey
      let s := s.fillSlot slot.val { key := k, floor := 0, high := 0, changed := false, origin := s.index }
      ((s.emit srcSlotGenerated).settle, .ok []))

/-- The highest major counter in the trees of the rooms that name a slot (R316). -/
def State.highestMajor (s : State) (slot : Nat) : Nat :=
  ((s.roomsOfSlot slot).flatMap fun r => (s.roomPages r).map fun p =>
    match p.2.ctr with | some b => b.major | none => 0).foldl max 0

/-- FLOOR and HIGH of an imported slot: from the record; past HIGH away from the key's origin; from the rooms' counter
trees when the slot table was lost (R313, R316, R425). -/
def State.importMarks (s : State) (slot : Nat) (r : EscrowRecord) : Nat × Nat :=
  if s.lk.tableLost then (s.highestMajor slot + 2 ^ 28, s.highestMajor slot)
  else if r.origin = s.index then (r.floor, r.high)
  else (r.high + 2 ^ 28, r.high)

/-- IMPORT: an EMPTY slot takes a key wrapped under the pool escrow key (R313, R316, R425). A record that does not
unwrap is refused. -/
def execImportKey (h : Hdr) (slot : Fin 4096) (record : EscrowRecord) (s : State) : Result :=
  .next (s.keyOp h fun s =>
    if (look s.lk.slots slot.val).isSome then (s, .error badField)
    else match s.pl.escrowKey.bind fun k => Config.unwrap k record.wrapped with
      | none => (s, .error badField)
      | some key =>
        let (floor, high) := s.importMarks slot.val record
        let s := s.fillSlot slot.val
          { key := key, floor := floor % 2 ^ 57, high := high % 2 ^ 57, changed := false, origin := record.origin }
        ((s.emit srcSlotImported).settle, .ok []))

/-- EXPORT: the escrow record of a LOADED slot (R313, R425). -/
def execExportKey (h : Hdr) (slot : Fin 4096) (s : State) : Result :=
  .next (s.keyOp h fun s =>
    match look s.lk.slots slot.val, s.pl.escrowKey with
    | some k, some e =>
      let w := Config.wrap e k.key
      let s := { s with lk := { s.lk with slots := put s.lk.slots slot.val { k with changed := false } } }
      (s.emit srcSlotExported, .ok ([pword slot.val, pword k.origin, pword k.floor, pword k.high] ++
        (List.range 5).map fun i => wordAt w i))
    | _, _ => (s, .error keyEmptyCause))

/-- DESTROY: the key is gone from the vault, the cipher engines and both copies of the table (R313, R314). -/
def execDestroy (h : Hdr) (slot : Fin 4096) (s : State) : Result :=
  .next (s.keyOp h fun s =>
    if (look s.lk.slots slot.val).isNone then (s, .error keyEmptyCause)
    else if !(s.roomsOfSlot slot.val).isEmpty then (s, .error roomBusy)
    else
      let s := { s with lk := { s.lk with slots := del s.lk.slots slot.val } }
      ((s.putSlotTable (del s.md.slotTable slot.val)).emit srcSlotDestroyed, .ok []))

/-- ESCROW_KEY: the member keeps the pool escrow key in its Cupboard, wrapped under its own wrap key (R425). -/
def execEscrowKey (h : Hdr) (key : Key) (s : State) : Result :=
  .next (s.landingIn h 0x06 fun s => s.managerOnly h fun s =>
    let s := { s with pl := { s.pl with escrowKey := some key } }
    (s.queueRecord [2768] [2769] (.escrow (Config.wrap Config.wrapKey key)), 0, []))

end Sys2Proof.Machine
end

