-- ==== Sys2Proof/Machine/FaultExec.lean ====
section
/-! DEFINITION. Fault collection: what an event does at the collector, its reactions, the event queues, traps, forced
events and leaky buckets (R480 to R495, R505). -/

namespace Sys2Proof.Machine

/-! ### Error records (R482) -/

/-- Word `k` of an error record; `later` is zero in the latest record. -/
def ErrRec.word (r : ErrRec) (later k : Nat) : Nat :=
  let e := r.ev.info
  match k with
  | 0 => e.source.val + 2 ^ 11 + 2 ^ 12 * (r.severity % 4) + 2 ^ 14 * (r.reaction % 4) + 2 ^ 16 * (e.access % 16) +
      2 ^ 20 * (e.masterKind % 8) + 2 ^ 23 * (e.masterId % 2 ^ 12) + (if e.forced then 2 ^ 35 else 0)
  | 1 => e.address % 2 ^ 56 + 2 ^ 56 * (e.addrKind % 256)
  | 2 => r.ev.beat % 2 ^ 64
  | 3 => r.ticks % 2 ^ 32 + 2 ^ 32 * (later % 2 ^ 16)
  | _ => 0

/-- The first-error record takes the event when it is empty, and counts it in LATER when not; the latest record always
takes it. -/
def State.capture (s : State) (r : ErrRec) : State :=
  match s.fl.first with
  | none => { s with fl := { s.fl with first := some r, later := 0, last := some r } }
  | some _ => { s with fl := { s.fl with later := min (s.fl.later + 1) 0xFFFF, last := some r } }

/-! ### Reactions (R485 to R489) -/

/-- The severity recorded of a source; a source with none is reserved (R478 to R480). -/
def severityRec (src : Nat) : Nat := (severityOf src).getD 0

/-- A trap is pending in the Hall or a wing (R487). -/
def State.trapPending (s : State) (wing : Option Nat) : Bool :=
  match wing with
  | none => s.flag .FLT_STATUS_TRAP_PENDING 0
  | some w => s.flag .FLT_WCTRL_TRAP_PENDING w

/-- Sets or ends a pending trap. -/
def State.setTrap (s : State) (wing : Option Nat) (on : Bool) : State :=
  match wing with
  | none => s.setFlag .FLT_STATUS_TRAP_PENDING 0 on
  | some w => s.setFlag .FLT_WCTRL_TRAP_PENDING w on

/-- An owner is under a block reset: one in progress, or the loss that a reset brought to a unit (R486). -/
def State.underReset (s : State) (o : Owner) : Bool :=
  match o with
  | .larder w => s.svc (8 + w) == 5
  | .wingEngine w => s.svc w == 5
  | _ => s.inReset o

/-- The block reset of a source acts as a chip reset (R486). -/
def chipOwner (src : Nat) : Bool := ownerOf src == .hall

/-- A source's event is merged: a halt or a chip reset covers every target, a chip reset merges with a drain, a trap
with a pending one, a block reset with one of the same block (R488, R489). -/
def State.mergesEvent (s : State) (src reaction : Nat) : Bool :=
  s.pw.dev == .halted || s.pw.chipReset ||
  (match reaction with
    | 1 => s.trapPending (sourceWing src)
    | 2 => s.underReset (ownerOf src) || (chipOwner src && s.pw.dev == .draining)
    | 3 => s.pw.dev == .draining
    | _ => false)

/-- A chip reset: the drain with LAST_STOP 6, then OFF and an on request latched inside (R485). Before SERVING there is
nothing to drain: it acts as an off request does there (R439, R450). -/
def State.resetChip (s : State) : State :=
  let mark := fun (s : State) =>
    ({ s with pw := { s.pw with chipReset := true } } : State).setFlag .FBX_SEQ_ON_LATCHED 0 true
  match s.pw.dev with
  | .serving => (mark s).drainStart 6 .off
  | .boot => mark s.offInPowerUp
  | .recovery => mark (s.setFlag .FBX_SEQ_OFF_LATCHED 0 true)
  | _ => s

/-- A cellar's operations in flight wait again, and are reissued after the reset (R486). -/
def State.reissueOps (s : State) (c : Nat) : State :=
  let back := (s.md.inflight.filter fun (o : MediaOp) => o.cellar == c).map fun (o : MediaOp) =>
    { o with suspended := false, suspending := false }
  { s with md := { s.md with
    queue := back ++ s.md.queue
    inflight := s.md.inflight.filter fun (o : MediaOp) => o.cellar != c } }

/-- A reset that BLOCK_RESET_DONE ends. -/
def State.startReset (s : State) (src : Nat) : State := { s with fl := { s.fl with resets := s.fl.resets ++ [src] } }

/-- The command of a Stair channel ends ABORTED (R390, R486). -/
def State.resetChannel (s : State) (ch : Nat) : State :=
  match look s.rg.chans ch with
  | none => s
  | some c =>
    if c.done then s
    else
      let s := { s with rg := { s.rg with waiters := s.rg.waiters.filter fun y => y != ch } }
      s.endChan ch 0x1B (if c.program.isEmpty then c.result else pword c.pc)

/-- The owner is one whose block reset a drain carries out (R489). -/
def resetsInDrain : Owner → Bool
  | .stair _ | .core _ => true
  | _ => false

/-- A block reset, by owner (R486, R489). -/
def State.resetBlock (s : State) (src : Nat) : State :=
  if s.pw.dev == .draining && !resetsInDrain (ownerOf src) then s
  else match ownerOf src with
    | .cellar c => (s.reissueOps c).startReset src
    | .stair ch => s.resetChannel ch
    | .core _ => s.startReset src
    | .corridor w =>
      ({ s with br := { s.br with replays := (del (del s.br.replays w) (8 + w)) } } : State).startReset src
    | .larder w => s.loseLarder w
    | .wingEngine w => s.loseWing w
    | .sensor _ => s
    | .hostPort => s.portReset
    | .landing => { s with pl := { s.pl with sessions := [] } }
    | .hall => s.resetChip

/-- The halt cause of a fixed source (R480). -/
def haltCause (src : Nat) : Nat := if src = 0 then 1 else if src = 1 then 2 else 3

/-- The core of a wing that a trap goes to: TRAP_CORE, or the next one that is not under restart (R487). -/
def State.trapCore (s : State) (w : Nat) : Option Nat :=
  ((List.range 8).map fun i => (s.reg .FLT_WCTRL_TRAP_CORE w + i) % 8).find? fun k => !s.inReset (.core (8 * w + k))

/-- A trap: pending in the Hall or the wing, and counted at the core it goes to (R487, R523). -/
def State.trap (s : State) (wing : Option Nat) : State :=
  let s := s.setTrap wing true
  match wing with
  | none => s
  | some w => match s.trapCore w with
    | some k => s.count (512 + 768 * w + 608 + 8 * k + 1) 1
    | none => s

/-- Carries out a reaction that is not merged: an interrupt is its message and item alone (R485). -/
def State.react (s : State) (src reaction : Nat) : State :=
  if src < 5 then s.halt (haltCause src)
  else match reaction with
    | 1 => s.trap (sourceWing src)
    | 2 => s.resetBlock src
    | 3 => s.resetChip
    | _ => s

/-! ### The event queues and the mailbox logs (R494, R495) -/

/-- The queue of a source's owning block: 0 the Hall's, 1 + w that of wing w. -/
def queueOf (src : Nat) : Nat := match sourceWing src with | none => 0 | some w => 1 + w

/-- The BAR0 offset of a queue's FLT_EVQ (R505, R506, R540). -/
def evqOffset (q : Nat) : Nat := if q = 0 then 0x38058 else 0x1000000 * q + 0x14058

/-- Posts an item: to the reader that has stalled longest, to the queue, or nowhere when it is full. -/
def State.postItem (s : State) (q : Nat) (x : QItem) : State :=
  match takeFirst (fun (r : Nat × Nat × Half) => r.1 == q) s.fl.stalled with
  | some (r, rest) =>
    ({ s with fl := { s.fl with stalled := rest } } : State).deliver r.2.1 (evqOffset q) r.2.2 x.word
  | none =>
    let items := lookD s.fl.queues q []
    if 1024 ≤ items.length then (s.satReg .FLT_EVQ_CFG_LOST q 1).count 354 1
    else { s with fl := { s.fl with queues := put s.fl.queues q (items ++ [x]) } }

/-- Enters an item into the mailbox log of its severity (R495). -/
def State.logItem (s : State) (x : QItem) : State :=
  if x.severity = 0 then s
  else
    let i := x.severity - 1
    let l := s.fl.logs.getD i []
    if l.length < 64 then { s with fl := { s.fl with logs := s.fl.logs.set i (l ++ [x]) } }
    else { s with fl := { s.fl with logs := s.fl.logs.set i (l.drop 1 ++ [x]), overflow := s.fl.overflow.set i true } }

/-! ### Leaky buckets (R493) -/

/-- A source's bucket absorbs events: BUCKET_EN with reaction interrupt. -/
def State.bucketOn (s : State) (src : Nat) : Bool :=
  5 ≤ src && s.flag .FLT_SRC_BUCKET_EN src && s.reactionOf src == 0

/-- The bucket overflows at this event: LEVEL has come to DEPTH, or DEPTH is 0 (R493). -/
def State.bucketFull (s : State) (src : Nat) : Bool :=
  s.reg .FLT_SRC_DEPTH src == 0 || s.reg .FLT_SRC_LEVEL src == s.reg .FLT_SRC_DEPTH src

/-- The bucket takes an event, or overflows: the answer says whether it absorbed the event. -/
def State.bucket (s : State) (src : Nat) : State × Bool :=
  if !s.bucketOn src then (s, false)
  else if s.bucketFull src then (s.setReg .FLT_SRC_LEVEL src 0, false)
  else (s.setReg .FLT_SRC_LEVEL src (s.reg .FLT_SRC_LEVEL src + 1), true)

/-! ### An event at the collector -/

/-- An event that no bucket absorbs: captured, recorded to the Attic, reacted on, and posted. -/
def State.takeEvent (s : State) (ev : Ev) : State :=
  let src := ev.info.source.val
  let reaction := s.reactionOf src
  let (ticks, s) := s.free
  let r : ErrRec := { ev := ev, severity := severityRec src, reaction := reaction, ticks := ticks.toNat }
  let s := s.capture r
  let s := s.attic { part := partitionOf src, severity := r.severity, forced := ev.info.forced, type := 0x01
                     beat := ev.beat, source := src, body := [1, 2, 3].map fun k => pword (r.word 0 k) }
  let s := if s.errBit src then { s with fl := { s.fl with errLatch := true } } else s
  let merged := !ev.own && s.mergesEvent src reaction
  let x : QItem := { source := src, severity := r.severity, reaction := reaction, forced := ev.info.forced
                     merged := merged, beat := ev.beat }
  let s := if merged then (s.satReg .FLT_CNT_MERGED 0 1).count 353 1
    else if ev.own then s
    else s.react src reaction
  ((s.postItem (queueOf src) x).msix src).logItem x

/-- An event reaches the collector (R481, R482, R493). A reserved source raises none. -/
def State.collect (s : State) (ev : Ev) : State :=
  let src := ev.info.source.val
  if (severityOf src).isNone then s
  else
    let s := (s.satReg .FLT_SRC_COUNT src 1).satReg .FLT_CNT_EVENTS 0 1
    let (s, absorbed) := (s.count 352 1).bucket src
    if absorbed then s else s.takeEvent ev

/-- The collector is powered and takes events. -/
def State.collects (s : State) : Bool := (s.pw.dev.hallOn || s.pw.dev == .powering) && !s.fl.dead

/-- COLLECTOR_FAULT: source 1 outside the collector, the record of the halt, and HALTED (R490). -/
def execCollectorFault (s : State) : Result :=
  if !s.collects then .next s
  else
    let s := s.atticNote 8 3 0x06 [pword 4]
    let s := { s with fl := { s.fl with dead := true, inbox := [] } }
    .next (s.halt 2)

/-! ### REARM, traps, FORCE, buckets (R484, R487, R492, R493) -/

/-- REARM: the first record is empty and the ERR_N latch ends (R484). -/
def execRearm (s : State) : Result :=
  if !s.pw.dev.hallOn then .next s
  else .next { s with fl := { s.fl with first := none, later := 0, errLatch := false } }

/-- TRAP_DONE, of the Hall or of a wing (R487). -/
def execTrapDone (wing : Option Wing) (s : State) : Result :=
  if !s.pw.dev.hallOn then .next s else .next (s.setTrap (wing.map Fin.val) false)

/-- FORCE: setting it raises one forced event; it stays in STATUS until it is cleared (R492). Sources 0 to 4 and
reserved ones ignore it. -/
def execForce (source : Source) (on : Bool) (s : State) : Result :=
  if !s.pw.dev.hallOn || source.val < 5 || (severityOf source.val).isNone then .next s
  else
    let was := s.flag .FLT_SRC_FORCE source.val
    let s := s.setFlag .FLT_SRC_FORCE source.val on
    if on && !was then .next (s.emitEv { source := source, masterKind := 6, forced := true }) else .next s

/-- BUCKET_EN_CLEAR: LEVEL is 0 with it (R505). -/
def execBucketEnClear (source : Source) (s : State) : Result :=
  if !s.pw.dev.hallOn then .next s
  else .next ((s.setFlag .FLT_SRC_BUCKET_EN source.val false).setReg .FLT_SRC_LEVEL source.val 0)

/-! ### Core restarts and block resets (R372, R486) -/

/-- WATCHDOG_EXPIRY: the core restarts and its work goes to others (R372, R487). -/
def execWatchdogExpiry (core : Fin 64) (s : State) : Result :=
  let w := core.val / 8
  let src := srcCore core.val
  if !s.pw.dev.hallOn || !s.wingUp w || s.inReset (.core core.val) then .next s
  else .next (((s.startReset src).emit src).count (512 + 768 * w + 608 + 8 * (core.val % 8) + 2) 1)

/-- BLOCK_RESET_DONE: the reset is over; a cellar's packages that fail IDENT are failed (R197, R486). -/
def execBlockResetDone (source : Source) (ident : BitVec 8) (s : State) : Result :=
  if !s.fl.resets.contains source.val then .next s
  else
    let s := { s with fl := { s.fl with resets := s.fl.resets.filter fun x => x != source.val } }
    match ownerOf source.val with
    | .cellar c =>
      if s.cellarUp c && s.pw.dev.hallOn then
        let gone := (s.packages c).filter fun p => !ident.getLsbD p
        .next (gone.foldl (fun (s : State) p => s.losePackage c p) s).mediaStep
      else .next s
    | _ => .next s

end Sys2Proof.Machine
end

