-- ==== Sys2Proof/Machine/RegAccess.lean ====
section
/-! DEFINITION. Register accesses: the address map, what each field shows, writes under the field's type and quadrant,
and the stalling ports (R3 to R7, R92, R93, R144, R467, R532, R539 to R554, R559). -/

namespace Sys2Proof.Machine

/-! ### The address map (R539 to R542) -/

/-- The blocks of the Hall region, by base / 0x4000 (R540). -/
def hallBlocks : List Block :=
  [.hallState, .hallFp, .hallHp, .hallQos, .hallHmb, .hallDirty, .hallMedia, .hallDrain, .hallSvc, .fbx, .prcRt, .prcRes,
   .prcIn, .chm, .flt, .atc, .cpb, .lks, .lnd, .ring, .pmc, .bst, .cor]

/-- The blocks at the start of a wing region (R541). -/
def wingHead : List Block := [.wing, .pan, .lar, .home, .lksW, .fltW, .pmcW, .corW]

/-- A register: its block and the block's instance, its offset in the block and the quadrant of the access (R5). -/
structure RegPlace where
  block : Block
  inst : Nat
  rel : Nat
  quad : Nat
  deriving DecidableEq, Repr

/-- The register a BAR0 offset names; none where no block or window of registers lies. -/
def placeOf (offset : Nat) : Option RegPlace :=
  let rel := offset % 0x1000 / 8 * 8
  let quad := offset % 0x4000 / 0x1000
  if offset < 0x1000000 then
    if 0x100000 ≤ offset && offset < 0x104000 then some ⟨.msixDest, 0, (offset - 0x100000) / 8 * 8, 0⟩
    else (hallBlocks[offset / 0x4000]?).map fun b => ⟨b, 0, rel, quad⟩
  else if offset < 0x9000000 then
    let w := offset / 0x1000000 - 1
    let n := offset % 0x1000000 / 0x4000
    if n < 8 then (wingHead[n]?).map fun b => ⟨b, w, rel, quad⟩
    else if n < 12 then some ⟨.cel, 4 * w + (n - 8), rel, quad⟩
    else if 64 ≤ n && n < 96 then some ⟨.str, 32 * w + (n - 64), rel, quad⟩
    else none
  else if 0xA000000 ≤ offset && offset < 0xB000000 then some ⟨.roomWin, (offset - 0xA000000) / 0x1000, rel, 0⟩
  else none

/-- The wing that owns a block (R544). -/
def RegPlace.wing (p : RegPlace) : Option Nat :=
  match p.block with
  | .wing | .pan | .lar | .home | .lksW | .fltW | .pmcW | .corW => some p.inst
  | .cel => some (p.inst / 4)
  | .str => some (p.inst / 32)
  | _ => none

/-- The fields of a register, with their instances. -/
def RegPlace.fields (p : RegPlace) : List (Fld × Nat) :=
  p.block.rows.filterMap fun r =>
    let k := (p.rel - r.off) / r.stride
    if r.off ≤ p.rel && (p.rel - r.off) % r.stride = 0 && k < r.count then some (r.fld, r.base + r.count * p.inst + k)
    else none

/-! ### What the computed fields show -/

/-- A vector of 64 bits from a test. -/
def bits64 (p : Nat → Bool) : Nat := ((List.range 64).map fun j => if p j then 2 ^ j else 0).sum

/-- One bit. -/
def bit1 (b : Bool) : Nat := if b then 1 else 0

/-- Levels of a room's map tree (R115). -/
def State.mapLevels (s : State) (c : RoomCfg) : Nat :=
  let bits := log2 (s.localIndex (c.pages - 1)) + 1
  min 4 (max 1 ((bits + 8) / 9))

/-- STATE of a room (R137). -/
def RoomState.code : RoomState → Nat
  | .serving => 1 | .removing => 2 | .frozen => 3

/-- ROOM_ROOT: 0 while the room has no backed page, and a reference whose value the spec leaves open (R144). -/
def State.rootShown (s : State) (room : Nat) : Nat :=
  if s.anyBacked room then
    let v := (Config.rootRef room s.fresh).toNat
    if v = 0 then 1 else v
  else 0

/-- The room window's fields; those of an absent room read zero (R137, R144). -/
def State.showRoom (s : State) (f : Fld) (i : Nat) : Nat :=
  let per := if f == .ROOM_HOLD || f == .ROOM_ACL then 64 else 1
  let room := i / per
  match s.room room with
  | none => 0
  | some r =>
    let c := r.cfg
    let count := fun (p : Page → Bool) => (s.roomPages room).countP fun x => p x.2
    match f with
    | .ROOM_CFG_CLASS => c.cls
    | .ROOM_CFG_ATTR => c.attr
    | .ROOM_CFG_TIER => c.tier
    | .ROOM_CFG_KEY_SLOT => if c.persistent then c.keySlot else 0
    | .ROOM_CFG_DC_REGION => c.region
    | .ROOM_CFG_WEIGHT => c.weight
    | .ROOM_BASE => c.base
    | .ROOM_SIZE => c.size
    | .ROOM_CREDITS_LIMIT => c.credits
    | .ROOM_CREDITS_IN_USE => r.inUse
    | .ROOM_STATE => r.state.code
    | .ROOM_STATE_DEGRADED => bit1 (s.degraded room)
    | .ROOM_STATE_READ_ONLY => bit1 s.readOnly
    | .ROOM_STATE_LEVELS => s.mapLevels c - 1
    | .ROOM_STATE_HOLDERS => (s.holders room).length
    | .ROOM_ROOT => s.rootShown room
    | .ROOM_PAGES_COUNT => count Page.backed
    | .ROOM_POISON_COUNT => count fun p => p.entry.poison || p.entry.lost
    | .ROOM_DIRTY_COUNT => count Page.dirty
    | .ROOM_LARDER_COUNT => count fun p => p.slot.isSome
    | .ROOM_RELEASES_PLAIN => r.plain
    | .ROOM_RELEASES_SECURE => r.secure
    | .ROOM_FAULTS_ALLOC_FAIL => r.allocFail
    | .ROOM_FAULTS_HMB_LEAVES => s.hp.hmbLeaves.countP fun x => x.1 == room
    | .ROOM_FAULTS_DEFERRED => r.deferred
    | .ROOM_HOLD => bits64 fun j => (s.holders room).contains (64 * (i % 64) + j)
    | .ROOM_ACL => bits64 fun j => c.acl.contains (64 * (i % 64) + j)
    | _ => 0

/-- Lines with a tracker, homed on a wing: one tracker serves a line at a time (R261). -/
def State.tracked_ (s : State) (w : Nat) : List Nat :=
  (s.hp.pend.filterMap Req.key).filter fun k => s.home (keyRoom (k / 64)) (keyPage (k / 64)) == w

/-- STATE and WAITING of a Stair channel (R408). -/
def State.chanWaits (s : State) (ch : Nat) : Nat :=
  match look s.rg.chans ch with
  | none => 0
  | some c =>
    if c.done then (if (s.ctx c.ring).full then 5 else 0)
    else if s.rg.waiters.contains ch then (match c.waitsOn with | some (0, _, _) => 1 | _ => 3)
    else if c.waitBeat.isSome then 2
    else if (stairCmd c.cmd).op == 8 || c.instr == some .persist then 4
    else 0

/-- The Stair blocks' computed fields (R408). -/
def State.showStair (s : State) (f : Fld) (ch : Nat) : Nat :=
  match look s.rg.chans ch, f with
  | _, .STR_STATUS_STATE =>
    if s.flag .STR_CTRL_PAUSE ch then 2
    else if s.chanWaits ch != 0 then 3
    else bit1 (look s.rg.chans ch).isSome
  | _, .STR_PC_WAITING => s.chanWaits ch
  | some c, .STR_STATUS_REQUESTER => c.ring / 64
  | some c, .STR_STATUS_RING => c.ring % 64
  | some c, .STR_STATUS_ROOM => c.charge
  | some c, .STR_STATUS_INFLIGHT => min c.todo.length (min 64 (max 1 (s.reg .STR_CTRL_MAX_INFLIGHT ch)))
  | some c, .STR_PC => c.pc
  | _, _ => 0

/-- The sum over a cellar's packages of a count. -/
def State.overPackages (s : State) (c : Nat) (f : Nat → Nat → Nat) : Nat :=
  ((s.allPackages.filter fun x => x.1 == c).map fun x => f x.1 x.2).sum

/-- Correction record `i` (R240). -/
def State.correction (s : State) (i : Nat) : Correction := s.rt.corrections.getD i ⟨0, 0, 0, 0⟩

/-- A word of the first or the latest error record (R482). -/
def recWord (r : Option ErrRec) (later k : Nat) : Nat :=
  match r with
  | some r => r.word later k
  | none => 0

/-- The value a field shows. A WO field reads zero (R6); a computed field is made from the state; any other field is as
it is stored. -/
def State.show (s : State) (f : Fld) (i : Nat) : Nat :=
  if f.desc.type == .wo then 0
  else match f with
  | .HALL_STATE => s.pw.dev.code
  | .HALL_STATE_PREVIOUS => s.pw.previous.code
  | .HALL_HMB_STATUS_LEAVES => s.hp.hmbLeaves.length
  | .PAN_STATUS_DIRTY_HELD => bit1 (s.ti.pantry.any fun x => x.2.dirty && x.1 / 2 ^ 54 == i)
  | .LAR_SLOTS => s.slots i
  | .LAR_SLOTS_FREE => s.slots i - s.slotsUsed i
  | .LAR_DIRTY_OWN => s.dirtyOwn i
  | .LAR_DIRTY_MIRROR => s.mirrors i
  | .HALL_DIRTY_AMOUNT_PAGES => s.dirtyAmount
  | .HALL_DIRTY_BUDGET_EFFECTIVE => s.effective
  | .HALL_DIRTY_BUDGET_LIMITED_BY => s.limitedBy
  | .HALL_DIRTY_PACE_PACING => bit1 s.pacing
  | .HALL_DIRTY_PACE_WAITING => s.pacedWaiting
  | .HALL_DIRTY_CALC_LOG_PENDING => s.md.log.length
  | .CEL_STATUS_OUT_OF_SERVICE => bit1 (s.svc (16 + i) == 2)
  | .CEL_FRAMES0_IN_USE => s.overPackages i s.usedFrames
  | .CEL_FRAMES0_FREE => s.overPackages i s.freeFrames
  | .CEL_FRAMES1_SPARE => s.overPackages i s.spareFrames
  | .CEL_FRAMES1_RETIRED => s.overPackages i s.retiredFrames
  | .HALL_MEDIA_SPARE_SPARES => s.sparePool
  | .PRC_RT_STATE_CORR_USED => s.rt.corrections.length
  | .PRC_RT_CORR_A_FIRST => (s.correction i).first
  | .PRC_RT_CORR_A_LAST => (s.correction i).last
  | .PRC_RT_CORR_B_SHIFT => unsignedOf 32 (s.correction i).shift
  | .PRC_RT_CORR_B_SPREAD => (s.correction i).spread
  | .WING_REFRESH_QUEUED => s.md.refresh.countP fun x => (frameOfKey x.1).wing == i
  | .WING_BRACE_STAT_UNSETTLED => s.br.deltas.countP fun d => d.wing == i
  | .HOME_STATUS_TRACKERS => (s.tracked_ i).dedup.length
  | .HOME_STATUS_QUEUED => (s.tracked_ i).length - (s.tracked_ i).dedup.length
  | .HOME_DIR_ENTRIES => s.ti.dir.countP fun x => s.home (keyRoom (x.1 / 64)) (keyPage (x.1 / 64)) == i
  | .HOME_DIR_COARSE =>
    s.ti.dir.countP fun x => x.2.coarse && s.home (keyRoom (x.1 / 64)) (keyPage (x.1 / 64)) == i
  | .PRC_RES_STATUS_STATE => s.res.st.code
  | .LKS_STATUS_SLOTS_LOADED => s.lk.slots.length
  | .LKS_SLOT_LOADED => bits64 fun j => (look s.lk.slots (64 * i + j)).isSome
  | .RING_CTX_WORD =>
    match look s.rg.ctx (ringKey (s.reg .RING_SEL_REQUESTER 0) (s.reg .RING_SEL_RING 0)) with
    | some c => (c.words.getD i 0).toNat
    | none => 0
  | .FLT_STATUS_FIRST_VALID => bit1 s.fl.first.isSome
  | .FLT_STATUS_ERR_N => bit1 s.errN
  | .FLT_STATUS_ACTIVE => s.activeSources.length
  | .FLT_FIRST_WORD => recWord s.fl.first s.fl.later i
  | .FLT_LAST_WORD => recWord s.fl.last 0 i
  | .FLT_EVQ_CFG_DEPTH_USED => (lookD s.fl.queues i []).length
  | .FLT_SRC_STATUS => bit1 (s.status i)
  | .FLT_SRC_FIXED => bit1 (decide (i < 5))
  | .FLT_SRC_REACTION => s.reactionOf i
  | .FLT_SRC_ERR_N => bit1 (s.errBit i)
  | .FLT_SRC_SEVERITY => severityRec i
  | .ATC_STATUS_BUF_BYTES => s.atticBytes
  | .ATC_PART_SLOTS => s.partSlots i
  | .ATC_PART_USED => ((s.atticPart i).slots.countP fun x => ((s.atticPart i).held x.1).isSome)
  | .CPB_STATUS_BUSY => bit1 (!s.cb.queue.isEmpty)
  | .CPB_STATUS_QUEUED => min 7 (s.cb.queue.length - 1 + s.cb.waiting.length)
  | .CPB_STATUS_WORN => bits64 fun k => k < 16 && s.cb.worn.any fun p => p / 128 == k
  | .CPB_WEAR_WORN_PAGES => s.cb.worn.length
  | .CPB_CNT_VALUE => s.counterValue i
  | .PMC_PENDING => s.inFlight
  | .PMC_WIN_VALUE =>
    let block : Option Wing := if i < 128 then none else some (Fin.ofNat 8 ((i - 128) / 128))
    match s.windowCounter block (i % 128) with
    | some c => lookD (if s.windowShadow block then s.me.shadow else s.me.live) c 0
    | none => 0
  | .STR_STATUS_STATE | .STR_STATUS_REQUESTER | .STR_STATUS_RING | .STR_STATUS_ROOM | .STR_STATUS_INFLIGHT | .STR_PC
  | .STR_PC_WAITING => s.showStair f i
  | .ROOM_CFG_CLASS | .ROOM_CFG_ATTR | .ROOM_CFG_TIER | .ROOM_CFG_KEY_SLOT | .ROOM_CFG_DC_REGION | .ROOM_CFG_WEIGHT
  | .ROOM_BASE | .ROOM_SIZE | .ROOM_CREDITS_LIMIT | .ROOM_CREDITS_IN_USE | .ROOM_STATE | .ROOM_STATE_DEGRADED
  | .ROOM_STATE_READ_ONLY | .ROOM_STATE_LEVELS | .ROOM_STATE_HOLDERS | .ROOM_ROOT | .ROOM_PAGES_COUNT | .ROOM_POISON_COUNT
  | .ROOM_DIRTY_COUNT | .ROOM_LARDER_COUNT | .ROOM_RELEASES_PLAIN | .ROOM_RELEASES_SECURE | .ROOM_FAULTS_ALLOC_FAIL
  | .ROOM_FAULTS_HMB_LEAVES | .ROOM_FAULTS_DEFERRED | .ROOM_HOLD | .ROOM_ACL => s.showRoom f i
  | _ => s.reg f i

/-- The value of a register as it stands: its fields in their places, zero elsewhere. -/
def State.regValue (s : State) (p : RegPlace) : Word :=
  BitVec.ofNat 64 ((p.fields.map fun x => s.show x.1 x.2 % 2 ^ x.1.desc.width * 2 ^ x.1.desc.lo).sum)

/-- A wing block that cannot be reached reads zero and ignores writes, but for reads of PMC_WIN (R544). -/
def State.unreached (s : State) (p : RegPlace) : Bool :=
  match p.wing with
  | some w => !s.wingReached w
  | none => false

/-! ### The stalling ports (R494, R507, R521, R537, R554) -/

/-- FLT_EVQ: the oldest item is removed and returned; on an empty queue the read stalls. -/
def State.readEvq (s : State) (q requester : Nat) (half : Half) : State :=
  match lookD s.fl.queues q [] with
  | x :: rest =>
    let queues := if rest.isEmpty then del s.fl.queues q else put s.fl.queues q rest
    ({ s with fl := { s.fl with queues := queues } } : State).deliver requester (evqOffset q) half x.word
  | [] => { s with fl := { s.fl with stalled := s.fl.stalled ++ [(q, requester, half)] } }

/-- CPB_DATA: the word of the selected page; the read stalls while a page write runs. -/
def State.readCpb (s : State) (i requester : Nat) (half : Half) : State :=
  let x := (s.reg .CPB_SEL_PAGE 0, i, requester, half)
  if s.cb.queue.isEmpty then s.answerCpb x else { s with cb := { s.cb with waiting := s.cb.waiting ++ [x] } }

/-- The word of a record that PMC_SMP_WIN shows. -/
def State.sampleWord (s : State) (w i : Nat) : Word :=
  wordAt (lookD s.me.samples (w * 2 ^ 20 + s.reg .PMC_SMP_SEL_RECORD w) 0) i

/-- A fetch that meets an uncorrectable error gives a word of all ones (R554). -/
def fetched (ok : Bool) (v : Word) : Word := if ok then v else BitVec.allOnes 64

/-- A read that a stall holds at a block: an FLT_EVQ read of that block, or a CPB_DATA read. -/
def State.stalledAt (s : State) (requester block : Nat) : Bool :=
  (s.fl.stalled.any fun x => x.2.1 == requester && evqOffset x.1 / 2 ^ 14 == block) ||
  (block == 0x10 && s.cb.waiting.any fun x => x.2.2.1 == requester)

/-! ### Reads -/

/-- The half a 32-bit access names. -/
def Access.half (a : Access) : Half := if a.width = 8 then .all else if a.offset % 8 = 0 then .low else .high

/-- An access of a width or an alignment that registers do not have (R4). -/
def Access.odd (a : Access) : Bool := (a.width != 4 && a.width != 8) || a.offset % a.width != 0

/-- The words of the MSI-X table and its pending bits: an entry is masked until software unmasks it (R95). -/
def State.msixWord (s : State) (offset : Nat) : Word :=
  if offset < 0x9008000 then
    let v := (offset - 0x9000000) / 16
    let x := lookD s.hp.msixTable v 0
    if offset % 16 < 8 then x.extractLsb' 0 64
    else (x.extractLsb' 64 32).setWidth 64 ||| (if s.hp.msixUnmasked.contains v then 0 else 0x100000000#64)
  else
    BitVec.ofNat 64 (bits64 fun j => s.hp.msixPending.contains ((offset - 0x9008000) / 8 * 64 + j))

/-- What the latch of a block holds for an access: the high half its requester last left there (R547). -/
def State.latched (s : State) (a : Access) : Option Word :=
  match look s.hp.highLatch (a.requester * 2 ^ 20 + a.offset / 2 ^ 14) with
  | some (o, v) => if a.half == .high && a.within1us && o == a.offset / 8 * 8 then some v else none
  | none => none

/-- The latch of an access's block is over (R547). -/
def State.unlatch (s : State) (a : Access) : State :=
  { s with hp := { s.hp with highLatch := del s.hp.highLatch (a.requester * 2 ^ 20 + a.offset / 2 ^ 14) } }

/-- A read of a register at an offset: of a counter under R522, of nothing where the block is not reached, of a stalling
port, or of the register as it stands. -/
def State.readPlace (s : State) (a : Access) (at_ : Nat) (p : RegPlace) : State :=
  match p.fields with
  | [(.PMC_WIN_VALUE, i)] => s.deliver a.requester at_ a.half (BitVec.ofNat 64 (s.show .PMC_WIN_VALUE i))
  | fs =>
    if s.unreached p then s.deliver a.requester at_ a.half 0
    else match fs with
    | [(.FLT_EVQ_ITEM, q)] => s.readEvq q a.requester a.half
    | [(.ATC_WIN_WORD, i)] => s.deliver a.requester at_ a.half (fetched a.fetchOk (s.atcWord i))
    | [(.CPB_DATA_WORD, i)] => s.readCpb i a.requester a.half
    | [(.PMC_SMP_WIN_WORD, i)] =>
      s.deliver a.requester at_ a.half (fetched a.fetchOk (s.sampleWord (i / 8) (i % 8)))
    | (.PRC_RT_FRAC, _) :: _ => let s := s.fracNow.2; s.deliver a.requester at_ a.half (s.regValue p)
    | (.HALL_SVC_STATE, u) :: _ => let s := s.progressNow u; s.deliver a.requester at_ a.half (s.regValue p)
    | _ => s.deliver a.requester at_ a.half (s.regValue p)

/-- A read of BAR0 by a management requester. -/
def State.readBar0 (s : State) (a : Access) : State :=
  let at_ := a.offset / 8 * 8
  match s.latched a with
  | some v => (s.unlatch a).send (.regData a.requester a.offset v)
  | none =>
    let s := s.unlatch a
    match placeOf at_ with
    | some p => s.readPlace a at_ p
    | none =>
      if 0x9000000 ≤ at_ && at_ < 0x9008100 then s.deliver a.requester at_ a.half (s.msixWord at_)
      else if 0xB000000 ≤ at_ && at_ < 0xB020000 then let (v, s) := s.free; s.deliver a.requester at_ a.half v
      else s.deliver a.requester at_ a.half 0

/-- A word of a room's counter page (R532). -/
def State.counterPageWord (s : State) (requester offset : Nat) : Nat :=
  let room := offset / 0x2000
  let rel := offset % 0x2000
  match s.room room with
  | none => 0
  | some r =>
    if !(s.isManagement requester || (r.cfg.counterAccess && r.cfg.admits requester)) then 0
    else
      let span := fun (base : Nat) => base ≤ rel && rel < base + 0x80
      if rel = 0 then room + 2 ^ 16 * r.state.code
      else if rel = 8 then s.reg .PMC_SNAP_STATUS_BEAT 0
      else if span 0x100 then lookD s.me.rooms (room * 32 + (rel - 0x100) / 8) 0
      else if span 0x200 then lookD s.me.rooms (room * 32 + 16 + (rel - 0x200) / 8) 0
      else if span 0x1100 then lookD s.me.roomShadow (room * 32 + (rel - 0x1100) / 8) 0
      else if span 0x1200 then lookD s.me.roomShadow (room * 32 + 16 + (rel - 0x1200) / 8) 0
      else 0

/-- A register that the Porch shows over I3C while the Hall is off (R467, R559). -/
def RegPlace.porch (p : RegPlace) : Bool :=
  match p.block with
  | .hallState | .fbx | .prcRt | .prcRes | .prcIn => true
  | .chm => p.rel == 0x18 || (0x100 ≤ p.rel && p.rel < 0x440)
  | _ => false

/-- The Porch's I3C target answers: VSTBY is present and the Hall is off. -/
def State.porchAnswers (s : State) : Bool := s.pw.dev != .noVstby && !s.pw.dev.hallOn

/-- A read (R4, R93, R467, R532, R543). -/
def State.read (s : State) (a : Access) : State :=
  match a.path with
  | .bar0 =>
    if !s.isManagement a.requester then
      (s.send (.regUnsupported a.requester a.offset)).barRefused a.requester a.offset
    else if a.odd then s.send (.regData a.requester a.offset (BitVec.allOnes 64))
    else s.readBar0 a
  | .bar2 => s.send (.regData a.requester a.offset 0)
  | .bar4 =>
    if a.odd then s.send (.regData a.requester a.offset (BitVec.allOnes 64))
    else
      let v := BitVec.ofNat 64 (s.counterPageWord a.requester (a.offset / 8 * 8))
      s.send (.regData a.requester a.offset
        (match a.half with | .all => v | .low => v &&& 0xFFFFFFFF#64 | .high => v >>> 32))
  | .i3c =>
    let s := match placeOf (a.offset / 8 * 8) with
      | some p => if p.block == Block.prcRt && p.rel == 8 then s.fracNow.2 else s
      | none => s
    s.send (.regData a.requester a.offset
      (match placeOf (a.offset / 8 * 8) with | some p => if p.porch then s.regValue p else 0 | none => 0))

/-! ### Writes -/

/-- Goes on with what a command's meaning answers. -/
def State.after (s : State) (r : Result) : State :=
  match r with
  | .next t => t
  | _ => s

/-- A field that is RW is written: stored, with what the write starts at once. -/
def State.writeRw (s : State) (requester : Nat) (f : Fld) (i v : Nat) : State :=
  let r : Requester := Fin.ofNat 4096 requester
  match f with
  | .HALL_HMB_CTRL_ENABLE =>
    if v = 1 then s.after (execHmbEnable r (Fin.ofNat 4096 (s.reg .HALL_HMB_CTRL_OWNER 0)) s)
    else s.after (execHmbWithdrawal r s)
  | .HALL_MSIX_DEST_VALID => (s.setReg f i v).msixFlush i
  | .FLT_SRC_FORCE => s.after (execForce (Fin.ofNat 2048 i) (v == 1) s)
  | .FLT_SRC_BUCKET_EN => if v = 0 then s.after (execBucketEnClear (Fin.ofNat 2048 i) s) else s.setReg f i v
  | .PMC_WIN_VALUE =>
    s.after (execPmcWin (if i < 128 then none else some (Fin.ofNat 8 ((i - 128) / 128))) (Fin.ofNat 128 i)
      (BitVec.ofNat 48 v) s)
  | .PMC_SMP_PTR_NEXT => s.setSamplePtr i v
  | .PMC_CTRL_FREEZE => s.after (execPmcFreeze (v == 1) s)
  | _ => s.setReg f i v

/-- A WO bit is written as 1. -/
def State.writeWo (s : State) (f : Fld) (i : Nat) : State :=
  match f with
  | .HALL_HP_CTRL_RETRAIN => s.after (execRetrain s)
  | .PRC_RES_CFG1_TEST_NOW => s.after (execTestNow s)
  | .STR_CTRL_ABORT => s.after (execAbort (Fin.ofNat 256 i) s)
  | .FBX_CTRL_OFF_REQ => s.after (execOffReqWrite s)
  | .PRC_SLUMBER_SLUMBER_REQ => s.after (execSlumberReq s)
  | .PRC_SLUMBER_WAKE => s.after (execWakeWrite s)
  | .FLT_CTRL_REARM => s.after (execRearm s)
  | .FLT_CTRL_TRAP_DONE => s.after (execTrapDone none s)
  | .FLT_WCTRL_TRAP_DONE => s.after (execTrapDone (some (Fin.ofNat 8 i)) s)
  | .PMC_CTRL_SNAP_NOW => s.after (execSnapNow s)
  | .PMC_CTRL_ARM => s.after (execArm s)
  | .PMC_CTRL_DISARM => s.after (execDisarm s)
  | _ => s

/-- The bits of a register that a write reaches, and the value it gives them, by quadrant (R5, R7, R546). -/
def quadrant (quad : Nat) (lanes value old : Word) : Word × Word :=
  let v := value &&& lanes
  match quad with
  | 0 => (lanes, v)
  | 1 => (v, v)
  | 2 => (v, 0)
  | _ => (v, ~~~old &&& v)

/-- The bits of a field in its register. -/
def FldDesc.mask (d : FldDesc) : Word := BitVec.ofNat 64 ((2 ^ d.width - 1) * 2 ^ d.lo)

/-- A field of a register value. -/
def FldDesc.of (d : FldDesc) (v : Word) : Nat := v.toNat / 2 ^ d.lo % 2 ^ d.width

/-- A write that its register ignores as a whole: PRC_RES_CFG under LOCK (R309), and a PRC_IN_CFG whose VIN_OK is not
above VIN_FAIL (R464). -/
def State.writeIgnored (s : State) (f : Fld) (new : Word) : Bool :=
  match f with
  | .PRC_RES_CFG0_ICHG | .PRC_RES_CFG0_V_MIN | .PRC_RES_CFG0_DRAIN_W | .PRC_RES_CFG0_TEST_DROP | .PRC_RES_CFG0_LOCK
  | .PRC_RES_CFG1_SENSE_GAIN | .PRC_RES_CFG1_CT_PERIOD | .PRC_RES_CFG1_CHG_LIMIT => s.flag .PRC_RES_CFG0_LOCK 0
  | .PRC_IN_CFG_VIN_FAIL | .PRC_IN_CFG_VIN_OK | .PRC_IN_CFG_FAIL_TIME | .PRC_IN_CFG_HOLDOFF_MS =>
    Fld.PRC_IN_CFG_VIN_OK.desc.of new ≤ Fld.PRC_IN_CFG_VIN_FAIL.desc.of new
  | _ => false

/-- BST_CMD: the write starts the run its TARGET and KIND name; KIND 3 names none (R538). -/
def State.bstCommand (s : State) (v : Word) : State :=
  let t := Fin.ofNat 16 (Fld.BST_CMD_TARGET.desc.of v)
  match Fld.BST_CMD_KIND.desc.of v with
  | 0 => s.after (execLbist t s)
  | 1 => s.after (execMbist t s)
  | 2 => s.after (execLbistAndMbist t s)
  | _ => s

/-- A write to one register, field by field under its type (R6, R7, R546, R548, R551). -/
def State.writeReg (s : State) (requester : Nat) (p : RegPlace) (lanes value : Word) : State :=
  let old := s.regValue p
  let (reach, v) := quadrant p.quad lanes value old
  let new := (old &&& ~~~reach) ||| (v &&& reach)
  let wo := if p.quad ≤ 1 then value &&& lanes else 0
  let one := fun (s : State) (x : Fld × Nat) =>
    let d := x.1.desc
    match d.type with
    | .rw => if reach &&& d.mask == 0 || s.writeIgnored x.1 new then s else s.writeRw requester x.1 x.2 (d.of new)
    | .wo => if d.of wo = 0 then s else s.writeWo x.1 x.2
    | .ro | .rwf | .rs => s
  let order := fun (x : Fld × Nat) => bit1 (x.1 == .HALL_HMB_CTRL_ENABLE || x.1 == .PRC_RES_CFG0_LOCK)
  let s := (sortBy order p.fields).foldl one s
  if p.block == Block.bst && p.rel == 0 && p.quad ≤ 1 && lanes &&& 0xFF != 0 then s.bstCommand wo else s

/-- A write of the MSI-X table: the entry's words, and its mask bit (R95). -/
def State.writeMsix (s : State) (offset : Nat) (lanes value : Word) : State :=
  let v := (offset - 0x9000000) / 16
  let x := lookD s.hp.msixTable v 0
  let old := if offset % 16 < 8 then x.extractLsb' 0 64 else x.extractLsb' 64 64
  let new := (old &&& ~~~lanes) ||| (value &&& lanes)
  let new := if offset % 16 < 8 then new else new &&& 0xFFFFFFFF#64
  let y : BitVec 128 := if offset % 16 < 8 then (x.extractLsb' 64 64) ++ new else new ++ (x.extractLsb' 0 64)
  let s := { s with hp := { s.hp with msixTable := if y = 0 then del s.hp.msixTable v else put s.hp.msixTable v y } }
  if offset % 16 < 8 || lanes >>> 32 == 0 then s
  else if value.getLsbD 32 then
    { s with hp := { s.hp with msixUnmasked := s.hp.msixUnmasked.filter fun u => u != v } }
  else s.after (execMsixUnmask (Fin.ofNat 2048 v) s)

/-- The bits an access covers, and its value on them. -/
def Access.lanes (a : Access) : Word :=
  match a.half with | .all => BitVec.allOnes 64 | .low => 0xFFFFFFFF#64 | .high => 0xFFFFFFFF00000000#64
def Access.spread (a : Access) (v : Word) : Word := match a.half with | .high => v <<< 32 | _ => v &&& a.lanes

/-- A write of BAR0 by a management requester. -/
def State.writeBar0 (s : State) (a : Access) (v : Word) : State :=
  let at_ := a.offset / 8 * 8
  let s := s.unlatch a
  match placeOf at_ with
  | some p => if s.unreached p then s else s.writeReg a.requester p a.lanes (a.spread v)
  | none => if 0x9000000 ≤ at_ && at_ < 0x9008000 then s.writeMsix at_ a.lanes (a.spread v) else s

/-- A doorbell write as its offset and size name it (R378). -/
def State.writeDoorbell (s : State) (a : Access) (v : Word) : State :=
  let r : Requester := Fin.ofNat 4096 a.requester
  let page : Requester := Fin.ofNat 4096 (a.offset / 0x40000)
  let ring : RingNo := Fin.ofNat 64 (a.offset % 0x40000 / 0x1000)
  let wide := a.width == 8
  let word := wide || a.width == 4
  let low := v.setWidth 32
  match a.offset % 0x1000, word, wide with
  | 0x000, true, _ => s.after (execSqTail r page ring low s)
  | 0x008, true, _ => s.after (execCqHead r page ring low s)
  | 0x010, true, _ =>
    match low.toNat with
    | 1 => s.after (execRingStart r page ring s)
    | 2 => s.after (execRingStop r page ring s)
    | 3 => s.after (execRingResume r page ring s)
    | 4 => s.after (execRingReset r page ring s)
    | _ => s.doorbell r.val page.val ring.val fun s _ => s.doorbellIgnored
  | 0x018, _, true => s.after (execSemAdd r page ring v s)
  | 0x020, _, true => s.after (execEventSet r page ring v s)
  | _, _, _ => s.doorbell r.val page.val ring.val fun s _ => s.doorbellIgnored

/-- A write (R4, R93, R467, R532, R543). -/
def State.write (s : State) (a : Access) (v : Word) : State :=
  match a.path with
  | .bar0 =>
    if !s.isManagement a.requester then s.barRefused a.requester a.offset
    else if a.odd then s
    else s.writeBar0 a v
  | .bar2 => s.writeDoorbell a v
  | .bar4 => s
  | .i3c =>
    match placeOf (a.offset / 8 * 8) with
    | some p =>
      let wo := if p.quad ≤ 1 then v else 0
      p.fields.foldl
        (fun s x =>
          if (x.1 == .PRC_SLUMBER_WAKE || x.1 == .FBX_CTRL_OFF_REQ) && x.1.desc.of wo == 1 then s.writeWo x.1 x.2
          else s)
        s
    | none => s

/-! ### Accesses in order (R549, R554) -/

/-- The access acts now. -/
def State.accessNow (s : State) (a : Access) : State :=
  match a.value with
  | none => s.read a
  | some v => s.write a v

/-- An access waits behind a stalled read of its requester at its block. -/
def State.heldBack (s : State) (a : Access) : Bool :=
  a.path == .bar0 && s.stalledAt a.requester (a.offset / 2 ^ 14)

/-- The accesses that no stall holds any longer act in their order. -/
def State.releaseN : Nat → State → State
  | 0, s => s
  | n + 1, s =>
    match takeFirst (fun (a : Access) => !s.heldBack a) s.hp.behind with
    | some (a, rest) => State.releaseN n (({ s with hp := { s.hp with behind := rest } } : State).accessNow a)
    | none => s

/-- What follows the end of a stall. -/
def State.release (s : State) : State := State.releaseN s.hp.behind.length s

/-- An access arrives: over a BAR while the Hall is on, over I3C while it is off. -/
def State.access (s : State) (a : Access) : State :=
  if a.path == .i3c then (if s.porchAnswers then s.accessNow a else s)
  else if !s.pw.dev.hallOn then s
  else
    let s := s.release
    let a := { a with requester := s.requesterOf a.requester }
    if s.heldBack a then { s with hp := { s.hp with behind := s.hp.behind ++ [a] } } else s.accessNow a

/-- REGISTER_WRITE (R550). -/
def execRegisterWrite (path : Path) (requester : Requester) (offset width : Nat) (value : Word) (s : State) : Result :=
  .next (s.access { path := path, requester := requester.val, offset := offset, width := width, value := some value
                    within1us := false, fetchOk := true })

/-- REGISTER_READ (R547). -/
def execRegisterRead (path : Path) (requester : Requester) (offset width : Nat) (within1us fetchOk : Bool) (s : State) :
    Result :=
  .next (s.access { path := path, requester := requester.val, offset := offset, width := width, value := none
                    within1us := within1us, fetchOk := fetchOk })

/-- A 64-bit read of a stalling port over BAR0. -/
def State.readPort (s : State) (requester offset : Nat) (fetchOk : Bool) : State :=
  s.access { path := .bar0, requester := requester, offset := offset, width := 8, value := none, within1us := false
             fetchOk := fetchOk }

/-- FLT_EVQ (R494). -/
def execFltEvq (queue : Option Wing) (requester : Requester) (s : State) : Result :=
  .next (s.readPort requester.val (evqOffset (match queue with | none => 0 | some w => 1 + w.val)) true)

/-- ATC_WIN (R507). -/
def execAtcWin (i : Fin 128) (requester : Requester) (fetchOk : Bool) (s : State) : Result :=
  .next (s.readPort requester.val (0x3C800 + 8 * i.val) fetchOk)

/-- CPB_DATA (R509, R521). -/
def execCpbData (i : Fin 8) (requester : Requester) (s : State) : Result :=
  .next (s.readPort requester.val (0x40040 + 8 * i.val) true)

/-- PMC_SMP_WIN (R537). -/
def execPmcSmpWin (w : Wing) (i : Fin 8) (requester : Requester) (fetchOk : Bool) (s : State) : Result :=
  .next (s.readPort requester.val (0x1000000 * (1 + w.val) + 0x18800 + 8 * i.val) fetchOk)

end Sys2Proof.Machine
end

