-- ==== Sys2Proof/Machine/Stalls.lean ====
section
/-! DEFINITION. The commands that may end a stalled read: an event at the collector, the stall limit and the end of a
Cupboard page write (R485, R494, R509, R510). -/

namespace Sys2Proof.Machine

/-- EVENT: the oldest event on its way reaches the collector, or one that a block, a core or firmware outside the model
gives it (R485). -/
def execEvent (external : Option EventIn) (s : State) : Result :=
  if !s.collects then .next s
  else match external, s.fl.inbox with
    | some e, _ => .next (s.collect ⟨e, s.beat, false⟩).release
    | none, ev :: rest => .next (({ s with fl := { s.fl with inbox := rest } } : State).collect ev).release
    | none, [] => .next s

/-- EVQ_STALL_LIMIT: the read that has stalled longest on a queue returns a word with VALID clear. -/
def execEvqStallLimit (queue : Option Wing) (s : State) : Result :=
  let q := match queue with | none => 0 | some w => 1 + w.val
  match takeFirst (fun (r : Nat × Nat × Half) => r.1 == q) s.fl.stalled with
  | some (r, rest) =>
    .next (({ s with fl := { s.fl with stalled := rest } } : State).deliver r.2.1 (evqOffset q) r.2.2 0).release
  | none => .next s

/-- CUPBOARD_WRITE_DONE: the running page write ends and is read back (R509, R510, R515, R520). -/
def execCupboardWriteDone (matches_ : Bool) (s : State) : Result :=
  if s.cb.queue.isEmpty then .next s else .next (s.pageDone matches_).release

end Sys2Proof.Machine
end

