-- ==== Sys2Proof/Machine/Dispatch.lean ====
section
/-! DEFINITION. The dispatch: one arm for each command, each a direct call of its meaning. -/

namespace Sys2Proof.Machine

def exec (i : Instr) (s : State) : Host.Outcome State Fault Refusal :=
  match i with
  | .vstbyRise => Sys2Proof.Machine.execVstbyRise s
  | .vstbyLoss => Sys2Proof.Machine.execVstbyLoss s
  | .strapSample straps => Sys2Proof.Machine.execStrapSample straps s
  | .minimumOffTimeExpiry => Sys2Proof.Machine.execMinimumOffTimeExpiry s
  | .onRequest => Sys2Proof.Machine.execOnRequest s
  | .offRequest => Sys2Proof.Machine.execOffRequest s
  | .offReqWrite => Sys2Proof.Machine.execOffReqWrite s
  | .monitorConversion mon reading => Sys2Proof.Machine.execMonitorConversion mon reading s
  | .monitorQualified mon => Sys2Proof.Machine.execMonitorQualified mon s
  | .railFault mon => Sys2Proof.Machine.execRailFault mon s
  | .stepDelayExpiry => Sys2Proof.Machine.execStepDelayExpiry s
  | .stepTimeout => Sys2Proof.Machine.execStepTimeout s
  | .powerDownStepDelay => Sys2Proof.Machine.execPowerDownStepDelay s
  | .seqFaultRetry => Sys2Proof.Machine.execSeqFaultRetry s
  | .lrefLoss => Sys2Proof.Machine.execLrefLoss s
  | .groupSwitchDone group => Sys2Proof.Machine.execGroupSwitchDone group s
  | .floorPlanLoad env => Sys2Proof.Machine.execFloorPlanLoad env s
  | .pantryInitDone w => Sys2Proof.Machine.execPantryInitDone w s
  | .recovery => Sys2Proof.Machine.execRecovery s
  | .servingEntry waited2s => Sys2Proof.Machine.execServingEntry waited2s s
  | .vinSample reading => Sys2Proof.Machine.execVinSample reading s
  | .inputFailure => Sys2Proof.Machine.execInputFailure s
  | .reservoirExhausted => Sys2Proof.Machine.execReservoirExhausted s
  | .vinGood => Sys2Proof.Machine.execVinGood s
  | .wakeN => Sys2Proof.Machine.execWakeN s
  | .wakeWrite => Sys2Proof.Machine.execWakeWrite s
  | .wakeBeat => Sys2Proof.Machine.execWakeBeat s
  | .slumberReq => Sys2Proof.Machine.execSlumberReq s
  | .resSenseSample millivolts => Sys2Proof.Machine.execResSenseSample millivolts s
  | .reservoirReady => Sys2Proof.Machine.execReservoirReady s
  | .chgLimitExpiry => Sys2Proof.Machine.execChgLimitExpiry s
  | .reservoirAbsent => Sys2Proof.Machine.execReservoirAbsent s
  | .resNtcSample ohms => Sys2Proof.Machine.execResNtcSample ohms s
  | .chargeTestStart => Sys2Proof.Machine.execChargeTestStart s
  | .chargeTestFallEnd drop10mV ms => Sys2Proof.Machine.execChargeTestFallEnd drop10mV ms s
  | .chargeTestRiseEnd ms => Sys2Proof.Machine.execChargeTestRiseEnd ms s
  | .chargeTestRiseTimeout => Sys2Proof.Machine.execChargeTestRiseTimeout s
  | .testNow => Sys2Proof.Machine.execTestNow s
  | .sensorConversion ts count => Sys2Proof.Machine.execSensorConversion ts count s
  | .stageStep => Sys2Proof.Machine.execStageStep s
  | .rbeatEdge interval10ns => Sys2Proof.Machine.execRbeatEdge interval10ns s
  | .missingBeat => Sys2Proof.Machine.execMissingBeat s
  | .checkpoint => Sys2Proof.Machine.execCheckpoint s
  | .descriptorRewrite c p line copy => Sys2Proof.Machine.execDescriptorRewrite c p line copy s
  | .cupboardAnchor => Sys2Proof.Machine.execCupboardAnchor s
  | .atticFlush => Sys2Proof.Machine.execAtticFlush s
  | .healthSample => Sys2Proof.Machine.execHealthSample s
  | .bucketLeak => Sys2Proof.Machine.execBucketLeak s
  | .sketchDecay w => Sys2Proof.Machine.execSketchDecay w s
  | .scrubPassStart w => Sys2Proof.Machine.execScrubPassStart w s
  | .ageUnitTick => Sys2Proof.Machine.execAgeUnitTick s
  | .counterSnapshot => Sys2Proof.Machine.execCounterSnapshot s
  | .cadenceFrame w => Sys2Proof.Machine.execCadenceFrame w s
  | .programSlot c macFails readOk => Sys2Proof.Machine.execProgramSlot c macFails readOk s
  | .writeBackSelection w => Sys2Proof.Machine.execWriteBackSelection w s
  | .mediaReadData c p frame ml reads arrived => Sys2Proof.Machine.execMediaReadData c p frame ml reads arrived s
  | .doneNLow c => Sys2Proof.Machine.execDoneNLow c s
  | .statusRecord c p done verifyFail crcFail flags crcOk => Sys2Proof.Machine.execStatusRecord c p done verifyFail crcFail flags crcOk s
  | .suspendOp c tag => Sys2Proof.Machine.execSuspendOp c tag s
  | .bankSuspended c tag => Sys2Proof.Machine.execBankSuspended c tag s
  | .tempRead c p temp => Sys2Proof.Machine.execTempRead c p temp s
  | .alertN c => Sys2Proof.Machine.execAlertN c s
  | .mediaTimeout c p kind => Sys2Proof.Machine.execMediaTimeout c p kind s
  | .frameMigrationSwitch room page => Sys2Proof.Machine.execFrameMigrationSwitch room page s
  | .promotionDone room page => Sys2Proof.Machine.execPromotionDone room page s
  | .larderReadData room page line item outcome mirrorOutcome arrived => Sys2Proof.Machine.execLarderReadData room page line item outcome mirrorOutcome arrived s
  | .larderPatrolScrub w burst outcome eccCounts => Sys2Proof.Machine.execLarderPatrolScrub w burst outcome eccCounts s
  | .larderTempRead w device celsius4 => Sys2Proof.Machine.execLarderTempRead w device celsius4 s
  | .pacedWriteAdmit w => Sys2Proof.Machine.execPacedWriteAdmit w s
  | .logEntryApply w => Sys2Proof.Machine.execLogEntryApply w s
  | .corridorPacket m crcOk => Sys2Proof.Machine.execCorridorPacket m crcOk s
  | .laneRepair m => Sys2Proof.Machine.execLaneRepair m s
  | .linkTraining partner => Sys2Proof.Machine.execLinkTraining partner s
  | .trainingRetry => Sys2Proof.Machine.execTrainingRetry s
  | .linkRecovery => Sys2Proof.Machine.execLinkRecovery s
  | .linkL0 => Sys2Proof.Machine.execLinkL0 s
  | .flitReplay n => Sys2Proof.Machine.execFlitReplay n s
  | .dlDown => Sys2Proof.Machine.execDlDown s
  | .perstN => Sys2Proof.Machine.execPerstN s
  | .retrain => Sys2Proof.Machine.execRetrain s
  | .viral => Sys2Proof.Machine.execViral s
  | .memRd q mv => Sys2Proof.Machine.execMemRd q mv s
  | .memRdData q => Sys2Proof.Machine.execMemRdData q s
  | .memWr q mv data poison => Sys2Proof.Machine.execMemWr q mv data poison s
  | .memWrPtl q mv data enables poison => Sys2Proof.Machine.execMemWrPtl q mv data enables poison s
  | .memInv q mv => Sys2Proof.Machine.execMemInv q mv s
  | .memInvNt q mv => Sys2Proof.Machine.execMemInvNt q mv s
  | .uioRead q length => Sys2Proof.Machine.execUioRead q length s
  | .uioWrite q bytes => Sys2Proof.Machine.execUioWrite q bytes s
  | .biRsp requester room page line => Sys2Proof.Machine.execBiRsp requester room page line s
  | .bisnpResend requester room page line => Sys2Proof.Machine.execBisnpResend requester room page line s
  | .requesterFailed requester => Sys2Proof.Machine.execRequesterFailed requester s
  | .globalPersistentFlush phase => Sys2Proof.Machine.execGlobalPersistentFlush phase s
  | .atomicDescriptor requester room slot data => Sys2Proof.Machine.execAtomicDescriptor requester room slot data s
  | .refillRound => Sys2Proof.Machine.execRefillRound s
  | .ideKeyProgram stream => Sys2Proof.Machine.execIdeKeyProgram stream s
  | .spdmGetMeasurements index => Sys2Proof.Machine.execSpdmGetMeasurements index s
  | .msixDestValid v => Sys2Proof.Machine.execMsixDestValid v s
  | .msixUnmask v => Sys2Proof.Machine.execMsixUnmask v s
  | .identify from_ => Sys2Proof.Machine.execIdentify from_ s
  | .getEventRecords from_ log => Sys2Proof.Machine.execGetEventRecords from_ log s
  | .clearEventRecords from_ log => Sys2Proof.Machine.execClearEventRecords from_ log s
  | .getEventInterruptPolicy from_ => Sys2Proof.Machine.execGetEventInterruptPolicy from_ s
  | .setEventInterruptPolicy from_ policy => Sys2Proof.Machine.execSetEventInterruptPolicy from_ policy s
  | .getFwInfo from_ => Sys2Proof.Machine.execGetFwInfo from_ s
  | .transferFw from_ => Sys2Proof.Machine.execTransferFw from_ s
  | .activateFw from_ => Sys2Proof.Machine.execActivateFw from_ s
  | .getTimestamp from_ => Sys2Proof.Machine.execGetTimestamp from_ s
  | .setTimestamp from_ => Sys2Proof.Machine.execSetTimestamp from_ s
  | .getSupportedLogs from_ => Sys2Proof.Machine.execGetSupportedLogs from_ s
  | .getLog from_ => Sys2Proof.Machine.execGetLog from_ s
  | .identifyMemoryDevice from_ => Sys2Proof.Machine.execIdentifyMemoryDevice from_ s
  | .getPartitionInfo from_ => Sys2Proof.Machine.execGetPartitionInfo from_ s
  | .getHealthInfo from_ => Sys2Proof.Machine.execGetHealthInfo from_ s
  | .getAlertConfiguration from_ => Sys2Proof.Machine.execGetAlertConfiguration from_ s
  | .setAlertConfiguration from_ spare wear temp => Sys2Proof.Machine.execSetAlertConfiguration from_ spare wear temp s
  | .getPoisonList from_ room => Sys2Proof.Machine.execGetPoisonList from_ room s
  | .injectPoison from_ room offset => Sys2Proof.Machine.execInjectPoison from_ room offset s
  | .clearPoison from_ room offset data => Sys2Proof.Machine.execClearPoison from_ room offset data s
  | .sanitize from_ => Sys2Proof.Machine.execSanitize from_ s
  | .secureErase from_ => Sys2Proof.Machine.execSecureErase from_ s
  | .getDcConfiguration from_ => Sys2Proof.Machine.execGetDcConfiguration from_ s
  | .getDcExtentList from_ => Sys2Proof.Machine.execGetDcExtentList from_ s
  | .addDcResponse requester room region base size => Sys2Proof.Machine.execAddDcResponse requester room region base size s
  | .releaseDc requester room region base size => Sys2Proof.Machine.execReleaseDc requester room region base size s
  | .imageBegin from_ slot => Sys2Proof.Machine.execImageBegin from_ slot s
  | .imageWrite from_ offset bytes => Sys2Proof.Machine.execImageWrite from_ offset bytes s
  | .imageCheck from_ => Sys2Proof.Machine.execImageCheck from_ s
  | .setDecoder from_ requester region hpaBase size ways granularity way dpaBase => Sys2Proof.Machine.execSetDecoder from_ requester region hpaBase size ways granularity way dpaBase s
  | .restoreRequester from_ requester => Sys2Proof.Machine.execRestoreRequester from_ requester s
  | .getRoomStatus from_ room => Sys2Proof.Machine.execGetRoomStatus from_ room s
  | .setManagementRequesters from_ list => Sys2Proof.Machine.execSetManagementRequesters from_ list s
  | .poolStatus from_ => Sys2Proof.Machine.execPoolStatus from_ s
  | .poolHealth from_ => Sys2Proof.Machine.execPoolHealth from_ s
  | .deliverAmendment from_ member bytes => Sys2Proof.Machine.execDeliverAmendment from_ member bytes s
  | .setQuota from_ requester bytes => Sys2Proof.Machine.execSetQuota from_ requester bytes s
  | .migrateRoom from_ room source target => Sys2Proof.Machine.execMigrateRoom from_ room source target s
  | .evacuate from_ member => Sys2Proof.Machine.execEvacuate from_ member s
  | .poolSnapshot from_ beat => Sys2Proof.Machine.execPoolSnapshot from_ beat s
  | .atticRead from_ part slot count => Sys2Proof.Machine.execAtticRead from_ part slot count s
  | .atticClear from_ part nonce member term signatureOk => Sys2Proof.Machine.execAtticClear from_ part nonce member term signatureOk s
  | .mailboxUnsupported from_ opcode => Sys2Proof.Machine.execMailboxUnsupported from_ opcode s
  | .registerWrite path requester offset width value => Sys2Proof.Machine.execRegisterWrite path requester offset width value s
  | .hmbEnable requester owner => Sys2Proof.Machine.execHmbEnable requester owner s
  | .hmbWithdrawal requester => Sys2Proof.Machine.execHmbWithdrawal requester s
  | .hmbFetchData room page macOk error => Sys2Proof.Machine.execHmbFetchData room page macOk error s
  | .hmbFetchTimeout room page => Sys2Proof.Machine.execHmbFetchTimeout room page s
  | .amendment h offset bytes => Sys2Proof.Machine.execAmendment h offset bytes s
  | .amdResult h cause amdSeq => Sys2Proof.Machine.execAmdResult h cause amdSeq s
  | .roomRemovalDone room => Sys2Proof.Machine.execRoomRemovalDone room s
  | .unitFenced u => Sys2Proof.Machine.execUnitFenced u s
  | .unitRebuilt u => Sys2Proof.Machine.execUnitRebuilt u s
  | .unitLoss u => Sys2Proof.Machine.execUnitLoss u s
  | .actingHomeServe w => Sys2Proof.Machine.execActingHomeServe w s
  | .remirrorDone w => Sys2Proof.Machine.execRemirrorDone w s
  | .parityDelta w => Sys2Proof.Machine.execParityDelta w s
  | .parityRecompute w => Sys2Proof.Machine.execParityRecompute w s
  | .watchdogExpiry core => Sys2Proof.Machine.execWatchdogExpiry core s
  | .sqTail requester page ring tail => Sys2Proof.Machine.execSqTail requester page ring tail s
  | .cqHead requester page ring head => Sys2Proof.Machine.execCqHead requester page ring head s
  | .ringStart requester page ring => Sys2Proof.Machine.execRingStart requester page ring s
  | .ringStop requester page ring => Sys2Proof.Machine.execRingStop requester page ring s
  | .ringResume requester page ring => Sys2Proof.Machine.execRingResume requester page ring s
  | .ringReset requester page ring => Sys2Proof.Machine.execRingReset requester page ring s
  | .semAdd requester page ring value => Sys2Proof.Machine.execSemAdd requester page ring value s
  | .eventSet requester page ring flags => Sys2Proof.Machine.execEventSet requester page ring flags s
  | .context requester page ring data => Sys2Proof.Machine.execContext requester page ring data s
  | .dispatch fetched => Sys2Proof.Machine.execDispatch fetched s
  | .copy ch source => Sys2Proof.Machine.execCopy ch source s
  | .zero ch => Sys2Proof.Machine.execZero ch s
  | .release ch => Sys2Proof.Machine.execRelease ch s
  | .secureRelease ch => Sys2Proof.Machine.execSecureRelease ch s
  | .prefetch ch => Sys2Proof.Machine.execPrefetch ch s
  | .pin ch => Sys2Proof.Machine.execPin ch s
  | .unpin ch => Sys2Proof.Machine.execUnpin ch s
  | .persistBarrier ch => Sys2Proof.Machine.execPersistBarrier ch s
  | .migrateOut ch => Sys2Proof.Machine.execMigrateOut ch s
  | .migrateIn ch => Sys2Proof.Machine.execMigrateIn ch s
  | .run ch header program => Sys2Proof.Machine.execRun ch header program s
  | .move ch source => Sys2Proof.Machine.execMove ch source s
  | .move2d ch source => Sys2Proof.Machine.execMove2d ch source s
  | .fill ch => Sys2Proof.Machine.execFill ch s
  | .loop ch => Sys2Proof.Machine.execLoop ch s
  | .waitInstr ch => Sys2Proof.Machine.execWaitInstr ch s
  | .beatWaitEnd ch => Sys2Proof.Machine.execBeatWaitEnd ch s
  | .waitTimeout ch => Sys2Proof.Machine.execWaitTimeout ch s
  | .signal ch => Sys2Proof.Machine.execSignal ch s
  | .persist ch => Sys2Proof.Machine.execPersist ch s
  | .commandComplete ch => Sys2Proof.Machine.execCommandComplete ch s
  | .lineRequestTimeout ch => Sys2Proof.Machine.execLineRequestTimeout ch s
  | .coalesceTimer requester ring => Sys2Proof.Machine.execCoalesceTimer requester ring s
  | .pause ch on => Sys2Proof.Machine.execPause ch on s
  | .abort ch => Sys2Proof.Machine.execAbort ch s
  | .heartbeatSend => Sys2Proof.Machine.execHeartbeatSend s
  | .heartbeat h manager e p managerIndex standby health => Sys2Proof.Machine.execHeartbeat h manager e p managerIndex standby health s
  | .heartbeatMissed peer => Sys2Proof.Machine.execHeartbeatMissed peer s
  | .takeover h => Sys2Proof.Machine.execTakeover h s
  | .termResponse h higher manager => Sys2Proof.Machine.execTermResponse h higher manager s
  | .landingRetry peer seq => Sys2Proof.Machine.execLandingRetry peer seq s
  | .generate h slot => Sys2Proof.Machine.execGenerate h slot s
  | .importKey h slot record => Sys2Proof.Machine.execImportKey h slot record s
  | .exportKey h slot => Sys2Proof.Machine.execExportKey h slot s
  | .destroy h slot => Sys2Proof.Machine.execDestroy h slot s
  | .escrowKey h key => Sys2Proof.Machine.execEscrowKey h key s
  | .nonceRequest h => Sys2Proof.Machine.execNonceRequest h s
  | .clearToken h part nonce member tokenTerm signatureOk => Sys2Proof.Machine.execClearToken h part nonce member tokenTerm signatureOk s
  | .snapshotMsg h beat => Sys2Proof.Machine.execSnapshotMsg h beat s
  | .migrateBegin h room source target => Sys2Proof.Machine.execMigrateBegin h room source target s
  | .migrateCutover h room close => Sys2Proof.Machine.execMigrateCutover h room close s
  | .migrationRoundEnd sendBytesPerMs writtenBytes => Sys2Proof.Machine.execMigrationRoundEnd sendBytesPerMs writtenBytes s
  | .freezeTimeout => Sys2Proof.Machine.execFreezeTimeout s
  | .pageRelease h room pages => Sys2Proof.Machine.execPageRelease h room pages s
  | .mirrorMsg h delta => Sys2Proof.Machine.execMirrorMsg h delta s
  | .event external => Sys2Proof.Machine.execEvent external s
  | .collectorFault => Sys2Proof.Machine.execCollectorFault s
  | .rearm => Sys2Proof.Machine.execRearm s
  | .trapDone wing => Sys2Proof.Machine.execTrapDone wing s
  | .force source on => Sys2Proof.Machine.execForce source on s
  | .bucketEnClear source => Sys2Proof.Machine.execBucketEnClear source s
  | .fltEvq queue requester => Sys2Proof.Machine.execFltEvq queue requester s
  | .evqStallLimit queue => Sys2Proof.Machine.execEvqStallLimit queue s
  | .atcWin index_ requester fetchOk => Sys2Proof.Machine.execAtcWin index_ requester fetchOk s
  | .cpbData index_ requester => Sys2Proof.Machine.execCpbData index_ requester s
  | .cupboardWriteDone matches_ => Sys2Proof.Machine.execCupboardWriteDone matches_ s
  | .pmcFreeze on => Sys2Proof.Machine.execPmcFreeze on s
  | .snapNow => Sys2Proof.Machine.execSnapNow s
  | .arm => Sys2Proof.Machine.execArm s
  | .disarm => Sys2Proof.Machine.execDisarm s
  | .pmcWin block index_ value => Sys2Proof.Machine.execPmcWin block index_ value s
  | .counterWrap counter => Sys2Proof.Machine.execCounterWrap counter s
  | .pmcSmpWin w index_ requester fetchOk => Sys2Proof.Machine.execPmcSmpWin w index_ requester fetchOk s
  | .pmcSmpPtr w next => Sys2Proof.Machine.execPmcSmpPtr w next s
  | .lbist target => Sys2Proof.Machine.execLbist target s
  | .mbist target => Sys2Proof.Machine.execMbist target s
  | .lbistAndMbist target => Sys2Proof.Machine.execLbistAndMbist target s
  | .bistDone target lbistMisr mbistMisr => Sys2Proof.Machine.execBistDone target lbistMisr mbistMisr s
  | .hotReset => Sys2Proof.Machine.execHotReset s
  | .registerRead path requester offset width within1us fetchOk => Sys2Proof.Machine.execRegisterRead path requester offset width within1us fetchOk s
  | .spdmSessionSetup peer authenticated rootOk fuseHashesEqual => Sys2Proof.Machine.execSpdmSessionSetup peer authenticated rootOk fuseHashesEqual s
  | .larderTrainingDone w ok => Sys2Proof.Machine.execLarderTrainingDone w ok s
  | .blockResetDone source ident => Sys2Proof.Machine.execBlockResetDone source ident s
  | .groupSwitchTimeout group => Sys2Proof.Machine.execGroupSwitchTimeout group s
  | .backgroundCommandDone => Sys2Proof.Machine.execBackgroundCommandDone s

end Sys2Proof.Machine
end

