-- ==== Sys2Proof/Safety.lean ====
section
/-! DEFINITION. What counts as a safe state: the register table and the memories in their canonical forms, and a queue of
well-formed commands. -/

namespace Sys2Proof

open Machine

/-- An entry of the register table: an instance of a field, with a value that fits the field's width (R4, R6) and is not
the one the field has after reset. -/
def RegEntryOk (p : Nat × Nat) : Prop :=
  ∃ (f : Fld) (i : Nat), p.1 = f.key i ∧ p.2 < 2 ^ f.desc.width ∧ p.2 ≠ f.init

/-- The register table is in canonical form: keys strictly rising, every entry one of the spec's fields within its width,
none at its value after reset. -/
def RegsOk (m : SMap Nat) : Prop := SortedKeys m ∧ ∀ p ∈ m, RegEntryOk p

/-- The boot flash is in canonical form: addresses strictly rising, no listed byte erased (R26). -/
def FlashOk (cells : List Host.Cell) : Prop := SortedKeys cells ∧ ∀ c ∈ cells, c.2 ≠ 0xFF#8

/-- The page table is in canonical form: keys strictly rising, no listed page with nothing stored (R118, R321). -/
def PagesOk (m : SMap Page) : Prop := SortedKeys m ∧ ∀ p ∈ m, p.2 ≠ Page.blank

/-- The Cupboard's pages are in canonical form: numbers strictly rising, no listed page erased (R508). -/
def CupboardOk (m : SMap (BitVec 512)) : Prop := SortedKeys m ∧ ∀ p ∈ m, p.2 ≠ BitVec.allOnes 512

/-- The device's memories are in canonical form, so that equal memories are equal data: pages with their Larder lines and
mirrors, Pantry slices, frames on the media, the Cupboard and the boot flash. -/
structure MemoryOk (s : State) : Prop where
  pages : PagesOk s.ti.pages
  pantry : SortedKeys s.ti.pantry
  frames : SortedKeys s.md.frames
  cupboard : CupboardOk s.cb.pages
  flash : FlashOk s.flash.cells

/-- The queue of a safe run holds only well-formed commands. -/
def PendingOk (s : State) : Prop := ∀ c ∈ s.pending, c.wellFormed = true

/-! ### Words of the statements -/

/-- Every register outside a list reads in `t` as it reads in `s`. -/
def SameRegs (but : List (Fld × Nat)) (s t : State) : Prop := ∀ f i, (f, i) ∉ but → t.reg f i = s.reg f i

/-- A request passes the checks of R71 and waits for its credit: the link is up, the device serves, the request's IDE
check passed and its stream is secure, its requester has not failed, a decoder of the requester takes the host address to
a DPA of a room, and the requester may access both ends of the request there. -/
structure PortPasses (s : State) (q : HostReq) (kind : ReqKind) (length region dpa room : Nat) (r : Room) : Prop where
  link : s.hp.link = .l0
  serving : s.pw.dev = .serving
  checked : q.ideOk = true
  secure : s.insecure kind.uio = false
  alive : s.requesterOf q.requester ∉ s.hp.failed
  decodes : s.decodeHpa (s.requesterOf q.requester) q.hpa.toNat = some (region, dpa)
  at_ : s.roomAt dpa = some room
  present : s.room room = some r
  first : s.mayAccess (s.requesterOf q.requester) region dpa = some room
  last : s.mayAccess (s.requesterOf q.requester) region (dpa + length - 1) = some room

/-- The counters of a request's arrival (R523). -/
def Machine.State.arrived (s : State) (kind : ReqKind) : State := ((s.count kind.counter 1).count 128 1).count 0 1

/-- A mailbox command reaches the mailbox (R100): the Hall has power, and it comes over Landing or from a management
requester. -/
def MayCommand (s : State) (f : Sender) : Prop :=
  s.pw.dev.hallOn = true ∧ (f.landing = true ∨ s.isManagement (s.requesterOf f.requester) = true)

/-- A doorbell write reaches a ring (R36, R93): the Hall has power, the page is the requester's own, and the ring is one
that the RINGS section gives it. -/
def RingDoorbell (s : State) (requester page : Requester) (ring : RingNo) : Prop :=
  s.pw.dev.hallOn = true ∧ s.requesterOf requester = page.val ∧ s.ringExists page ring = true

/-- A Stair channel runs a command with an opcode (R386, R406, R408): the command is not over, the device serves, the
channel's wing is in service and the channel is not paused. -/
def OnChannel (s : State) (ch : StairCh) (op : Nat) (c : Channel) : Prop :=
  look s.rg.chans ch = some c ∧ c.done = false ∧ (stairCmd c.cmd).op = op ∧ s.channelRuns ch = true

/-- A Landing request is acted on (R413 to R415, R420): it reaches the agent, it is neither answered already nor older
than the answers kept, its pool is the device's, and its term is not below the highest seen. -/
def LandingPasses (s : State) (h : Hdr) : Prop :=
  s.landingReaches h = true ∧ (∀ x ∈ lookD s.pl.answered h.src [], x.seq ≠ h.seq) ∧
    olderSeq h.seq (lookD s.pl.answered h.src []) = false ∧ (s.plan.isSome = true → h.poolId.toNat = s.pl.poolId) ∧
    s.term ≤ h.term.toNat

/-- The state a Landing request acts on: it is counted, and its term is recorded when it is the highest (R411, R420). -/
def Machine.State.taken (s : State) (h : Hdr) : State := (s.count 321 1).learnTerm h.term.toNat

/-- A pool command comes to the manager of the pool (R428). -/
def MayManage (s : State) (f : Sender) : Prop := MayCommand s f ∧ s.isManager = true

/-- A requester's BAR0 accesses act (R543, R554): the Hall has power, it is a management requester, and neither a stalled
read of it nor an access behind one waits. -/
structure MayAccess (s : State) (r : Requester) : Prop where
  hallOn : s.pw.dev.hallOn = true
  management : s.isManagement (s.requesterOf r) = true
  behind : s.hp.behind = []
  events : ∀ x ∈ s.fl.stalled, x.2.1 ≠ s.requesterOf r
  pages : ∀ x ∈ s.cb.waiting, x.2.2.1 ≠ s.requesterOf r

/-- The state in which a BAR0 access of a requester at an offset acts: the latch of its block is over (R547). -/
def Machine.State.unlatched (s : State) (r : Requester) (offset : Nat) : State :=
  { s with hp := { s.hp with highLatch := del s.hp.highLatch (s.requesterOf r * 2 ^ 20 + offset / 2 ^ 14) } }

/-- The field of a register that stalls, is fetched, or is read under rules of its own. -/
def ownRead (f : Fld) : Bool :=
  [.PMC_WIN_VALUE, .FLT_EVQ_ITEM, .ATC_WIN_WORD, .CPB_DATA_WORD, .PMC_SMP_WIN_WORD, .PRC_RT_FRAC,
    .HALL_SVC_STATE].contains f

/-- The field of a register whose write does more than store it, or that a lock may hold (R309, R464, R546). -/
def ownWrite (f : Fld) : Bool :=
  [.HALL_HMB_CTRL_ENABLE, .HALL_MSIX_DEST_VALID, .FLT_SRC_FORCE, .FLT_SRC_BUCKET_EN, .PMC_WIN_VALUE, .PMC_SMP_PTR_NEXT,
    .PMC_CTRL_FREEZE, .PRC_RES_CFG0_ICHG, .PRC_RES_CFG0_V_MIN, .PRC_RES_CFG0_DRAIN_W, .PRC_RES_CFG0_TEST_DROP,
    .PRC_RES_CFG0_LOCK, .PRC_RES_CFG1_SENSE_GAIN, .PRC_RES_CFG1_CT_PERIOD, .PRC_RES_CFG1_CHG_LIMIT, .PRC_IN_CFG_VIN_FAIL,
    .PRC_IN_CFG_VIN_OK, .PRC_IN_CFG_FAIL_TIME, .PRC_IN_CFG_HOLDOFF_MS].contains f

end Sys2Proof
end

