-- ==== Sys2Proof/Certificates/Slice0/Obligations.lean ====
section
/-! DEFINITION. The statements for the provers: what each command does, family by family; the rules of the register file, the
boot flash and the queue; and what every step keeps. -/

open Sys2Proof Sys2Proof.Machine

/-- The supply and the requests of the case (R439, R451, R564): where VSTBY comes and goes, what the straps leave, and
what an on or off request does while the device is off. -/
def Obligations.SupplyCommands : Prop :=
  (∀ s : State, s.pw.dev = .noVstby → ∃ t, exec .vstbyRise s = .next t ∧ t.pw.dev = .off ∧
      t.pw.pwrOn = s.pw.pwrOn ∧ (∀ f i, t.reg f i = f.init) ∧
      t = { s with regs := [], pw := t.pw, res := t.res, rt := State.reset.rt }) ∧
  (∀ s : State, s.pw.dev ≠ .noVstby → ∃ t, exec .vstbyLoss s = .next t ∧ t.pw.dev = .noVstby ∧ t.pw.enables = 0 ∧
      t.pw.highZ = true ∧ (∀ f i, t.reg f i = f.init) ∧ t.plan = none ∧ t.hp.link = .down ∧ t.at_.buffer = [] ∧
      t.at_.parts = s.at_.parts ∧ t.md.frames = s.md.frames ∧ t.flash.cells = s.flash.cells ∧ t.out = s.out) ∧
  (∀ (s : State) (v : BitVec 8), s.pw.dev ≠ .noVstby → s.pw.straps = none → ∃ t, exec (.strapSample v) s = .next t ∧
      t.pw = { s.pw with straps := some (if v.toNat / 64 == 1 then v &&& 0x3F#8 else v), highZ := false } ∧
      t = { s with pw := t.pw, regs := t.regs } ∧ SameRegs [(.PRC_RES_STATUS_CHG_EN, 0)] s t) ∧
  (∀ s : State, s.pw.dev = .off → s.pw.enables = 0 → s.pw.straps.isSome → s.pw.pwrOn = false → s.pw.wakeLatched = false →
      s.flag .FBX_SEQ_ON_LATCHED 0 = false →
      exec .minimumOffTimeExpiry s =
        .next { s with pw := { s.pw with minOffDone := true, dev := .standby, previous := .off } }) ∧
  (∀ s : State, s.pw.dev = .off → exec .onRequest s =
      .next ((({ s with pw := { s.pw with pwrOn := true } } : State).setReg .FBX_SEQ_RETRIES_LEFT 0 s.retries).setFlag
        .FBX_SEQ_ON_LATCHED 0 true)) ∧
  (∀ s : State, s.pw.dev = .off ∨ s.pw.dev = .standby → exec .offRequest s =
      .next (({ s with pw := { s.pw with pwrOn := false, wakeLatched := false, chipReset := false } } : State).setFlag
        .FBX_SEQ_ON_LATCHED 0 false)) ∧
  (∀ s : State, s.pw.dev = .recovery → exec .offReqWrite s =
      .next ((s.setFlag .FBX_SEQ_OFF_LATCHED 0 true).setFlag .FBX_SEQ_ON_LATCHED 0 false))

/-- Powering up and down (R447 to R450, R457, R552): what entry to POWERING leaves, the next step, a step that times out,
the reversal, the retry, and the switching of a power-domain group. -/
def Obligations.SequencerCommands : Prop :=
  (∀ s : State, RegsOk s.regs →
    s.enterPowering.pw.dev = .powering ∧ s.enterPowering.pw.previous = s.pw.dev ∧
    s.enterPowering.pw.enables = s.pw.enables ||| 1#48 ∧ s.enterPowering.pw.wakeLatched = false ∧
    s.enterPowering.reg .FBX_SEQ_STEP 0 = 1 ∧ s.enterPowering.flag .FBX_SEQ_HALL 0 = true ∧
    s.enterPowering.reg .FBX_SEQ_PHASE 0 = 1 ∧ s.enterPowering.reg .HALL_STATE_HALT_CAUSE 0 = 0 ∧
    s.enterPowering.reg .FBX_SEQ_RETRIES_LEFT 0 = s.reg .FBX_SEQ_RETRIES_LEFT 0 ∧
    s.enterPowering.reg .PRC_IN_STATUS_VIN 0 = s.reg .PRC_IN_STATUS_VIN 0 ∧
    s.enterPowering.beat = s.beat ∧ s.enterPowering = { s with regs := s.enterPowering.regs, pw := s.enterPowering.pw }) ∧
  ((∀ s : State, s.poweringUp = true → s.pw.delaying = true → s.flag .FBX_SEQ_HALL 0 = true →
      s.reg .FBX_SEQ_STEP 0 < 4 → RegsOk s.regs →
      ∃ t, exec .stepDelayExpiry s = .next t ∧ t.reg .FBX_SEQ_STEP 0 = s.reg .FBX_SEQ_STEP 0 + 1 ∧
        t.pw.enables = s.pw.enables ||| (hallStep (s.reg .FBX_SEQ_STEP 0 + 1)).enable ∧ t.pw.dev = s.pw.dev ∧
        t = { s with regs := t.regs, pw := t.pw }) ∧
  (∀ s : State, (s.pw.dev = .powering ∨ s.pw.dev = .boot) → s.stepWaits = true → s.flag .FBX_SEQ_OFF_LATCHED 0 = false →
      exec .stepTimeout s =
        .next ((({ s with pw := { s.pw with timeouts := s.pw.timeouts ++ [s.lateMonitor] } } : State).satReg
          .FBX_RAILCNT_SEQ_TIMEOUTS s.lateMonitor 1).sequenceFault s.lateMonitor)) ∧
  (∀ s : State, s.reg .FBX_SEQ_PHASE 0 = 2 ∨ s.reg .FBX_SEQ_PHASE 0 = 3 → s.pw.delaying = true →
      1 < s.reg .FBX_SEQ_STEP 0 → exec .powerDownStepDelay s =
        .next ((s.setReg .FBX_SEQ_STEP 0 (s.reg .FBX_SEQ_STEP 0 - 1)).dropStep (s.flag .FBX_SEQ_HALL 0)
          (s.reg .FBX_SEQ_STEP 0 - 1))) ∧
  (∀ s : State, s.pw.dev = .seqFault → s.reg .FBX_SEQ_PHASE 0 = 0 → s.reg .FBX_SEQ_RETRIES_LEFT 0 ≠ 0 →
      exec .seqFaultRetry s = .next (s.setReg .FBX_SEQ_RETRIES_LEFT 0 (s.reg .FBX_SEQ_RETRIES_LEFT 0 - 1)).enterPowering) ∧
  (∀ (s : State) (g : Fin 46) (on : Bool) (rest : List (Nat × Bool)), s.pw.switching = (g.val, on) :: rest →
      RegsOk s.regs → ∃ t, exec (.groupSwitchDone g) s = .next t ∧ t.pw.switching = rest ∧
        (t.flag .FBX_PD_SWITCHING 0 = !rest.isEmpty) ∧
        t = { s with regs := t.regs, pw := { s.pw with switching := rest } } ∧
        SameRegs [(.FBX_PD_ON, 0), (.FBX_PD_SWITCHING, 0)] s t))

/-- Rail monitors (R443, R444, R447, R453, R459, R571): a conversion, a monitor that qualifies, and the fault that an
excursion longer than the glitch filter, or the loss of the local reference, is. -/
def Obligations.RailMonitors : Prop :=
  (∀ (s : State) (m : Mon) (v : BitVec 12), s.pw.dev ≠ .noVstby → s.monEnabled m = true → RegsOk s.regs →
      SortedKeys s.pw.outside → ∃ t, exec (.monitorConversion m v) s = .next t ∧ t.reg .FBX_MON_READING m = v.toNat ∧
      let out := v.toNat < s.reg .FBX_MON_LOW m || s.reg .FBX_MON_HIGH m < v.toNat
      t.flag .FBX_MON_OUTSIDE m = out ∧
      lookD t.pw.outside m 0 = (if out then min (lookD s.pw.outside m 0 + 1) 256 else 0) ∧
      t = { s with regs := t.regs, pw := { s.pw with outside := t.pw.outside } } ∧
      SameRegs [(.FBX_MON_READING, m.val), (.FBX_MON_OUTSIDE, m.val)] s t) ∧
  (∀ (s : State) (m : Mon), s.reg .FBX_MON_STATE m = 1 → s.flag .FBX_MON_OUTSIDE m = false → s.poweringUp = false →
      exec (.monitorQualified m) s =
        .next { s.setReg .FBX_MON_STATE m 2 with pw := { s.pw with outside := del s.pw.outside m } }) ∧
  (∀ (s : State) (m : Mon), s.reg .FBX_MON_STATE m = 2 → s.reg .FBX_MON_GLITCH m < lookD s.pw.outside m 0 →
      s.pw.dev ≠ .draining → exec (.railFault m) s =
        .next (s.railFault m (if s.reg .FBX_MON_READING m < s.reg .FBX_MON_LOW m then 2 else 3))) ∧
  (∀ s : State, s.pw.dev ∈ [DevState.powering, .boot, .recovery, .serving, .draining] →
      exec .lrefLoss s = .next (s.railFault 32 4))

/-- The reservoir's commands (R291 to R296, R309): what moves it between its states, and its charge test. -/
def Obligations.ReservoirCommands : Prop :=
  (∀ (s : State) (mv : Nat), s.pw.dev ≠ .noVstby → exec (.resSenseSample mv) s =
      .next (s.setReg .PRC_RES_STATUS_VOLTS 0 (min (mv * s.reg .PRC_RES_CFG1_SENSE_GAIN 0 / 2560) 65535))) ∧
  (∀ s : State, s.res.st = .charging → s.flag .PRC_RES_STATUS_CHG_EN 0 = true →
      exec .reservoirReady s =
          .next (({ s with res := { s.res with vFull := some (s.reg .PRC_RES_STATUS_VOLTS 0) } } : State).setReservoir .ready) ∧
        exec .chgLimitExpiry s = .next (s.reservoirFails 1 false) ∧
        (s.reg .PRC_RES_STATUS_VOLTS 0 < 50 → exec .reservoirAbsent s = .next (s.setReservoir .absent))) ∧
  (∀ (s : State) (ohms : Nat), s.pw.dev ≠ .noVstby → s.res.st = .charging ∨ s.res.st = .ready →
      let t := Config.ntcTemp ohms (s.reg .PRC_NTC_NTC_B 0) (10 * s.reg .PRC_NTC_NTC_NOM 0)
      let s' := s.setReg .PRC_RES_STATUS_TEMP 0 (unsignedOf 16 t)
      exec (.resNtcSample ohms) s = .next (if ohms < 10 ∨ 10000000 < ohms ∨ t < -160 ∨ 500 < t then s.reservoirFails 3 true
        else if s'.inChargeWindow then s' else s'.setReservoir .held)) ∧
  (∀ s : State, s.res.st = .ready → s.flag .PRC_RES_STATUS_CHG_EN 0 = true →
      exec .testNow s = .next s.startTest ∧ (s.res.testDue = true → exec .chargeTestStart s = .next s.startTest)) ∧
  (∀ s : State, s.res.st = .absent ∨ s.res.st = .failed → exec .testNow s = .next s.recharge) ∧
  (∀ (s : State) (drop ms : Nat), s.res.st = .testing → s.res.rising = false → s.res.testDrop ≤ drop →
      exec (.chargeTestFallEnd drop ms) s = .next ({ s with
        res := { s.res with rising := true, fallDrop := s.res.testDrop, fallMs := ms } } : State).charger) ∧
  (∀ s : State, s.res.st = .testing → s.res.rising = true → exec .chargeTestRiseTimeout s = .next (s.reservoirFails 2 false)) ∧
  (∀ (s : State) (ms : Nat), s.res.st = .testing → s.res.rising = true → ms ≤ 60000 → s.pw.dev = .standby →
      exec (.chargeTestRiseEnd ms) s =
        let c := min (2 ^ 32 - 1) (capacitance s.res.testIchg s.res.fallDrop s.res.fallMs ms)
        let t : State := { s with res := { s.res with stored := some (c, s.res.vFull.getD 0), rising := false } }
        let t := (t.setReg .PRC_RES_MEAS_CAP 0 c).setFlag .PRC_RES_STATUS_INCONCLUSIVE 0 false
        let t := (t.setReg .PRC_RES_TEST_LAST_BEAT 0 t.beat).satReg .PRC_RES_TEST_TESTS 0 1
        .next ((t.emit srcChargeTest).setReservoir .ready))

/-- The input, the hold-off and the wake (R460 to R466): the median of three samples, a failure and what it starts while
the device is off or asleep, and the conditions that wake it. -/
def Obligations.InputCommands : Prop :=
  (∀ (s : State) (v : BitVec 12) (a b : Nat) (rest : List Nat), s.pw.dev ≠ .noVstby → s.pw.vinHistory = a :: b :: rest →
      let m := max (min v.toNat a) (min (max v.toNat a) b)
      let t : State := { s with pw := { s.pw with vinHistory := [v.toNat, a, b] } }
      let t := t.setReg .PRC_IN_STATUS_VIN 0 m
      m < s.reg .PRC_IN_CFG_VIN_FAIL 0 → s.reg .PRC_IN_CFG_VIN_FAIL 0 ≤ s.reg .PRC_IN_CFG_VIN_OK 0 →
      exec (.vinSample v) s = .next { t.setFlag .PRC_IN_STATUS_VIN_GOOD 0 false with
        pw := { t.pw with vinLow := s.pw.vinLow + 1 } }) ∧
  (∀ s : State, s.pw.dev = .standby → s.pw.failLimit ≠ 0 → s.reg .PRC_IN_STATUS_VIN 0 < s.reg .PRC_IN_CFG_VIN_FAIL 0 →
      exec .inputFailure s = .next ((({ s with pw := { s.pw with failLimit := 0 } } : State).satReg
        .PRC_IN_STATUS_FAILS 0 1).emit srcInputFailure)) ∧
  (∀ s : State, s.pw.dev = .serving → s.pw.failLimit ≠ 0 → s.reg .PRC_IN_STATUS_VIN 0 < s.reg .PRC_IN_CFG_VIN_FAIL 0 →
      exec .inputFailure s = .next (((({ s with pw := { s.pw with failLimit := 0 } } : State).satReg
        .PRC_IN_STATUS_FAILS 0 1).emit srcInputFailure).drainStart 0 .off)) ∧
  (∀ s : State, 1 ≤ s.reg .HALL_DRAIN_STATUS_STEP 0 → s.reg .HALL_DRAIN_STATUS_STEP 0 < 7 →
      s.reg .PRC_RES_STATUS_VOLTS 0 ≤ s.reg .PRC_RES_CFG0_V_MIN 0 → exec .reservoirExhausted s = .next s.drainCut) ∧
  (∀ s : State, s.pw.dev ≠ .noVstby → s.reg .PRC_IN_CFG_VIN_OK 0 ≤ s.reg .PRC_IN_STATUS_VIN 0 →
      exec .vinGood s = .next (s.setFlag .PRC_IN_STATUS_VIN_GOOD 0 true).tryPower) ∧
  (∀ s : State, s.pw.dev = .slumber →
      let awake := fun (s : State) => ({ s with pw := { s.pw with wakeLatched := true } } : State).tryPower
      exec .wakeN s = .next (awake (s.setFlag .PRC_IN_STATUS_WAKE_N 0 false)) ∧ exec .wakeWrite s = .next (awake s) ∧
      (s.flag .PRC_SLUMBER_WAKE_ARM 0 = true → s.reg .PRC_WAKE_BEAT 0 ≤ s.beat → exec .wakeBeat s = .next (awake s))) ∧
  (∀ s : State, s.pw.dev = .serving → s.ephemeralHeld = false → exec .slumberReq s =
      .next (({ (s.setFlag .PRC_SLUMBER_REFUSED 0 false).setFlag .PRC_IN_STATUS_SR_BROKEN 0 false with
        pw := { s.pw with slumbering := true } } : State).drainStart 1 .slumber)) ∧
  (∀ s : State, s.pw.dev ≠ .noVstby → s.pw.dev ≠ .serving ∨ s.ephemeralHeld = true →
      exec .slumberReq s = .next ((s.setFlag .PRC_SLUMBER_REFUSED 0 true).emit srcSlumberRefused))

/-- Temperature (R468 to R471): a sensor's conversion, and the throttle stage with the credit limit each room has at
it. -/
def Obligations.ThermalCommands : Prop :=
  (∀ (s : State) (i : Sensor) (count : BitVec 16), s.pw.dev ≠ .noVstby → i.val < 8 → RegsOk s.regs →
      ∃ u : State, exec (.sensorConversion i count) s = .next u.thermalLevels ∧ u.reg .CHM_TS_COUNT i = count.toNat ∧
        u.reg .CHM_TS_TEMP i = unsignedOf 16 (sensorTemp i count.toNat) ∧
        u.flag .CHM_TS_VALID i = (decide (-220 ≤ sensorTemp i count.toNat) && decide (sensorTemp i count.toNat ≤ 600)) ∧
        u.pw = s.pw ∧ u.rooms = s.rooms) ∧
  (∀ s : State, s.pw.dev.hallOn = true → s.flag .CHM_STATUS_THROTTLE 0 = true → exec .stageStep s =
      .next (s.setStage (min s.maxStage (s.reg .CHM_STATUS_STAGE 0 + 1)))) ∧
  (∀ s : State, s.pw.dev.hallOn = true → s.flag .CHM_STATUS_THROTTLE 0 = false → exec .stageStep s =
      .next (s.setStage (min s.maxStage (s.reg .CHM_STATUS_STAGE 0 - 1)))) ∧
  (∀ credits, creditLimit credits 0 = credits) ∧
  (∀ credits stage, stage ≠ 0 → creditLimit credits stage = max 16 (credits * (4 - stage) / 4))

/-- From the loaded image to SERVING (R48, R148, R306, R237): what each command of a start does once its state has come. -/
def Obligations.StartCommands : Prop :=
  (∀ (s : State) (env : BootEnv), s.pw.dev = .boot → s.pw.bootTried = false →
      exec (.floorPlanLoad env) s =
        let t : State := { s with pw := { s.pw with bootTried := true, boot := some env } }
        let t := (t.flashClock env).setReg .HALL_FP_STATUS_ACTIVE 0 0
        match t.trySlots env (t.slotOrder env) with
        | (t, some (slot, p)) => .next (t.imageLoaded slot p)
        | (t, none) => .next (t.setFlag .HALL_FLASH_CTRL_WP_ACTIVE 0 false)) ∧
  (∀ (s : State) (w : Wing), w.val ∈ s.wings → s.pw.dev.hallOn = true → s.svc w ≠ 2 →
      exec (.pantryInitDone w) s = .next (s.setFlag .PAN_STATUS_INIT_DONE w true).settle) ∧
  (∀ (s : State) (env : BootEnv), s.pw.dev = .recovery → s.pw.recovered = false → s.pw.boot = some env →
      exec .recovery s = .next (s.readMarker.startBeat.recover env s.cleanStop)) ∧
  (∀ (s : State) (waited : Bool), s.pw.dev = .recovery → s.pw.recovered = true → s.reg .FBX_SEQ_PHASE 0 = 0 →
      s.slicesReady = true → s.rt.continuity = true ∨ s.rt.epochSeen = true ∨ waited = true →
      let t := s.putUnitRecord
      let t := ((t.putMarker (t.marker 0 0)).goto .serving).setReg .HALL_DRAIN_STATUS_STEP 0 0
      let t : State := { t with rt := { t.rt with continuity := true }, pw := { t.pw with fromSlumber := false } }
      let t := t.offerImage.computeBudget.repin.settle
      t.flag .FBX_SEQ_OFF_LATCHED 0 = false → t.pw.shutdownDue = false → exec (.servingEntry waited) s = .next t)

/-- Rack time (R227, R232, R233): a beat counted at an edge, a glitch, a beat the device counts itself, and the way back
from HOLDOVER. -/
def Obligations.BeatCommands : Prop :=
  (∀ (s : State) (n : Nat), s.pw.dev ≠ .noVstby → 2 * n < s.reg .PRC_RT_FRAC_PERIOD 0 →
      exec (.rbeatEdge n) s = .next (s.satReg .PRC_RT_STATE_GLITCHES 0 1)) ∧
  (∀ (s : State) (n : Nat), s.pw.dev ≠ .noVstby → s.reg .PRC_RT_FRAC_PERIOD 0 ≤ 2 * n → s.reg .PRC_RT_STATE_MISSING 0 < 3 →
      exec (.rbeatEdge n) s = .next ((s.setReg .PRC_RT_STATE_MISSING 0 0).learn n).countBeat) ∧
  (∀ (s : State) (n : Nat), s.pw.dev ≠ .noVstby → s.reg .PRC_RT_FRAC_PERIOD 0 ≤ 2 * n →
      3 ≤ s.reg .PRC_RT_STATE_MISSING 0 → steadyInterval (s.reg .PRC_RT_FRAC_PERIOD 0) n = true → s.rt.steady < 7 →
      exec (.rbeatEdge n) s = .next { s with rt := { s.rt with steady := s.rt.steady + 1 } }) ∧
  (∀ s : State, s.pw.dev ≠ .noVstby → s.reg .PRC_RT_FRAC_PERIOD 0 ≠ 0 →
      let u := (s.satReg .PRC_RT_STATE_MISSING 0 1).countBeat
      let v : State := { u with rt := { u.rt with steady := 0 } }
      exec .missingBeat s =
        .next (if 3 ≤ v.reg .PRC_RT_STATE_MISSING 0 ∧ v.timeState = 1 then v.setTime 2 else v)) ∧
  (∀ s : State, RegsOk s.regs → s.timeState ≠ 3 → s.pw.dev.hallOn = false →
      s.countBeat.beat = (s.beat + 1) % 2 ^ 64 ∧ s.countBeat.reg .PRC_RT_FRAC 0 = 0 ∧ s.countBeat.out = s.out) ∧
  (∀ s : State, s.timeState = 3 → s.rt.shadow + 1 < s.beat → s.pw.dev.hallOn = false → RegsOk s.regs →
      s.countBeat.beat = s.beat ∧ s.countBeat.rt.shadow = s.rt.shadow + 1)

/-- The calendar's events (R164, R216, R224, R249 to R254, R257, R331, R332, R493, R497), while the calendar runs. -/
def Obligations.CalendarCommands : Prop :=
  (∀ s : State, s.calendarRuns = true → exec .checkpoint s = .next s.checkpointNow ∧
      exec .cupboardAnchor s = .next s.anchorNow ∧ exec .atticFlush s = .next s.flushAttic) ∧
  (∀ (s : State) (c : Cellar) (p : Pkg) (line : Nat) (copy : Fin 2) (m : MediaProfile), s.profile c = some m →
      s.calendarRuns = true → s.cellarUp c = true → p.val ∈ s.packages c →
      exec (.descriptorRewrite c p line copy) s = .next (s.queueOp (mediaOp .metadata 4
        (frameAt c p (m.frames + (2 * line + copy) / 16)) ((2 * line + copy) % 16)))) ∧
  (∀ s : State, s.calendarRuns = true → ∃ u : State,
      exec .healthSample s = .next (u.worn.foldl (fun t x => t.queueMigration x.1 x.2) u.spareLevels) ∧
      u = { s with regs := u.regs }) ∧
  (∀ s : State, RegsOk s.regs → ∃ t, exec .bucketLeak s = .next t ∧
      (∀ k < 2048, t.reg .FLT_SRC_LEVEL k =
        if s.beat % max 1 (s.reg .FLT_SRC_LEAK k) = 0 then s.reg .FLT_SRC_LEVEL k - 1 else s.reg .FLT_SRC_LEVEL k) ∧
      (∀ f i, f ≠ .FLT_SRC_LEVEL ∨ 2048 ≤ i → t.reg f i = s.reg f i) ∧ t = { s with regs := t.regs }) ∧
  (∀ (s : State) (w : Wing), exec (.sketchDecay w) s = 
      let halved := fun (x : Nat × Sketch) => if x.1 / 2 ^ 20 = w.val then
        (x.1, { x.2 with reads := x.2.reads / 2, writes := x.2.writes / 2 }) else x
      .next { s with ti := { s.ti with sketch := s.ti.sketch.map halved } }) ∧
  (∀ (s : State) (w : Wing), s.calendarRuns = true → w.val ∈ s.wings →
      ((∃ n, look s.md.scrub w = some n ∧ n < s.scrubTotal w) →
        exec (.scrubPassStart w) s = .next (s.satReg .WING_SCRUB_SCRUB_LATE w 1)) ∧
      ((∀ n, look s.md.scrub w = some n → s.scrubTotal w ≤ n) → exec (.scrubPassStart w) s =
        .next (({ s with md := { s.md with scrub := put s.md.scrub w 0 } } : State).setReg .WING_SCRUB_PROGRESS w 0))) ∧
  (∀ s : State, s.calendarRuns = true → s.timeState ≠ 3 → s.timeState ≠ 0 → ∃ u : State,
      exec .ageUnitTick s = .next (u.atHorizon.foldl (fun t x => t.queueRefresh (frameOfKey x.1) true) u) ∧
      u = { s with rt := { s.rt with corrections := s.rt.corrections.filter fun c => s.ageUnit ≤ c.last + s.horizon } }) ∧
  (∀ (s : State) (w : Wing), exec (.cadenceFrame w) s =
      .next { s with md := { s.md with slots := s.md.slots.filter fun x => x.1 / 4 != w.val } })

/-- Programs and their completion (R170, R188 to R192, R205, R254): the slot goes to the operation that R254 admits, and
what a status record says is applied to the package's operations in flight. -/
def Obligations.ProgramCommands : Prop :=
  (∀ (s : State) (c : Cellar) (readOk : Bool) (o : MediaOp), s.pw.dev.hallOn = true → s.plan.isSome = true →
      s.inReset (.cellar c) = false → s.slotChoice c = some o →
      let lines := s.opLines o readOk
      exec (.programSlot c 0 readOk) s = .next ((s.poisonedInMerge o lines).issue o lines).mediaStep) ∧
  (∀ (s : State) (w : Wing) (k : Nat), s.writeBackChoice w = some k →
      exec (.writeBackSelection w) s = .next (s.queueWriteBack (keyRoom k) (keyPage k) 5).mediaStep) ∧
  (∀ (s : State) (c : Cellar), exec (.doneNLow c) s = .next s) ∧
  (∀ (s : State) (c : Cellar) (p : Pkg) (done verify crc : BitVec 64) (flags : Byte), s.cellarUp c = true →
      p.val ∈ s.packages c → s.pw.dev.hallOn = true → flags.getLsbD 0 = false →
      let t := s.clearMisses c p [1, 2]
      let ops := t.md.inflight.filter fun o => o.cellar == c.val && o.at_.pkg == p.val
      exec (.statusRecord c p done verify crc flags true) s =
        .next (ops.foldl (fun u o => u.statusOf o done verify crc) t).mediaStep) ∧
  (∀ (s : State) (c : Cellar) (tag : Fin 64) (o : MediaOp), s.opOf c tag = some o → o.suspended = false →
      o.suspending = false → s.flag .CEL_CTRL_SUSPEND_EN c = true → exec (.suspendOp c tag) s =
        .next ((s.modOp c tag fun o => { o with suspending := true }).celCount c 5 1)) ∧
  (∀ (s : State) (c : Cellar) (tag : Fin 64), exec (.bankSuspended c tag) s = .next (s.modOp c tag fun o =>
      if o.suspending then { o with suspending := false, suspended := true } else o))

/-- What the packages report (R187, R195, R197, R202 to R204, R217): a media line as its reads end, a temperature, an alert, a
missing answer, and a page that moves to the frame its migration programmed. -/
def Obligations.PackageCommands : Prop :=
  (∀ (s : State) (c : Cellar) (p : Pkg) (frame : Nat) (ml : MediaLineNo) (f : Frame) (reads : List Decoded)
      (arrived : Option (List StoredLine)), s.frame (frameAt c p frame) = some f → s.cellarUp c = true →
      p.val ∈ s.packages c → s.pw.dev.hallOn = true → s.inReset (.cellar c) = false →
      let a := frameAt c p frame
      let plan := s.readPlan f
      let v := readEnd plan.limit reads 0 0 0
      let u := s.busCrcs a ml (reads.countP fun d => d == .busCrc)
      (v = .unfinished → exec (.mediaReadData c p frame ml reads arrived) s = .next u) ∧
      (v = .pkgFailed → exec (.mediaReadData c p frame ml reads arrived) s =
        .next ((((u.satReg .CEL_ERR1_TIMEOUT c 1).errLoc a ml 7 0).losePackage c p).mediaStep)) ∧
      (v ≠ .unfinished → v ≠ .pkgFailed → ∀ room page : Nat,
        let t := (u.countOutcome a ml plan reads.length v).clearMisses c p [0, 2]
        t.pageOf a = some (room, page) → (∃ i < 4, t.mediaWaiters room page (4 * ml + i) ≠ []) →
        exec (.mediaReadData c p frame ml reads arrived) s =
          .next ((t.mediaLine a room page ml v (plan == ReadPlan.search) arrived).settle.resumeBank a).drainAdvance)) ∧
  (∀ (s : State) (c : Cellar) (p : Pkg) (v : BitVec 16), c.val ∈ s.cellars → s.pw.dev.hallOn = true →
      let t := s.setReg (tempFld p) c v.toNat
      let u := c.val * 8 + p.val
      let w := fun (f : Fld) => signed16 (s.reg f 0)
      let held := holdNow (s.md.held.contains u) (w .CHM_WIN0_MEDIA_LO) (w .CHM_WIN0_MEDIA_HI) v.toInt
      let drain := holdNow (s.md.drainHeld.contains u) (w .CHM_WIN0_DRAIN_LO) (w .CHM_WIN0_DRAIN_HI) v.toInt
      let t : State := { t with md := { t.md with
        held := setHeld s.md.held u held, drainHeld := setHeld s.md.drainHeld u drain } }
      exec (.tempRead c p (some v)) s = .next ((t.clearMisses c p [1]).holdLevels c).mediaStep) ∧
  (∀ (s : State) (c : Cellar), c.val ∈ s.cellars → s.pw.dev.hallOn = true →
      exec (.alertN c) s = .next (s.setFlag .CEL_STATUS_ALERT c true)) ∧
  (∀ (s : State) (c : Cellar) (p : Pkg), c.val ∈ s.cellars → p.val ∈ s.packages c → s.pw.dev.hallOn = true →
      let t := (s.satReg .CEL_ERR1_TIMEOUT c 1).errLoc (frameAt c p 0) 0 7 0
      exec (.mediaTimeout c p .completion) s = .next (t.losePackage c p).mediaStep ∧
      exec (.mediaTimeout c p .readStrobe) s = .next
        (if (t.miss c p 0 3).2 then ((t.miss c p 0 3).1.losePackage c p).mediaStep else (t.miss c p 0 3).1)) ∧
  (∀ (s : State) (room : RoomNo) (page : Nat) (b : FrameAddr), pageKey room page ∈ s.md.wear →
      let t : State := { s with md := { s.md with wear := s.md.wear.filter fun x => x != pageKey room page } }
      t.moveTarget room page = some b → (t.page room page).entry.frame = none →
      exec (.frameMigrationSwitch room page) s = .next (t.leaveFrame b).mediaStep) ∧
  (∀ (s : State) (room : RoomNo) (page : Nat) (a b : FrameAddr) (f : Frame), pageKey room page ∈ s.md.wear →
      let t : State := { s with md := { s.md with wear := s.md.wear.filter fun x => x != pageKey room page } }
      let e := { (t.page room page).entry with frame := some b }
      let u := (t.setPage room page { t.page room page with entry := e }).journalEntry room page e
      let v := u.setFrame b { f with st := 2, age := u.ageUnit, ageUnknown := false }
      let w : State := { v with md := { v.md with queue := v.md.queue.map fun (o : MediaOp) =>
        if o.kind == (OpKind.writeBack (pageKey room page)) then { o with at_ := b, cellar := b.cellar } else o } }
      t.moveTarget room page = some b → (t.page room page).entry.frame = some a → (t.page room page).entry.lost = false →
      u.frame b = some f → v.isBraced room = false → exec (.frameMigrationSwitch room page) s =
        .next ((((w.leaveFrame a).emit (srcAlloc b.wing 2)).count (512 + 768 * b.wing + 707) 1)).mediaStep)

/-- The Larders and the Corridor (R13, R14, R157, R158, R162, R165, R176, R180, R298). -/
def Obligations.LarderCommands : Prop :=
  (∀ (s : State) (room : RoomNo) (page : Nat) (r : Room) (sl : Slot), s.room room = some r →
      (s.page room page).slot = some sl → pageKey room page ∈ s.ti.promoting → s.away (s.page room page) = true →
      let w := s.home room page
      let t := s.setPage room page { s.page room page with
        slot := some { sl with moving := false }, tier := if sl.dirty != 0 then 2 else 1 }
      let t : State := { t with ti := { t.ti with promoting := t.ti.promoting.filter fun x => x != pageKey room page } }
      exec (.promotionDone room page) s =
        .next ((t.satReg .PAN_TIER_STAT_PROMOTIONS w 1).count (512 + 768 * w + 260) 1).settle) ∧
  (∀ (s : State) (room : RoomNo) (page : Nat) (line : Fin 64) (r : Room) (a b : BurstOutcome), s.room room = some r →
      s.wingUp (s.actingHome (s.home room page)) = true → s.pw.dev.hallOn = true →
      exec (.larderReadData room page line .data a b none) s =
          .next (s.larderData r.cfg room page line a b none).settle.drainAdvance ∧
        exec (.larderReadData room page line .mapEntry a b none) s =
          .next (s.mapEntryRead room page a b).settle.drainAdvance ∧
        exec (.larderReadData room page line .directory a b none) s =
          .next (s.directoryRead (s.home room page) a b).settle.drainAdvance) ∧
  (∀ (s : State) (w : Wing) (burst n : Nat), s.wingUp w = true → s.pw.dev.hallOn = true →
      exec (.larderPatrolScrub w burst .clean n) s = .next (s.satReg .LAR_ERR_CORRECTED w n)) ∧
  (∀ (s : State) (w : Wing) (device : Nat) (temp : Int), w.val ∈ s.wings → s.pw.dev.hallOn = true → 340 < temp →
      let others := s.ti.hot.filter fun x => x != (w.val, device)
      let t : State := { s with ti := { s.ti with hot := others ++ [(w.val, device)] } }
      exec (.larderTempRead w device temp) s =
        .next ((t.setFlag .LAR_STATUS_HOT_REFRESH w true).level (srcLarder w 4) true)) ∧
  (∀ (s : State) (w : Wing) (q : Req) (o : LineOp) (rest : List LineOp) (r : Room),
      s.hp.pend.find? (s.pacedOn w) = some q → q.todo = o :: rest → s.room q.room = some r →
      s.noRoom r.cfg q.room o.page = false →
      exec (.pacedWriteAdmit w) s = .next (s.setReq { q with wait := .ready }).settle) ∧
  (∀ (s : State) (w : Wing) (e : LogEntry) (rest : List LogEntry), s.pw.dev.hallOn = true →
      takeFirst (fun (e : LogEntry) => e.wing == w.val) s.md.log = some (e, rest) →
      exec (.logEntryApply w) s =
        .next ((({ s with md := { s.md with log := rest } } : State).logApplied e).settle.drainAdvance)) ∧
  (∀ (s : State) (m : Module), s.moduleUp m = true → s.pw.dev.hallOn = true → s.inReset (.corridor (moduleWing m)) = false →
      let t : State := { s with br := { s.br with replays := del s.br.replays (moduleIndex m) } }
      exec (.corridorPacket m true) s =
        .next ((t.count (512 + 768 * moduleWing m + 672) 1).count (512 + 768 * moduleWing m + 673) 1)) ∧
  (∀ (s : State) (m : Module), s.moduleUp m = true → s.pw.dev.hallOn = true → exec (.laneRepair m) s =
      .next (((s.linkEnds m).foldl (fun t i => t.satReg .COR_LINK_REPAIRED i 1) s).emit (srcCorridor (moduleWing m) 0)))

/-- Back-invalidation, the host map buffer, the refill of tokens and the persistent flush (R76, R77, R97, R121 to R124,
R272). -/
def Obligations.CoherenceCommands : Prop :=
  (∀ (s : State) (r : Requester) (room : RoomNo) (page : Nat) (line : Fin 64) (x : Snoop) (rest : List Snoop) (e : DirEntry),
      takeFirst (fun (x : Snoop) => x.requester == r.val && x.key == lineKey room page line) s.hp.snoops = some (x, rest) →
      let t := ({ s with hp := { s.hp with snoops := rest } } : State).count 11 1
      look t.ti.dir (lineKey room page line) = some e → exec (.biRsp r room page line) s =
        .next (t.setDir (lineKey room page line) (e.snooped x)).settle) ∧
  (∀ (s : State) (r : Requester) (room : RoomNo) (page : Nat) (line : Fin 64) (x : Snoop),
      (s.hp.snoops.find? fun x => x.requester == r.val && x.key == lineKey room page line && !x.resent) = some x →
      ∃ t, exec (.bisnpResend r room page line) s = .next t ∧
        t.hp.snoops = s.hp.snoops.map (fun (y : Snoop) => if y == x then { y with resent := true } else y) ∧
        Out.snoop x.requester (lineKey room page line) x.kind ∈ t.out ∧ t.ti = s.ti ∧ t.rooms = s.rooms ∧ t.md = s.md) ∧
  (∀ (s : State) (r : Requester) (x : Snoop), x ∈ s.hp.snoops → x.requester = r.val → x.resent = true →
      exec (.requesterFailed r) s = .next (s.failRequester r)) ∧
  (∀ s : State, s.pw.dev.hallOn = true →
      let scale := max 1 (s.reg .HALL_QOS_CTRL_TOKEN_SCALE 0)
      let stage := s.reg .CHM_STATUS_STAGE 0
      let one := fun (x : Nat × Room) =>
        (x.1, { x.2 with tokens := x.2.cfg.weight * scale, limit := creditLimit x.2.cfg.credits stage })
      exec .refillRound s = .next ({ s with rooms := s.rooms.map one } : State).settle) ∧
  (∀ (s : State) (phase : Fin 2), s.hp.link = .l0 → s.pw.dev.hallOn = true →
      exec (.globalPersistentFlush phase) s = .next { s with out := s.out ++ [.gpf phase 1] }) ∧
  (∀ (s : State) (r owner : Requester), s.pw.dev.hallOn = true → s.isManagement (s.requesterOf r) = true →
      s.flag .HALL_HMB_CTRL_ENABLE 0 = true → exec (.hmbEnable r owner) s =
        .next ((s.setReg .HALL_HMB_CTRL_OWNER 0 owner).setFlag .HALL_HMB_CTRL_ENABLE 0 true)) ∧
  (∀ (s : State) (r owner : Requester), s.pw.dev.hallOn = true → s.isManagement (s.requesterOf r) = true →
      s.flag .HALL_HMB_CTRL_ENABLE 0 = false → RegsOk s.regs → ∃ t, exec (.hmbEnable r owner) s = .next t ∧
        t.hp.hmbInUse = some (owner.val, s.reg .HALL_HMB_BASE_ADDR 0 * 4096,
          min 16777216 (s.reg .HALL_HMB_SIZE_SLOTS 0))) ∧
  (∀ (s : State) (r : Requester), s.pw.dev.hallOn = true → s.isManagement (s.requesterOf r) = true →
      let t := (s.setFlag .HALL_HMB_CTRL_ENABLE 0 false).count 451 s.hp.hmbLeaves.length
      let t : State := { t with hp := { t.hp with hmbLeaves := [], hmbCached := [], hmbInUse := none } }
      exec (.hmbWithdrawal r) s =
        .next ((t.setFlag .HALL_HMB_STATUS_ACTIVE 0 false).setFlag .HALL_HMB_STATUS_WITHDRAWN 0 true).settle) ∧
  (∀ (s : State) (room : RoomNo) (page : Nat), (room.val, s.leafOf room page) ∈ s.hp.hmbLeaves →
      let t := s.count 448 1
      exec (.hmbFetchData room page true false) s = .next ({ t with
        hp := { t.hp with hmbCached := t.entryGroup room page :: t.hp.hmbCached } } : State).settle ∧
      exec (.hmbFetchData room page false false) s = .next t.hmbStop.settle ∧
      exec (.hmbFetchTimeout room page) s = .next t.hmbStop.settle)

/-- Host requests that pass R71 (R71, R87, R271): each is accepted with the line accesses its kind stands for, counted as
it arrives. -/
def Obligations.HostRequests : Prop :=
  ∀ (s : State) (q : HostReq) (region dpa room : Nat) (r : Room),
    let req := s.requesterOf q.requester
    let take := fun (t : State) (kind : ReqKind) (mv : Meta) (ops : List LineOp) (skip n : Nat) =>
      (t.arrived kind).accept req room q.tag kind mv ops skip n q.pantry
    let off := dpa - r.cfg.base
    (∀ mv, PortPasses s q .memRd 64 region dpa room r →
      exec (.memRd q mv) s = .next (take s .memRd mv (memLine 0 0 false off) 0 0)) ∧
    (PortPasses s q .memRdData 64 region dpa room r →
      exec (.memRdData q) s = .next (take s .memRdData .s (memLine 0 0 false off) 0 0)) ∧
    (∀ mv data poison, PortPasses s q .memWr 64 region dpa room r → exec (.memWr q mv data poison) s =
      .next (take s .memWr mv (memLine data (BitVec.allOnes 64) poison off) 0 0)) ∧
    (∀ mv data enables poison, PortPasses s q .memWrPtl 64 region dpa room r →
      exec (.memWrPtl q mv data enables poison) s = .next (take s .memWrPtl mv (memLine data enables poison off) 0 0)) ∧
    (∀ mv, PortPasses s q .memInv 64 region dpa room r →
      exec (.memInv q mv) s = .next (take s .memInv mv (memLine 0 0 false off) 0 0)) ∧
    (∀ mv, PortPasses s q .memInvNt 64 region dpa room r →
      exec (.memInvNt q mv) s = .next (take s .memInvNt mv (memLine 0 0 false off) 0 0)) ∧
    (∀ n, 1 ≤ n → n ≤ 4096 → PortPasses s q .uioRd n region dpa room r →
      exec (.uioRead q n) s = .next (take s .uioRd .i (uioLines off n none) (off % 64) n)) ∧
    (∀ bytes, 1 ≤ bytes.length → bytes.length ≤ 4096 → PortPasses s q .uioWr bytes.length region dpa room r →
      exec (.uioWrite q bytes) s = .next (take s .uioWr .i (uioLines off bytes.length (some bytes)) (off % 64) 0)) ∧
    (∀ (room' : RoomNo) (slot : Fin 32) (data : Line) (x : Room), s.room room' = some x → x.cfg.aperture = true →
      s.hp.link = .l0 → s.pw.dev = .serving → req ∉ s.hp.failed →
      s.mayAccess req x.cfg.region (x.cfg.base + (x.cfg.apertureBase + req) * 4096 + slot * 64) = some room'.val →
      exec (.atomicDescriptor q.requester room' slot data) s = .next ((s.arrived .memWr).accept req room' 0 .memWr .i
        [{ page := x.cfg.apertureBase + req, line := slot, data := data, mask := BitVec.allOnes 64, poison := false }]
        0 0 .clean))

/-- What accepting a request does (R71, R79, R96): it waits at the ingress behind those that came before, and the port
goes on; on a viral port a write is answered and its data dropped. -/
def Obligations.RequestAcceptance : Prop :=
  ∀ (s : State) (requester room tag : Nat) (kind : ReqKind) (mv : Meta) (ops : List LineOp) (skip n : Nat)
    (check : PantryCheck) (r : Room), s.room room = some r →
    (kind.writes = false → s.accept requester room tag kind mv ops skip n check =
      (s.enqueue requester room tag kind mv ops skip n check).settle) ∧
    (kind.writes = true → s.flag .HALL_HP_LINK_VIRAL_IN 0 = true → s.hp.link = .l0 →
      s.accept requester room tag kind mv ops skip n check =
        s.send (.resp requester tag (if kind.uio then .uioDone else .cmp) [] false)) ∧
    (kind.writes = true → s.flag .HALL_HP_LINK_VIRAL_IN 0 = false →
      (∀ o ∈ ops, r.cfg.descriptorLine o.page o.line = false) →
      s.accept requester room tag kind mv ops skip n check =
        (s.enqueue requester room tag kind mv ops skip n check).settle) ∧
    ∃ q : Req, (s.enqueue requester room tag kind mv ops skip n check).hp.ingress = s.hp.ingress ++ [q] ∧
      q.requester = requester ∧ q.room = room ∧ q.kind = kind ∧ q.tag = tag ∧ q.todo = ops ∧ q.wait = .ready

/-- Requests that do not pass (R71, R72, R87): a read that no decoder takes to a room is answered with poison and changes
nothing; a UIO request whose length no UIO request carries stops with the fault the model names. -/
def Obligations.HostRefusals : Prop :=
  (∀ (s : State) (q : HostReq) (mv : Meta) (region dpa : Nat), s.hp.link = .l0 → s.pw.dev = .serving → q.ideOk = true →
    s.insecure false = false → s.requesterOf q.requester ∉ s.hp.failed →
    s.decodeHpa (s.requesterOf q.requester) q.hpa.toNat = some (region, dpa) → s.roomAt dpa = none →
    ∃ t, exec (.memRd q mv) s = .next t ∧
      Out.resp (s.requesterOf q.requester) q.tag .memData [0] true ∈ t.out ∧ t.ti = s.ti ∧ t.md = s.md ∧ t.rooms = s.rooms ∧
      t.hp = s.hp ∧ t.cb = s.cb ∧ t.flash = s.flash ∧ t.rg = s.rg) ∧
  (∀ (s : State) (q : HostReq),
    (∀ n, n = 0 ∨ 4096 < n → exec (.uioRead q n) s = .fault .malformedRequest) ∧
    (∀ bytes : List Byte, bytes.length = 0 ∨ 4096 < bytes.length → exec (.uioWrite q bytes) s = .fault .malformedRequest))

/-- A line that was never written reads as zero, and a line of a poisoned page as poison (R125, R204). -/
def Obligations.LineReads : Prop :=
  ∀ (s : State) (room page line : Nat) (r : Room), s.room room = some r → s.unreachable r.cfg room page = false →
    (s.page room page = Page.blank → s.floorOf r.cfg = 0 → s.readAt room page line = .done 0 false 3) ∧
    ((s.page room page).entry.poison = true → s.readAt room page line = .done 0 true 2) ∧
    ((s.page room page).entry.poison = false → (s.page room page).entry.lost = false →
      ((s.page room page).block (s.floorOf r.cfg)).minor line = 0 → s.readAt room page line = .done 0 false 3)

/-- The link (R63 to R69, R79, R105): training, Recovery with its held answers, the resets and the viral state. -/
def Obligations.LinkCommands : Prop :=
  (∀ (s : State) (p : Partner), s.pw.dev = .boot ∨ s.pw.dev = .recovery ∨ s.pw.dev = .serving →
      s.hp.link = .down ∨ s.hp.link = .training →
      let rate := min (min 3 p.rate) (s.reg .HALL_HP_CTRL_MAX_RATE 0)
      (p.flit256 = true → p.cxl = true → rate ≠ 0 → p.width ≠ 0 →
        let t : State := { s with hp := { s.hp with link := .l0 } }
        let t := (t.setFlag .HALL_HP_LINK_UP 0 true).setReg .HALL_HP_LINK_RATE 0 rate
        let t := (t.setReg .HALL_HP_LINK_WIDTH 0 (min 3 p.width)).setFlag .HALL_HP_LINK_LOPT 0 p.lopt
        exec (.linkTraining p) s = .next (t.setFlag .HALL_HP_LINK_PBR 0 p.pbr).settle) ∧
      (p.flit256 = false ∨ p.cxl = false ∨ rate = 0 ∨ p.width = 0 → exec (.linkTraining p) s =
        .next (({ s with hp := { s.hp with link := .down } } : State).emit srcTrainingFailure))) ∧
  (∀ s : State, s.hp.link = .down → s.pw.dev.hallOn = true →
      exec .trainingRetry s = .next { s with hp := { s.hp with link := .training } }) ∧
  (∀ s : State, s.hp.link = .l0 →
      let t := ({ s with hp := { s.hp with link := .recovery } } : State).setFlag .HALL_HP_LINK_UP 0 false
      exec .linkRecovery s = .next t ∧ exec .retrain s = .next t) ∧
  (∀ s : State, s.hp.link = .recovery →
      let t : State := { s with hp := { s.hp with link := .l0, held := [] } }
      exec .linkL0 s = .next ((s.hp.held.foldl (fun (u : State) (x : Nat × Out) => (u.send x.2).credit x.1) t).setFlag
        .HALL_HP_LINK_UP 0 true).settle) ∧
  (∀ (s : State) (n : Nat), n ≠ 0 → s.hp.link ≠ .down →
      exec (.flitReplay n) s = .next ((s.satReg .HALL_HP_ERR_REPLAYS 0 n).emit srcFlitReplay)) ∧
  (∀ s : State, s.hp.link = .l0 ∨ s.hp.link = .recovery →
      exec .dlDown s = .next ((s.dropLink.satReg .HALL_HP_ERR_LINK_DOWNS 0 1).emit srcLinkDown)) ∧
  (∀ s : State, s.pw.dev = .serving ∨ s.pw.dev = .recovery → exec .perstN s = .next (s.portReset.emit srcPerst)) ∧
  (∀ s : State, s.pw.dev = .boot → exec .perstN s =
      .next { s with pw := { s.pw with bootTried := s.pw.bootTried && s.plan.isSome } }) ∧
  (∀ s : State, exec .hotReset s = .next (s.setFlag .HALL_HP_LINK_VIRAL_IN 0 false)) ∧
  (∀ s : State, s.hp.link = .l0 → exec .viral s = .next ((s.setFlag .HALL_HP_LINK_VIRAL_IN 0 true).emit srcViral))

/-- Keys, measurements and message vectors of the port (R89, R95, R341). -/
def Obligations.PortSecurityCommands : Prop :=
  (∀ s : State, s.pw.dev.hallOn = true → RegsOk s.regs → ∃ t, exec (.ideKeyProgram 0) s = .next t ∧
      t.hp = { s.hp with insecure := s.hp.insecure &&& ~~~1#5, keyed := s.hp.keyed ||| 1#5 } ∧
      t.flag .HALL_HP_LINK_IDE_MEM 0 = true ∧ t = { s with hp := t.hp, regs := t.regs } ∧
      SameRegs [(.HALL_HP_LINK_IDE_MEM, 0)] s t) ∧
  (∀ (s : State) (k : Fin 5), s.pw.dev.hallOn = true → k.val ≠ 0 → exec (.ideKeyProgram k) s =
      let bit := BitVec.ofNat 5 (2 ^ k.val)
      .next (({ s with hp := { s.hp with insecure := s.hp.insecure &&& ~~~bit, keyed := s.hp.keyed ||| bit } } : State).setReg
        .HALL_HP_LINK_IDE_IO 0 (s.reg .HALL_HP_LINK_IDE_IO 0 ||| 2 ^ (k.val - 1)))) ∧
  (∀ (s : State) (i : Nat) (ws : List Word), s.pw.dev.hallOn = true → s.measured i = some ws →
      exec (.spdmGetMeasurements i) s = .next { s with
        out := s.out ++ [.spdm i (Config.measurement i ws) (Config.sign (Config.measurement i ws))] }) ∧
  (∀ (s : State) (v : Source), s.pw.dev.hallOn = true → RegsOk s.regs → v.val ∈ s.hp.msixPending →
      v.val ∈ s.hp.msixUnmasked → ∃ t, exec (.msixDestValid v) s = .next t ∧
        t.out = s.out ++ [.msix (s.reg .HALL_MSIX_DEST_DPID v) v] ∧ v.val ∉ t.hp.msixPending ∧
        t.flag .HALL_MSIX_DEST_VALID v = true ∧ SameRegs [(.HALL_MSIX_DEST_VALID, v.val)] s t) ∧
  (∀ (s : State) (v : Source), s.pw.dev.hallOn = true → v.val ∈ s.hp.msixPending → s.flag .HALL_MSIX_DEST_VALID v = true →
      ∃ t, exec (.msixUnmask v) s = .next t ∧ t.out = s.out ++ [.msix (s.reg .HALL_MSIX_DEST_DPID v) v] ∧
        v.val ∈ t.hp.msixUnmasked ∧ v.val ∉ t.hp.msixPending ∧ t.regs = s.regs)

/-- Mailbox commands that only read (R101, R103, R224, R495): each answers Success with the words its rule names, and
nothing else changes. -/
def Obligations.MailboxReads : Prop :=
  ∀ (s : State) (f : Sender), MayCommand s f →
    let reply := fun (opcode : Nat) (ws : List Word) => Host.Outcome.next (s.mailAnswer f opcode .success ws)
    exec (.identify f) s = reply 0x0001 [Config.vendorId.setWidth 64,
      Config.partNumber (match s.part with | .y8 => 8 | .y4 => 4 | .y2 => 2)] ∧
    (∀ log : Fin 3, exec (.getEventRecords f log) s = reply 0x0100
      (pword (if s.fl.overflow.getD log false then 1 else 0) :: (s.fl.logs.getD log []).map QItem.word)) ∧
    exec (.getEventInterruptPolicy f) s = reply 0x0102 [s.hp.eventPolicy] ∧
    (∀ p, s.plan = some p → exec (.getFwInfo f) s = reply 0x0200 (p.fwVersion.map pword)) ∧
    (s.plan = none → exec (.getFwInfo f) s = reply 0x0200 []) ∧
    exec (.getSupportedLogs f) s = reply 0x0400 [1] ∧
    exec (.identifyMemoryDevice f) s = reply 0x4000 [0, 0, 4096] ∧
    exec (.getPartitionInfo f) s = reply 0x4100 [0, 0] ∧
    exec (.getHealthInfo f) s = reply 0x4200 s.health ∧
    exec (.getAlertConfiguration f) s = reply 0x4201
      [s.hp.alert.1.setWidth 64, s.hp.alert.2.1.setWidth 64, s.hp.alert.2.2.setWidth 64] ∧
    (∀ room : RoomNo, exec (.getPoisonList f room) s = reply 0x4300
      (pword (if 4096 < s.hp.poisonList.length then 1 else 0) ::
        ((s.hp.poisonList.take 4096).filter fun x => x.1 == room.val).map fun x => pword (x.2.1 * 4096 + x.2.2 * 64))) ∧
    exec (.getDcConfiguration f) s = reply 0x4800 [8, pword (2 ^ 30)] ∧
    exec (.getDcExtentList f) s = reply 0x4801
      ((s.hp.extents.filter fun e => e.requester == s.requesterOf f.requester).flatMap fun e =>
        [pword (e.region * 2 ^ 56 + e.base), pword e.size, pword e.room]) ∧
    (∀ (room : RoomNo) (r : Room), s.room room = some r → exec (.getRoomStatus f room) s = reply 0xC020
      [pword (s.backedPages room), pword (s.dirtyPagesOf room), pword r.inUse])

/-- Mailbox commands that write (R81, R101, R102, R103, R273, R495), and those that need rack time or free values. -/
def Obligations.MailboxWrites : Prop :=
  ∀ (s : State) (f : Sender), MayCommand s f →
    let reply := fun (t : State) (opcode : Nat) (ws : List Word) => Host.Outcome.next (t.mailAnswer f opcode .success ws)
    (∀ log : Fin 3, exec (.clearEventRecords f log) s = reply { s with
      fl := { s.fl with logs := s.fl.logs.set log [], overflow := s.fl.overflow.set log false } } 0x0101 []) ∧
    (∀ policy, exec (.setEventInterruptPolicy f policy) s =
      reply { s with hp := { s.hp with eventPolicy := policy } } 0x0103 []) ∧
    (∀ spare wear temp, exec (.setAlertConfiguration f spare wear temp) s =
      reply { s with hp := { s.hp with alert := (spare, wear, temp) } } 0x4202 []) ∧
    (s.timeState = 0 → exec (.getTimestamp f) s = reply s 0x0300 [0]) ∧
    (s.timeState ≠ 0 → exec (.getTimestamp f) s = reply s.fracNow.2 0x0300
      [pword (rackNs s.fracNow.2.beat s.fracNow.1 (s.fracNow.2.reg .PRC_RT_FRAC_PERIOD 0))]) ∧
    exec (.getLog f) s = reply { s with fresh := s.fresh + effectOpcodes.length } 0x0401 (effectOpcodes.zipIdx.map fun (o, i) =>
      pword (o + 2 ^ 16 * ((Config.freeValue (s.fresh + i)).toNat % 2 ^ 16))) ∧
    (∀ (room : RoomNo) (off : Nat), s.offsetOk room off = true →
      exec (.injectPoison f room off) s = reply (s.deviceWrite room off 0 true) 0x4301 [] ∧
      ∀ data, exec (.clearPoison f room off data) s = reply (s.deviceWrite room off data false) 0x4302 []) ∧
    (s.hp.extents = [] → s.hp.background = none → exec (.sanitize f) s = .next (({ s with
      hp := { s.hp with background := some .sanitize } } : State).mailAnswer f 0x4400 .background [])) ∧
    (s.hp.extents = [] → exec (.secureErase f) s = reply ((s.releaseAll false).renewKeys.settle) 0x4401 []) ∧
    (∀ requester : Requester, requester.val ∈ s.hp.failed → exec (.restoreRequester f requester) s =
      reply (s.restore requester) 0xC011 []) ∧
    (∀ list, f.landing = true → exec (.setManagementRequesters f list) s = reply (s.setMgmt list) 0xC030 [])

/-- Images through the mailbox (R26, R48, R61, R103): the begin, the writes into an erased slot, the check, and the ends
of the background commands. -/
def Obligations.ImageCommands : Prop :=
  (∀ (s : State) (f : Sender), MayCommand s f → s.hp.background = none →
    (∀ (slot : Byte) (t : Nat), (match s.otherSlot with | some t => t | none => slot.toNat) = t → t ≤ 1 →
      exec (.imageBegin f slot) s = .next (({ s with
        hp := { s.hp with background := some (.imageBegin t) }
        flash := { s.flash with target := some t, erased := false } } : State).mailAnswer f 0xC001 .background [])) ∧
    (∀ t, s.otherSlot = some t → exec (.imageCheck f) s = .next (({ s with
      hp := { s.hp with background := some (.imageCheck t) } } : State).mailAnswer f 0xC003 .background []))) ∧
  (∀ (s : State) (f : Sender) (offset : Nat) (bytes : List Byte) (t : Nat), MayCommand s f → s.flash.target = some t →
    s.flash.erased = true → s.reg .HALL_FP_STATUS_ACTIVE 0 ≠ t + 1 → offset % 256 = 0 → 256 ≤ bytes.length →
    bytes.length ≤ 8192 → offset + bytes.length ≤ 0x02000000 →
    exec (.imageWrite f offset bytes) s = .next (({ s with flash := { s.flash with
      cells := flashProgram s.flash.cells (slotBase t + offset) bytes } } : State).mailAnswer f 0xC002 .success [])) ∧
  (∀ (s : State) (t : Nat), s.hp.background = some (.imageBegin t) → exec .backgroundCommandDone s =
    .next (({ s with
      hp := { s.hp with background := none }
      flash := { s.flash with cells := flashErase s.flash.cells (slotBase t) 0x02000000, erased := true } } : State).send
      (.mailbox false 0 0xC001 .success []))) ∧
  (∀ (s : State) (t : Nat), s.hp.background = some (.imageCheck t) → exec .backgroundCommandDone s =
    .next (({ s with
      hp := { s.hp with background := none }
      flash := { s.flash with erased := false } } : State).send
      (.mailbox false 0 0xC003 .success [pword (s.checkCause t)]))) ∧
  (∀ s : State, s.hp.background = some .sanitize → exec .backgroundCommandDone s =
    .next ((({ s with hp := { s.hp with background := none } } : State).sanitizeNow).send
      (.mailbox false 0 0x4400 .success [])))

/-- What the mailbox answers where it does not act (R81, R94, R100 to R103): Unsupported, Busy or Invalid Input, and nothing
else changes; a requester that is no management requester does not reach it. -/
def Obligations.MailboxRefusals : Prop :=
  (∀ (s : State) (f : Sender), MayCommand s f →
    let reply := fun (opcode : Nat) (code : RetCode) => Host.Outcome.next (s.mailAnswer f opcode code [])
    exec (.transferFw f) s = reply 0x0201 .unsupported ∧ exec (.activateFw f) s = reply 0x0202 .unsupported ∧
    exec (.setTimestamp f) s = reply 0x0301 .unsupported ∧
    (∀ opcode : BitVec 16, exec (.mailboxUnsupported f opcode) s = reply opcode.toNat .unsupported) ∧
    (s.hp.extents ≠ [] → exec (.sanitize f) s = reply 0x4400 .invalidInput ∧
      exec (.secureErase f) s = reply 0x4401 .invalidInput) ∧
    (s.hp.extents = [] → s.hp.background ≠ none → exec (.sanitize f) s = reply 0x4400 .busy) ∧
    (∀ list, f.landing = false → exec (.setManagementRequesters f list) s = reply 0xC030 .unsupported) ∧
    (∀ room : RoomNo, s.room room = none → exec (.getRoomStatus f room) s = reply 0xC020 .invalidInput)) ∧
  (∀ (s : State) (f : Sender) (list : Word), s.pw.dev.hallOn = true → f.landing = false →
    s.isManagement (s.requesterOf f.requester) = false →
    exec (.sanitize f) s = .next (s.barRefused (s.requesterOf f.requester) 0x0B010000) ∧
    exec (.setManagementRequesters f list) s = .next (s.barRefused (s.requesterOf f.requester) 0x0B010000))

/-- Extents, decoders and the end of a room (R73, R82, R140, R142, R322): an offer taken becomes an extent; a decoder is
programmed, cleared or refused; a room in removal with no request left is released and gone. -/
def Obligations.CapacityCommands : Prop :=
  ((∀ (s : State) (requester : Requester) (room : RoomNo) (region : Fin 8) (base size : Nat), s.pw.dev.hallOn = true →
    let e : Extent := { requester := s.requesterOf requester, room := room, region := region, base := base, size := size }
    (e ∈ s.hp.offers → exec (.addDcResponse requester room region base size) s = .next (({ s with
      hp := { s.hp with offers := s.hp.offers.erase e, extents := s.hp.extents ++ [e] } } : State).mailAnswer
        ⟨requester, false⟩ 0x4802 .success [])) ∧
    (e ∉ s.hp.offers → exec (.addDcResponse requester room region base size) s =
      .next (s.mailAnswer ⟨requester, false⟩ 0x4802 .invalidInput []))) ∧
  (∀ (s : State) (f : Sender) (requester : Requester) (region : Fin 8) (hpaBase size ways granularity way dpaBase : Nat),
    MayCommand s f →
    let d : Decoder := { hpaBase := hpaBase, size := size, ways := ways, granularity := granularity, way := way,
                         dpaBase := dpaBase % 2 ^ 56 }
    let k := requester.val * 8 + region.val
    let run := exec (.setDecoder f requester region hpaBase size ways granularity way dpaBase) s
    (size = 0 → run = .next (({ s with hp := { s.hp with decoders := del s.hp.decoders k } } : State).mailAnswer f 0xC010
      .success [])) ∧
    (size ≠ 0 → decoderOk d = true → run = .next (({ s with
      hp := { s.hp with decoders := put s.hp.decoders k d } } : State).mailAnswer f 0xC010 .success [])) ∧
    (size ≠ 0 → decoderOk d = false → run = .next (s.mailAnswer f 0xC010 .invalidInput [])))) ∧
  (∀ (s : State) (room : RoomNo) (r : Room), s.room room = some r → r.state = .removing → s.pw.dev.hallOn = true →
    s.roomHasRequests room = false →
    let t := (((s.releasePages room ((s.roomPages room).map Prod.fst) false).1).raiseFloor r.cfg).freeRoom room
    exec (.roomRemovalDone room) s = .next (if r.cfg.persistent && t.rooms.all fun x => !x.2.cfg.persistent
      then t.putUnitRecord else t).settle)

/-- Counters, freeze and snapshots (R252, R524 to R527). -/
def Obligations.CounterCommands : Prop :=
  ∀ s : State, s.pw.dev.hallOn = true →
    (∀ on, exec (.pmcFreeze on) s = .next (s.setFlag .PMC_CTRL_FREEZE 0 on)) ∧
    exec .snapNow s = .next (s.snapshot false false) ∧
    exec .arm s = .next (s.armAt (s.reg .PMC_SNAP_BEAT 0)) ∧
    exec .disarm s = .next (({ s with me := { s.me with armed := none } } : State).setFlag .PMC_SNAP_STATUS_ARMED 0 false) ∧
    (∀ b, s.me.armed = some b → s.timeState ≠ 3 → b ≤ s.beat → exec .counterSnapshot s =
      .next ((s.setArmed none).snapshot false (b != s.beat))) ∧
    (∀ (w : Wing) (next : BitVec 20), exec (.pmcSmpPtr w next) s = .next ((({ s with me := { s.me with
      samples := s.me.samples.filter fun x => !(x.1 / 2 ^ 20 == w.val && next.toNat ≤ x.1 % 2 ^ 20) } } : State).setReg
        .PMC_SMP_PTR_NEXT w next.toNat).setFlag .PMC_SMP_PTR_FULL w false)) ∧
    (∀ c : Fin 6656, counterListed c = true → s.flag .PMC_CTRL_FREEZE 0 = false → exec (.counterWrap c) s =
      .next (({ s with me := { s.me with live := put s.me.live c 0 } } : State).wrapped c)) ∧
    (∀ (i : Fin 128) (v : BitVec 48) (c : Nat), s.flag .PMC_SEL_SHADOW 0 = false →
      128 * s.reg .PMC_SEL_BANK 0 + i.val = c → c < 512 → counterListed c = true →
      exec (.pmcWin none i v) s = .next (s.preset c v.toNat)) ∧
    (∀ (w : Wing) (i : Fin 128) (v : BitVec 48) (j : Nat), s.flag .PMC_SEL_SHADOW (1 + w.val) = false →
      128 * s.reg .PMC_SEL_BANK (1 + w.val) + i.val = j → j < 768 → counterListed (512 + 768 * w.val + j) = true →
      exec (.pmcWin (some w) i v) s = .next (s.preset (512 + 768 * w.val + j) v.toNat))

/-- What a snapshot keeps (R527, R528): the shadow bank holds the live counters of that moment, with the tracker slots in
flight, and the live bank goes on. -/
def Obligations.SnapshotCopies : Prop :=
  ∀ (s : State) (late skipped : Bool), RegsOk s.regs →
    let t := s.snapshot late skipped
    t.me.shadow = put s.me.live 137 s.inFlight ∧ t.me.live = t.me.shadow ∧ t.me.roomShadow = s.me.rooms ∧
    t.me.snapshotTaken = true ∧ t.flag .PMC_SNAP_STATUS_LATE 0 = late ∧ t.flag .PMC_SNAP_STATUS_SKIPPED 0 = skipped ∧
    t.reg .PMC_SNAP_STATUS_BEAT 0 = s.beat % 2 ^ Fld.PMC_SNAP_STATUS_BEAT.desc.width ∧
    t.flag .PMC_CTRL_FREEZE 0 = (s.flag .PMC_CTRL_FREEZE 0 || s.flag .PMC_CTRL_FREEZE_AT_SNAP 0) ∧
    t = { s with me := t.me, regs := t.regs } ∧
    SameRegs [(.PMC_SNAP_STATUS_LATE, 0), (.PMC_SNAP_STATUS_SKIPPED, 0), (.PMC_SNAP_STATUS_BEAT, 0),
      (.PMC_CTRL_FREEZE, 0)] s t

/-- BIST by command (R458, R533, R534): a run starts on a FENCED wing and ends with its result; a unit in service is
refused. -/
def Obligations.BistCommands : Prop :=
  (∀ (s : State) (w : Wing), s.pw.dev.hallOn = true → w.val ∈ s.wings → s.svc w = 2 →
    (∀ r ∈ s.me.running, r.1 ≠ w.val) →
    let on := (s.fenceGroups w).foldl (fun (u : State) g => u.switchGroup g true) (s.setReg .BST_STATUS_REFUSE w 0)
    let run := fun (kind : Nat) =>
      ((({ on with me := { on.me with running := on.me.running ++ [(w.val, kind, false)] } } : State).setReg
        .BST_STATUS_STATE w 1).setReg .BST_STATUS_KIND w kind)
    exec (.lbist ⟨w.val, by omega⟩) s = .next ((run 0).setReg .HALL_SVC_STATE w 3) ∧
    exec (.mbist ⟨w.val, by omega⟩) s = .next (run 1) ∧
    exec (.lbistAndMbist ⟨w.val, by omega⟩) s = .next ((run 2).setReg .HALL_SVC_STATE w 3)) ∧
  (∀ (s : State) (w : Wing), s.pw.dev.hallOn = true → w.val ∈ s.wings → s.svc w ≠ 2 →
    (∀ r ∈ s.me.running, r.1 ≠ w.val) →
    exec (.lbist ⟨w.val, by omega⟩) s = .next ((s.setReg .BST_STATUS_REFUSE w 1).setReg .BST_STATUS_STATE w 4)) ∧
  (∀ (s : State) (target : Fin 9) (kind : Nat) (ret : Bool) (p : Plan) (lb mb : Word),
    s.me.running.find? (fun r => r.1 == target.val) = some (target.val, kind, ret) → s.plan = some p →
    let u : State := { s with me := { s.me with running := s.me.running.filter fun r => r.1 != target.val } }
    let v := u.bistResult target (kind != 1) (kind != 0) (lb, mb)
      (p.bist.wingLbist.getD target 0, p.bist.wingMbist.getD target 0)
    exec (.bistDone target lb mb) s = .next (v.1.bistOver target ret v.2))

/-- The Attic through the mailbox (R426, R502 to R504). -/
def Obligations.AtticCommands : Prop :=
  ∀ (s : State) (f : Sender) (part : Fin 11), MayCommand s f →
    (∀ slot count, exec (.atticRead f part slot count) s = .next (s.mailAnswer f 0xC050 .success
      ((List.range (min (min count 16) (s.partSlots part - slot))).flatMap fun i =>
        (s.withBuffered part).slotWords part (slot + i)))) ∧
    (∀ (nonce : BitVec 128) (term : Word), s.pl.nonce = some nonce → s.term = term.toNat →
      exec (.atticClear f part nonce s.index term true) s = .next ((({ s with
        pl := { s.pl with nonce := none } } : State).clearPart part).mailAnswer f 0xC051 .success [])) ∧
    (∀ (nonce : BitVec 128) (member : Nat) (term : Word) (ok : Bool),
      s.tokenOk nonce member term.toNat ok = false →
      exec (.atticClear f part nonce member term ok) s =
        .next ((s.free.2.atticNote 9 1 (0x10 + s.free.1.toNat % 0x70) [pword part.val]).mailAnswer f 0xC051
          .invalidInput []))

/-- Fault collection (R372, R484 to R487, R490 to R494, R505). -/
def Obligations.FaultCommands : Prop :=
  (∀ s : State, s.collects = true → exec .collectorFault s = .next (({ s.atticNote 8 3 0x06 [pword 4] with
      fl := { (s.atticNote 8 3 0x06 [pword 4]).fl with dead := true, inbox := [] } } : State).halt 2)) ∧
  (∀ s : State, s.pw.dev.hallOn = true →
    exec .rearm s = .next { s with fl := { s.fl with first := none, later := 0, errLatch := false } } ∧
    exec (.trapDone none) s = .next (s.setFlag .FLT_STATUS_TRAP_PENDING 0 false) ∧
    (∀ w : Wing, exec (.trapDone (some w)) s = .next (s.setFlag .FLT_WCTRL_TRAP_PENDING w false)) ∧
    (∀ source : Source, exec (.bucketEnClear source) s =
      .next ((s.setFlag .FLT_SRC_BUCKET_EN source false).setReg .FLT_SRC_LEVEL source 0)) ∧
    (∀ source : Source, 5 ≤ source.val → (severityOf source).isSome = true →
      (s.flag .FLT_SRC_FORCE source = false → exec (.force source true) s =
        .next ((s.setFlag .FLT_SRC_FORCE source true).emitEv { source := source, masterKind := 6, forced := true })) ∧
      (s.flag .FLT_SRC_FORCE source = true → exec (.force source true) s =
        .next (s.setFlag .FLT_SRC_FORCE source true)) ∧
      exec (.force source false) s = .next (s.setFlag .FLT_SRC_FORCE source false)) ∧
    (∀ source : Source, source.val < 5 → ∀ on, exec (.force source on) s = .next s) ∧
    (∀ core : Fin 64, s.wingUp (core.val / 8) = true → s.inReset (.core core) = false →
      exec (.watchdogExpiry core) s = .next (((({ s with fl := { s.fl with resets := s.fl.resets ++ [srcCore core] } } :
        State).emit (srcCore core))).count (512 + 768 * (core.val / 8) + 608 + 8 * (core.val % 8) + 2) 1))) ∧
  (∀ (s : State) (src : Source) (ident : BitVec 8), src.val ∈ s.fl.resets →
    let t : State := { s with fl := { s.fl with resets := s.fl.resets.filter fun x => x != src.val } }
    ((∀ c, ownerOf src ≠ .cellar c) → exec (.blockResetDone src ident) s = .next t) ∧
    (∀ c, ownerOf src = .cellar c → s.cellarUp c = true → s.pw.dev.hallOn = true → exec (.blockResetDone src ident) s =
      .next ((((t.packages c).filter fun p => !ident.getLsbD p).foldl (fun (u : State) p => u.losePackage c p) t).mediaStep)))

/-- The stalling ports and what ends a stall (R485, R494, R505 to R510, R521, R537, R554): each port gives its word or the read
stalls; an event, the limit or the end of a page write lets it and the accesses behind it go on. -/
def Obligations.StalledReads : Prop :=
  ((∀ (s : State) (r : Requester) (queue : Option Wing), MayAccess s r →
    (∀ w : Wing, queue = some w → s.wingReached w = true) →
    let q := match queue with | none => 0 | some w => 1 + w.val
    let u := s.unlatched r (evqOffset q)
    (∀ (x : QItem) (rest : List QItem), lookD s.fl.queues q [] = x :: rest → exec (.fltEvq queue r) s =
      .next (({ u with fl := { u.fl with
        queues := if rest = [] then del s.fl.queues q else put s.fl.queues q rest } } : State).send
          (.regData (s.requesterOf r) (evqOffset q) x.word))) ∧
    (lookD s.fl.queues q [] = [] → exec (.fltEvq queue r) s = .next { u with fl := { u.fl with
      stalled := s.fl.stalled ++ [(q, s.requesterOf r, .all)] } })) ∧
  (∀ (s : State) (r : Requester) (i : Fin 128) (ok : Bool), MayAccess s r →
    let u := s.unlatched r (0x3C800 + 8 * i.val)
    exec (.atcWin i r ok) s = .next (u.send (.regData (s.requesterOf r) (0x3C800 + 8 * i.val)
      (if ok then u.atcWord i else BitVec.allOnes 64)))) ∧
  (∀ (s : State) (r : Requester) (i : Fin 8), MayAccess s r →
    let u := s.unlatched r (0x40040 + 8 * i.val)
    (s.cb.queue = [] → exec (.cpbData i r) s =
      .next (u.answerCpb (u.reg .CPB_SEL_PAGE 0, i.val, s.requesterOf r, .all))) ∧
    (s.cb.queue ≠ [] → exec (.cpbData i r) s = .next { u with cb := { u.cb with
      waiting := s.cb.waiting ++ [(u.reg .CPB_SEL_PAGE 0, i.val, s.requesterOf r, .all)] } })) ∧
  (∀ (s : State) (r : Requester) (w : Wing) (i : Fin 8) (ok : Bool), MayAccess s r → s.wingReached w = true →
    let u := s.unlatched r (0x1000000 * (1 + w.val) + 0x18800 + 8 * i.val)
    exec (.pmcSmpWin w i r ok) s = .next (u.send (.regData (s.requesterOf r)
      (0x1000000 * (1 + w.val) + 0x18800 + 8 * i.val) (if ok then u.sampleWord w i else BitVec.allOnes 64))))) ∧
  ((∀ (s : State) (e : EventIn), s.collects = true →
    exec (.event (some e)) s = .next (s.collect ⟨e, s.beat, false⟩).release) ∧
  (∀ (s : State) (ev : Ev) (rest : List Ev), s.collects = true → s.fl.inbox = ev :: rest →
    exec (.event none) s = .next (({ s with fl := { s.fl with inbox := rest } } : State).collect ev).release) ∧
  (∀ (s : State) (queue : Option Wing) (r : Nat × Nat × Half) (rest : List (Nat × Nat × Half)),
    let q := match queue with | none => 0 | some w => 1 + w.val
    r.1 = q → s.fl.stalled = r :: rest → exec (.evqStallLimit queue) s = .next
      (({ s with fl := { s.fl with stalled := rest } } : State).deliver r.2.1 (evqOffset q) r.2.2 0).release) ∧
  (∀ (s : State) (ok : Bool), s.cb.queue ≠ [] → exec (.cupboardWriteDone ok) s = .next (s.pageDone ok).release))

/-- How an event is counted and captured (R481, R482, R493): the source's count and the total rise; a bucket absorbs it or
overflows; the first error record takes the first event and counts those after it, the latest takes every one. -/
def Obligations.EventsCount : Prop :=
  (∀ (s : State) (ev : Ev),
    (severityOf ev.info.source = none → s.collect ev = s) ∧
    ((severityOf ev.info.source).isSome = true →
      let t := ((s.satReg .FLT_SRC_COUNT ev.info.source 1).satReg .FLT_CNT_EVENTS 0 1).count 352 1
      (t.bucketOn ev.info.source = false → s.collect ev = t.takeEvent ev) ∧
      (t.bucketOn ev.info.source = true →
        t.reg .FLT_SRC_DEPTH ev.info.source = 0 ∨ t.reg .FLT_SRC_LEVEL ev.info.source = t.reg .FLT_SRC_DEPTH ev.info.source →
        s.collect ev = (t.setReg .FLT_SRC_LEVEL ev.info.source 0).takeEvent ev) ∧
      (t.bucketOn ev.info.source = true → t.reg .FLT_SRC_DEPTH ev.info.source ≠ 0 →
        t.reg .FLT_SRC_LEVEL ev.info.source ≠ t.reg .FLT_SRC_DEPTH ev.info.source →
        s.collect ev = t.setReg .FLT_SRC_LEVEL ev.info.source (t.reg .FLT_SRC_LEVEL ev.info.source + 1)))) ∧
  (∀ (s : State) (r : ErrRec),
    (s.capture r).fl.last = some r ∧
    (s.fl.first = none → (s.capture r).fl.first = some r ∧ (s.capture r).fl.later = 0) ∧
    (∀ f, s.fl.first = some f → (s.capture r).fl.first = some f ∧ (s.capture r).fl.later = min (s.fl.later + 1) 0xFFFF) ∧
    s.capture r = { s with fl := { s.fl with first := (s.capture r).fl.first, later := (s.capture r).fl.later,
                                             last := some r } })

/-- Units out of service and back (R348 to R352, R357 to R371). -/
def Obligations.UnitCommands : Prop :=
  (∀ (s : State) (w : Wing) (v : Nat), w.val ∈ s.br.window → s.pw.dev.hallOn = true → s.standIn w = some v →
    exec (.actingHomeServe w) s = .next (s.actFor w v).settle.drainAdvance) ∧
  (∀ (s : State) (w : Wing) (v : Nat), s.flag .HALL_SVC_REMIRROR w = true → s.standIn w = some v →
    exec (.remirrorDone w) s = .next (((s.mirrorTo w v).setFlag .HALL_SVC_REMIRROR w false).emit (srcBrace w 4))) ∧
  (∀ (s : State) (u : UnitId), (∀ c p, u ≠ .package c p) → s.pw.dev.hallOn = true →
    (s.svc (unitIndex u) = 1 → s.drained (unitIndex u) = true →
      exec (.unitFenced u) s = .next (s.fence (unitIndex u)).drainAdvance) ∧
    (s.svc (unitIndex u) = 4 → s.rebuildOver (unitIndex u) = true →
      let t := ((s.setSvc (unitIndex u) 0 0).setReg .HALL_SVC_PROGRESS (unitIndex u) 10000).setReg .HALL_SVC_STRIPES
        (unitIndex u) 0
      exec (.unitRebuilt u) s = .next (({ t with br := { t.br with rebuildPtr := del t.br.rebuildPtr (unitIndex u) } } :
        State).emit (srcBrace (unitWing (unitIndex u)) 3)).settle)) ∧
  (∀ (s : State) (u : UnitId), s.pw.dev.hallOn = true →
    let t : State := { s with br := { s.br with readmit := s.br.readmit.filter fun x => x != unitIndex u } }
    exec (.unitLoss u) s = .next (match u with
      | .package c p => t.losePackage c p
      | .cellar c => t.loseCellar c
      | .larder w => (t.loseLarder w).remirror w
      | .wing w => (t.loseWing w).remirror w).spareLevels.settle.drainAdvance) ∧
  (∀ (s : State) (w : Wing) (u : Nat) (rest : List Nat), s.pw.dev.hallOn = true → s.br.readmit = u :: rest →
    u < 16 → unitWing u = w → s.svc u ≠ 3 → (∀ r ∈ s.me.running, r.1 ≠ u) →
    exec (.larderTrainingDone w true) s = .next ((((s.setFlag .LAR_STATUS_TRAINED w true).setFlag .LAR_STATUS_OUT_OF_SERVICE
      w false).startRebuild u).settle.drainAdvance) ∧
    exec (.larderTrainingDone w false) s = .next (((({ s with
      br := { s.br with readmit := s.br.readmit.filter fun x => x != u } } : State).setSvc u 5 2).emit (srcLarder w 6)).settle)) ∧
  (∀ (s : State) (w : Wing) (d : ParityDelta) (rest : List ParityDelta), s.pw.dev.hallOn = true → d.wing = w.val →
    s.br.deltas = d :: rest → exec (.parityDelta w) s =
      .next ((({ s with br := { s.br with deltas := rest } } : State).applyDelta d).settle.drainAdvance)) ∧
  (∀ (s : State) (w : Wing) (k : Nat) (x : Stripe) (rest : SMap Stripe), s.pw.dev = .serving →
    (s.br.stripes.filter fun x => x.2.recompute && s.parityWing (x.1 / 2 ^ 40) (x.1 % 2 ^ 40) == w.val) = (k, x) :: rest →
    let t := (s.setStripe (k / 2 ^ 40) (k % 2 ^ 40) { x with
      lines := s.recomputed (k / 2 ^ 40) (k % 2 ^ 40), dirty := true, recompute := false }).queueParity (k / 2 ^ 40) (k % 2 ^ 40) 5
    let more := !(t.br.stripes.filter fun x => x.2.recompute && t.parityWing (x.1 / 2 ^ 40) (x.1 % 2 ^ 40) == w.val).isEmpty
    let v := t.setFlag .WING_BRACE_RECOMPUTE w more
    exec (.parityRecompute w) s = .next (if more then v else v.emit (srcBrace w 5))) ∧
  (∀ (s : State) (g : Fin 46) (on : Bool) (rest : List (Nat × Bool)), s.pw.switching = (g.val, on) :: rest →
    exec (.groupSwitchTimeout g) s = .next (s.emit srcGroupTimeout))

/-- Doorbells (R378 to R382, R403): each acts in the states R380 gives it, after the write is counted. -/
def Obligations.DoorbellCommands : Prop :=
  ∀ (s : State) (requester page : Requester) (ring : RingNo), RingDoorbell s requester page ring →
    let k := ringKey page ring
    let t := s.count 256 1
    let c := s.ctx k
    (∀ tail : BitVec 32, c.state ≠ .idle → (c.sqTail - c.sqHead).toNat ≤ (tail - c.sqHead).toNat →
      (tail - c.sqHead).toNat ≤ 2 ^ c.sqLog2 →
      exec (.sqTail requester page ring tail) s = .next (t.setCtx k { c with sqTail := tail })) ∧
    (∀ tail : BitVec 32, c.state ≠ .idle → c.state ≠ .error →
      (tail - c.sqHead).toNat < (c.sqTail - c.sqHead).toNat ∨ 2 ^ c.sqLog2 < (tail - c.sqHead).toNat →
      exec (.sqTail requester page ring tail) s = .next (t.ringError k none 0x1E)) ∧
    (∀ head : BitVec 32, c.state ≠ .idle → (head - c.cqHead).toNat ≤ (c.cqTail - c.cqHead).toNat →
      exec (.cqHead requester page ring head) s =
        .next (State.flushRecords c.waiting.length (t.setCtx k { c with cqHead := head }) k)) ∧
    (c.state = .stopped → exec (.ringStart requester page ring) s = .next (t.setRing k .running)) ∧
    (c.state = .running → exec (.ringStop requester page ring) s =
      .next (((t.unfetch k).setRing k .stopping).ringStopped k)) ∧
    (c.state = .error → exec (.ringResume requester page ring) s = .next (t.setRing k .running)) ∧
    (c.state = .stopped ∨ c.state = .error → exec (.ringReset requester page ring) s = .next { t with
      rg := { t.rg with
        ctx := del s.rg.ctx k
        fetched := s.rg.fetched.filter fun x => x.ring != k
        chans := s.rg.chans.filter fun x => x.2.ring != k
        waiters := s.rg.waiters.filter fun x =>
          !((s.rg.chans.filter fun (y : Nat × Channel) => y.2.ring == k).map Prod.fst).contains x } }) ∧
    (∀ data, c.state = .idle → (contextOf data).ok = true → exec (.context requester page ring data) s =
      .next ((t.setCtx k (contextOf data)).setRing k .stopped)) ∧
    (∀ data, c.state ≠ .idle ∨ (contextOf data).ok = false → exec (.context requester page ring data) s =
      .next ((t.satReg .RING_ERR_BAD_CONTEXT 0 1).emitReq srcBadContext page 2 0 0)) ∧
    (∀ value, exec (.semAdd requester page ring value) s =
      .next (t.semAdd page (value.toNat % 64) (value.toNat / 2 ^ 32))) ∧
    (∀ flags, exec (.eventSet requester page ring flags) s = .next (t.eventSet page flags))

/-- Doorbells that do not act (R36, R93, R380): a CTRL value in a state it does not act in, or a ring that does not
exist, is ignored and counted. -/
def Obligations.DoorbellsIgnored : Prop :=
  ∀ (s : State) (requester page : Requester) (ring : RingNo), s.pw.dev.hallOn = true →
    let t := s.count 256 1
    let c := s.ctx (ringKey page ring)
    (s.requesterOf requester = page.val → s.ringExists page ring = false →
      exec (.ringStart requester page ring) s = .next (t.satReg .RING_ERR_DB_IGNORED 0 1)) ∧
    (RingDoorbell s requester page ring →
      (c.state ≠ .stopped → exec (.ringStart requester page ring) s = .next (t.satReg .RING_ERR_DB_IGNORED 0 1)) ∧
      (c.state ≠ .running → exec (.ringStop requester page ring) s = .next (t.satReg .RING_ERR_DB_IGNORED 0 1)) ∧
      (c.state ≠ .error → exec (.ringResume requester page ring) s = .next (t.satReg .RING_ERR_DB_IGNORED 0 1)) ∧
      (c.state ≠ .stopped → c.state ≠ .error →
        exec (.ringReset requester page ring) s = .next (t.satReg .RING_ERR_DB_IGNORED 0 1)))

/-- Dispatch and completion (R383, R389 to R391, R394, R395). -/
def Obligations.DispatchCommands : Prop :=
  (∀ (s : State) (k : Nat), s.pw.dev = .serving → s.dispatchChoice true = some k →
    (∀ (f : Option Line) (x : RingCmd), s.unstarted k = some x → exec (.dispatch f) s = .next (s.startNext k)) ∧
    (∀ d, s.unstarted k = none → exec (.dispatch (some d)) s = .next ((s.fetchCommand k d).startNext k)) ∧
    (s.unstarted k = none → exec (.dispatch none) s = .next (s.ringError k (some (s.ctx k).sqHead) 0x17))) ∧
  (∀ (s : State) (ch : StairCh) (c : Channel), look s.rg.chans ch = some c → c.done = true →
    let d := stairCmd c.cmd
    let t : State := { s with rg := { s.rg with
      chans := del s.rg.chans ch
      waiters := s.rg.waiters.filter fun x => x != ch.val
      fetched := s.rg.fetched.filter fun x => !(x.ring == c.ring && x.index == c.index && x.started) } }
    let u := t.record c.ring (d.tag, c.index.toNat % 2 ^ 16, c.status,
      (if d.unordered then 4 else 0) + (if d.irq then 256 else 0), c.result)
    (c.status < 0x10 → exec (.commandComplete ch) s = .next (u.ringStopped c.ring)) ∧
    (0x10 ≤ c.status →
      let v := (u.satReg .STR_STAT_ERRORS ch 1).emit (srcStair ch)
      ((v.ctx c.ring).state = .running ∨ (v.ctx c.ring).state = .stopping →
        exec (.commandComplete ch) s = .next (v.ringError c.ring (some c.index) c.status)))) ∧
  (∀ (s : State) (requester : Requester) (ring : RingNo), s.pw.dev.hallOn = true →
    (s.ctx (ringKey requester ring)).counted ≠ 0 → (s.ctx (ringKey requester ring)).coalesceTime ≠ 0 →
    exec (.coalesceTimer requester ring) s = .next (s.ringMessage (ringKey requester ring)))

/-- A completion record (R382, R389): it waits while the completion ring is full or others wait; else its 16 bytes go to
the slot of CQ_TAIL, which moves on, and PHASE turns with the last slot. -/
def Obligations.CompletionRecords : Prop :=
  ∀ (s : State) (k tag index status flags : Nat) (result : Word), k ≠ internalRing → (s.ctx k).state ≠ .idle →
    let c := s.ctx k
    let x := (tag, index, status, flags, result)
    let slot := c.cqTail.toNat % 2 ^ c.cqLog2
    (c.full = true ∨ c.waiting ≠ [] → s.record k x = s.setCtx k { c with waiting := c.waiting ++ [x] }) ∧
    (c.full = false → c.waiting = [] → c.irqMode = 0 → s.record k x = ((s.send (.memWrite (k / 64) (c.cqBase + 16 * slot)
      (toBytes 4 tag ++ toBytes 2 index ++ toBytes 1 status ++ toBytes 1 (flags % 256 + if c.phase then 1 else 0) ++
        toBytes 8 result.toNat) false)).count 258 1).setCtx k { c with
          cqTail := c.cqTail + 1, phase := if slot + 1 = 2 ^ c.cqLog2 then !c.phase else c.phase })

/-- Copies, zeroes and page commands of a channel (R130, R131, R169, R385 to R387, R392): a copy reads its source whole and then
writes; each page command runs over the pages its requester reaches; a TIER 2 room refuses PREFETCH and PIN. -/
def Obligations.StairTransfers : Prop :=
  (∀ (s : State) (ch : StairCh) (c : Channel),
    let d := stairCmd c.cmd
    (OnChannel s ch 1 c → ∀ source : List Byte,
      (c.loaded = true → exec (.copy ch source) s = .next (s.stairGo ch).settle) ∧
      (c.loaded = false → s.stairReadHeld c.ring d.sspace d.sid d.src d.len = false →
        (∀ bs, s.stairRead c.ring d.sspace d.sid d.src d.len source = .ok bs → exec (.copy ch source) s =
          .next ((((s.stairReads ch d.sspace d.sid d.src d.len).modChan ch fun c =>
            { c with loaded := true, todo := writesOf d.dspace d.did d.dst bs }).stairGo ch).settle)) ∧
        (∀ st, s.stairRead c.ring d.sspace d.sid d.src d.len source = .error st →
          exec (.copy ch source) s = .next (s.endChan ch st 0).settle))) ∧
    (OnChannel s ch 2 c →
      (c.loaded = true → exec (.zero ch) s = .next (s.stairGo ch).settle) ∧
      (c.loaded = false → exec (.zero ch) s = .next (((s.modChan ch fun c => { c with
        loaded := true
        todo := (writesOf d.dspace d.did d.dst (List.replicate d.len (0, false))).filter fun w =>
          !s.zeroSkips c.ring w }).stairGo ch).settle)))) ∧
  (∀ (s : State) (ch : StairCh) (c : Channel),
    let d := stairCmd c.cmd
    let busy := s.rangeBusy d.did (d.dst / 4096) (d.len / 4096)
    (OnChannel s ch 3 c → busy = false →
      exec (.release ch) s = .next (s.overPages ch c d (State.releaseStep d.did false)).settle) ∧
    (OnChannel s ch 4 c → busy = false →
      exec (.secureRelease ch) s = .next (s.overPages ch c d (State.releaseStep d.did true)).settle) ∧
    (OnChannel s ch 5 c → s.tier2 d.did = false →
      exec (.prefetch ch) s = .next (s.overPages ch c d (State.prefetchStep d.did)).settle) ∧
    (OnChannel s ch 6 c → s.tier2 d.did = false →
      exec (.pin ch) s = .next (s.overPages ch c d (State.pinStep d.did)).settle) ∧
    (OnChannel s ch 5 c → s.tier2 d.did = true → exec (.prefetch ch) s = .next (s.endChan ch 0x16 0).settle) ∧
    (OnChannel s ch 6 c → s.tier2 d.did = true → exec (.pin ch) s = .next (s.endChan ch 0x16 0).settle) ∧
    (OnChannel s ch 7 c → exec (.unpin ch) s = .next (s.overPages ch c d (State.unpinStep d.did)).repin.settle) ∧
    (OnChannel s ch 8 c → s.earlierBusy c = false → exec (.persistBarrier ch) s = .next (s.endChan ch 0 0).settle))

/-- Migration commands of a channel (R388): MIGRATE_IN opens or closes a range; MIGRATE_OUT of a range the requester
does not reach whole, or without the link, ends; else it sends the pages and ends with their number. -/
def Obligations.StairMigration : Prop :=
  ∀ (s : State) (ch : StairCh) (c : Channel),
    let d := stairCmd c.cmd
    let n := d.len / 4096
    (OnChannel s ch 10 c → s.reachable c.ring d.did (d.dst / 4096) n = n →
      (d.arg0.testBit 16 = false → exec (.migrateIn ch) s = .next ((({ s with rg := { s.rg with
        ranges := s.rg.ranges ++ [{ room := d.did, base := d.dst, length := d.len, source := d.arg0 % 4096,
                                    pages := [] }] } } : State).endChan ch 0 0).settle)) ∧
      (d.arg0.testBit 16 = true →
        let hit := fun (g : OpenRange) =>
          g.room == d.did && g.base == d.dst && g.length == d.len && g.source == d.arg0 % 4096
        exec (.migrateIn ch) s = .next ((({ s with rg := { s.rg with
          ranges := s.rg.ranges.filter fun g => !hit g } } : State).endChan ch 0
            (pword ((s.rg.ranges.filter hit).flatMap OpenRange.pages).length)).settle))) ∧
    (OnChannel s ch 9 c → ∀ r, s.room d.sid = some r → s.reachable c.ring d.sid (d.src / 4096) n = n → s.hp.link = .l0 →
      let x := s.sendRound r.cfg d
      exec (.migrateOut ch) s = .next ((if c.ring = internalRing then x.1.countRound else x.1).endChan ch
        (if x.2.1 then 1 else 0) (pword x.2.2)).settle) ∧
    (OnChannel s ch 9 c → ∀ r, s.room d.sid = some r → s.reachable c.ring d.sid (d.src / 4096) n = n → s.hp.link ≠ .l0 →
      exec (.migrateOut ch) s = .next ((s.roundFailed c.ring).endChan ch 0x18 0).settle) ∧
    (OnChannel s ch 9 c → s.room d.sid = none → exec (.migrateOut ch) s = .next (s.endChan ch 0x12 0).settle)

/-- RUN and the moves of a program (R397 to R402, R405). -/
def Obligations.StairPrograms : Prop :=
  ∀ (s : State) (ch : StairCh) (c : Channel), OnChannel s ch 11 c →
    let d := stairCmd c.cmd
    (∀ (header program ws : List StairWord), c.program = [] →
      s.stairReadHeld c.ring d.sspace d.sid d.src (64 + 16 * d.len) = false →
      s.programWords c.ring d header program = .ok ws → ((ws.take 4).filterMap baseOf).length = 4 →
      exec (.run ch header program) s = .next ((s.modChan ch fun c => { c with
        bases := (ws.take 4).filterMap baseOf, program := ws.drop 4, pc := 0 }).programAt ch).settle) ∧
    (∀ (source : List Byte) (sb db soff doff len : Nat), c.instr = some (.move sb db soff doff len) →
      (c.loaded = true → exec (.move ch source) s = .next (s.instrGo ch).settle) ∧
      (c.loaded = false → ∀ x a y b bs, c.access sb soff len = .ok (x, a) → c.access db doff len = .ok (y, b) →
        s.stairReadHeld c.ring x.space x.id a len = false →
        s.stairRead c.ring x.space x.id a len source = .ok bs → exec (.move ch source) s =
          .next ((s.stairReads ch x.space x.id a len).instrLoad ch c (.ok (writesOf y.space y.id b bs))).settle) ∧
      (c.loaded = false → ∀ st, c.access sb soff len = .error st →
        exec (.move ch source) s = .next (s.endChan ch st (pword c.pc)).settle)) ∧
    (∀ (source : List Byte) (sb db soff doff line count sstride dstride : Nat),
      c.instr = some (.move2d sb db soff doff line count sstride dstride) → c.loaded = true →
      exec (.move2d ch source) s = .next (s.instrGo ch).settle) ∧
    (∀ (source : List Byte) (sb db soff doff line count sstride dstride : Nat) (ws : List StairWrite),
      c.instr = some (.move2d sb db soff doff line count sstride dstride) → c.loaded = false →
      (∀ i < count, ∀ x a, c.access sb (soff + i * sstride) line = .ok (x, a) →
        s.stairReadHeld c.ring x.space x.id a line = false) →
      s.rows c sb db soff doff line sstride dstride source (List.range count) = .ok ws →
      exec (.move2d ch source) s = .next (((List.range count).foldl (fun (u : State) i =>
        match c.access sb (soff + i * sstride) line with
        | .ok (x, a) => u.stairReads ch x.space x.id a line
        | .error _ => u) s).instrLoad ch c (.ok (mergeWrites ws))).settle) ∧
    (∀ (source : List Byte) (sb db soff doff line count sstride dstride st : Nat),
      c.instr = some (.move2d sb db soff doff line count sstride dstride) → c.loaded = false →
      (∀ i < count, ∀ x a, c.access sb (soff + i * sstride) line = .ok (x, a) →
        s.stairReadHeld c.ring x.space x.id a line = false) →
      s.rows c sb db soff doff line sstride dstride source (List.range count) = .error st →
      exec (.move2d ch source) s = .next (s.endChan ch st (pword c.pc)).settle) ∧
    (∀ (db doff len pattern : Nat), c.instr = some (.fill db doff len pattern) →
      (c.loaded = true → exec (.fill ch) s = .next (s.instrGo ch).settle) ∧
      (c.loaded = false → exec (.fill ch) s = .next (s.instrLoad ch c ((c.access db doff len).map fun (y, b) =>
        writesOf y.space y.id b (patternBytes pattern len))).settle)) ∧
    (∀ (ctr target count bx by_ dx dy : Nat), c.instr = some (.loop ctr target count bx by_ dx dy) →
      ((look c.loops ctr).getD count = 0 → exec (.loop ch) s =
        .next ((s.modChan ch fun c => { c with loops := del c.loops ctr }).advancePc ch).settle) ∧
      ((look c.loops ctr).getD count ≠ 0 → exec (.loop ch) s = .next ((s.modChan ch fun x => { x with
        loops := put x.loops ctr ((look c.loops ctr).getD count - 1)
        bases := stepBase (stepBase x.bases bx dx) by_ dy }).jump ch target).settle))

/-- Waits, signals and PERSIST of a program (R403 to R405). -/
def Obligations.StairWaits : Prop :=
  ∀ (s : State) (ch : StairCh) (c : Channel), OnChannel s ch 11 c →
    (∀ (kind index value timeout : Nat), c.instr = some (.wait kind index value timeout) →
      (kind = 0 ∨ kind = 3 → ch.val ∉ s.rg.waiters → s.rg.waiters = [] →
        (s.waitMet (c.ring / 64) (kind, index, value) = true → exec (.waitInstr ch) s =
          .next ((s.takeWait (c.ring / 64) (kind, index, value)).advancePc ch).settle) ∧
        (s.waitMet (c.ring / 64) (kind, index, value) = false → exec (.waitInstr ch) s =
          .next ({ s with rg := { s.rg with waiters := s.rg.waiters ++ [ch.val] } } : State).settle)) ∧
      (kind = 1 → c.waitBeat = none →
        (value ≤ s.beat → exec (.waitInstr ch) s = .next (s.advancePc ch).settle) ∧
        (s.beat < value → exec (.waitInstr ch) s =
          .next (s.modChan ch fun c => { c with waitBeat := some value }).settle)) ∧
      (timeout ≠ 0 → c.waitBeat ≠ none ∨ ch.val ∈ s.rg.waiters → exec (.waitTimeout ch) s =
        .next ((({ s with rg := { s.rg with waiters := s.rg.waiters.filter fun y => y != ch.val } } : State).endChan ch 0x1A
          (pword c.pc)).settle)) ∧
      (∀ b, c.waitBeat = some b → b ≤ s.beat → exec (.beatWaitEnd ch) s = .next (s.advancePc ch).settle)) ∧
    (∀ (kind index value : Nat), c.instr = some (.signal kind index value) →
      let d := stairCmd c.cmd
      (kind = 0 → (s.ctx c.ring).waiting.length < 8 → exec (.signal ch) s = .next (((s.record c.ring (d.tag,
        c.index.toNat % 2 ^ 16, 0, 8 + (if d.unordered then 4 else 0) + (if d.irq then 256 else 0),
        pword value)).advancePc ch).settle)) ∧
      (kind = 1 → exec (.signal ch) s = .next ((s.ringMessage c.ring).advancePc ch).settle) ∧
      (kind = 2 → exec (.signal ch) s = .next ((s.semAdd (c.ring / 64) index value).advancePc ch).settle) ∧
      (kind = 3 → exec (.signal ch) s = .next ((s.eventSet (c.ring / 64) (1#64 <<< index)).advancePc ch).settle)) ∧
    (c.instr = some .persist → exec (.persist ch) s = .next (s.advancePc ch).settle)

/-- What interrupts a channel (R385, R406, R408). -/
def Obligations.StairInterruptions : Prop :=
  ∀ (s : State) (ch : StairCh),
    (∀ on, s.pw.dev.hallOn = true → s.wingReached (ch.val / 32) = true →
      exec (.pause ch on) s = .next (s.setFlag .STR_CTRL_PAUSE ch on)) ∧
    (∀ c, look s.rg.chans ch = some c → c.done = false →
      (s.pw.dev.hallOn = true → exec (.abort ch) s = .next (({ s with
        rg := { s.rg with waiters := s.rg.waiters.filter fun y => y != ch.val } } : State).endChan ch 0x1B
          (if c.program.isEmpty then c.result else pword c.pc))) ∧
      (∀ st, c.timeoutStatus = some st → exec (.lineRequestTimeout ch) s = .next ((s.roundFailed c.ring).endChan ch st
        (if c.program.isEmpty then c.result else pword c.pc))))

/-- How a channel's command ends (R385, R389, R390, R396): it is over with its status and result and nothing left to write,
every other channel as before; an access its requester may not make ends it with REFUSED and writes nothing. -/
def Obligations.ChannelEnds : Prop :=
  (∀ (s : State) (ch status : Nat) (result : Word) (c : Channel), SortedKeys s.rg.chans → look s.rg.chans ch = some c →
    let t := s.endChan ch status result
    look t.rg.chans ch = some { c with done := true, status := status, result := result, todo := [], waitBeat := none } ∧
    (∀ other, other ≠ ch → look t.rg.chans other = look s.rg.chans other) ∧
    t = { s with rg := { s.rg with chans := t.rg.chans } }) ∧
  (∀ (s : State) (ch : StairCh) (c : Channel) (w : StairWrite) (rest : List StairWrite) (n : Nat),
    look s.rg.chans ch = some c → c.todo = w :: rest → w.space = 0 → s.stairMay c.ring w.id w.addr = false →
    State.stairFlush (n + 1) s ch none = s.endChan ch 0x12 c.result)

/-- Landing requests of the manager and of members (R54, R411, R417 to R431): each is acted on and answered. -/
def Obligations.LandingCommands : Prop :=
  ∀ (s : State) (h : Hdr), LandingPasses s h →
    let t := s.taken h
    let answers := fun (u : State) (type status : Nat) (body : List Word) =>
      Host.Outcome.next (u.landingAnswer h type status body)
    (∀ (offset : Nat) (bytes : List Byte) (u : State) (type status : Nat) (body : List Word),
      t.poolLost = false ∨ h.src = t.pl.manager → t.chunk h offset bytes = (u, some (type, status, body)) →
      exec (.amendment h offset bytes) s = answers u type status body) ∧
    (∀ (e p : Word) (m sb : Nat) (health : List Word), t.role ≠ 0 → exec (.heartbeat h true e p m sb health) s =
      answers ((t.managerBeat e.toNat p.toNat m sb).heard h.src) 0x01 0 []) ∧
    (∀ (e p : Word) (m sb : Nat) (health : List Word), exec (.heartbeat h false e p m sb health) s =
      answers ((t.heard h.src).memberBeat h.src health) 0x01 0 []) ∧
    exec (.takeover h) s = answers ((({ t with pl := { t.pl with
      manager := h.src, standby := if t.role = 1 then t.index else 0xFFFF
      missed := del t.pl.missed h.src, lastHeard := put t.pl.lastHeard h.src t.beat } } : State).setFlag
        .LND_STATE_MANAGER_SEEN 0 true).setFlag .LND_STATE_STANDBY_SEEN 0 false) 0x02 0 [] ∧
    (∀ (room : RoomNo) (close : Bool), t.role ≠ 0 → t.pl.mig = none →
      exec (.migrateCutover h room close) s = answers t 0x09 0 []) ∧
    (∀ (room : RoomNo) (m : Migration), t.role ≠ 0 → t.pl.mig = some m → m.room = room.val → m.source = false →
      exec (.migrateCutover h room false) s = answers (t.targetCutover room) 0x09 0 [] ∧
      exec (.migrateCutover h room true) s = answers (t.targetClose room) 0x09 0 []) ∧
    (∀ (room : RoomNo) (m : Migration) (pages : List (Nat × Bool)), t.pl.mig = some m → m.room = room.val →
      m.source = false → m.peer = h.src → exec (.pageRelease h room pages) s =
        answers ((pages.take 500).foldl (fun (u : State) x => (u.releasePage room x.1 x.2).1) t) 0x0A 0 [])

/-- Landing requests that only the manager may send (R313, R316, R423, R425 to R427, R429): from the manager they act; a
refused key operation answers its cause. -/
def Obligations.ManagerCommands : Prop :=
  ∀ (s : State) (h : Hdr), LandingPasses s h →
    let t := s.taken h
    let answers := fun (u : State) (type status : Nat) (body : List Word) =>
      Host.Outcome.next (u.landingAnswer h type status body)
    h.src = t.pl.manager →
    exec (.nonceRequest h) s = answers { t with
      fresh := t.fresh + 1
      pl := { t.pl with nonce := some (Config.nonce t.fresh) } } 0x07 0
      [wordAt (Config.nonce t.fresh) 0, wordAt (Config.nonce t.fresh) 1] ∧
    (∀ (part : Fin 11) (nonce : BitVec 128) (member : Nat) (term : Word) (ok : Bool),
      let x := t.useToken part nonce member term.toNat ok
      exec (.clearToken h part nonce member term ok) s =
        if x.2 then answers x.1 0x07 0 [] else answers x.1 0x07 4 [pword badField]) ∧
    (∀ beat : Word, exec (.snapshotMsg h beat) s = answers (t.armAt beat.toNat) 0x08 0 []) ∧
    (∀ (room : RoomNo) (source target : Nat), t.pl.mig = none →
      (target = t.index → exec (.migrateBegin h room source target) s = answers (t.beginTarget room source) 0x09 0 []) ∧
      (target ≠ t.index → source = t.index →
        exec (.migrateBegin h room source target) s = answers (t.beginSource room target) 0x09 0 [])) ∧
    (∀ delta, t.role = 1 → exec (.mirrorMsg h delta) s = answers (t.applyDeltaOf delta) 0x0C 0 []) ∧
    (∀ slot : Fin 4096,
      (look t.lk.slots slot = none → (∀ r ∈ t.roomsOfSlot slot, t.anyBacked r = false) →
        exec (.generate h slot) s = answers ((((t.newKey.2.fillSlot slot {
            key := t.newKey.1, floor := 0, high := 0, changed := false, origin := t.index }).emit srcSlotGenerated).settle).count 193 1) 0x05 0 []) ∧
      (∀ x, look t.lk.slots slot = some x →
        exec (.generate h slot) s = answers t 0x05 4 [pword badField]) ∧
      (∀ (r : EscrowRecord) (e : Key), look t.lk.slots slot = none → t.pl.escrowKey = some e →
        exec (.importKey h slot r) s = match Config.unwrap e r.wrapped with
          | none => answers t 0x05 4 [pword badField]
          | some key => answers ((((t.fillSlot slot {
              key := key, floor := (t.importMarks slot r).1 % 2 ^ 57, high := (t.importMarks slot r).2 % 2 ^ 57
              changed := false, origin := r.origin }).emit srcSlotImported).settle).count 193 1) 0x05 0 []) ∧
      (∀ (x : KeySlot) (e : Key), look t.lk.slots slot = some x → t.pl.escrowKey = some e →
        exec (.exportKey h slot) s = answers ((({ t with lk := { t.lk with
          slots := put t.lk.slots slot { x with changed := false } } } : State).emit srcSlotExported).count 193 1) 0x05 0
          ([pword slot.val, pword x.origin, pword x.floor, pword x.high] ++
            (List.range 5).map fun i => wordAt (Config.wrap e x.key) i)) ∧
      (∀ x, look t.lk.slots slot = some x → t.roomsOfSlot slot = [] → exec (.destroy h slot) s =
        answers (((({ t with lk := { t.lk with slots := del t.lk.slots slot } } : State).putSlotTable
          (del t.md.slotTable slot)).emit srcSlotDestroyed).count 193 1) 0x05 0 []) ∧
      (∀ x, look t.lk.slots slot = some x → t.roomsOfSlot slot ≠ [] →
        exec (.destroy h slot) s = answers t 0x05 4 [pword roomBusy])) ∧
    (∀ key : Key, exec (.escrowKey h key) s = answers (({ t with pl := { t.pl with escrowKey := some key } } :
      State).queueRecord [2768] [2769] (.escrow (Config.wrap Config.wrapKey key))) 0x06 0 [])

/-- What a Landing request meets before it acts (R413 to R415, R420): one that does not reach the agent changes nothing,
one answered already gets the same answer again, and one of a lower term is refused with STATUS TERM. -/
def Obligations.LandingRefusals : Prop :=
  ∀ (s : State) (h : Hdr) (beat : Word),
    (s.landingReaches h = false → exec (.snapshotMsg h beat) s = .next s ∧ exec (.takeover h) s = .next s) ∧
    (∀ (a : Answered) (rest : List Answered), s.landingReaches h = true → lookD s.pl.answered h.src [] = a :: rest →
      a.seq = h.seq → exec (.snapshotMsg h beat) s = .next (((((s.count 321 1).satReg .LND_ERR_DUPLICATES 0 1).send
        (.landing h.src a.type 1 s.term h.i3c h.seq a.status
          a.body))).count 320 1)) ∧
    (s.landingReaches h = true → (∀ x ∈ lookD s.pl.answered h.src [], x.seq ≠ h.seq) →
      olderSeq h.seq (lookD s.pl.answered h.src []) = false → (s.plan.isSome = true → h.poolId.toNat = s.pl.poolId) →
      h.term.toNat < s.term →
      let t := ((s.count 321 1).satReg .LND_ERR_TERM_REJECTS 0 1).emit srcTermReject
      exec (.snapshotMsg h beat) s = .next (t.landingAnswer h 0x08 1 [pword s.term, pword s.pl.manager]))

/-- What Landing does at a time or on a response (R413, R415 to R422, R429 to R434). -/
def Obligations.LandingEvents : Prop :=
  (∀ (s : State) (p : Nat), s.pw.dev.hallOn = true → s.plan.isSome = true →
    (s.role = 0 → s.beat % 64 = 0 → exec .heartbeatSend s = .next (s.fracNow.2.memberList.foldl
      (fun (u : State) m => u.sendBeat m [pword s.fracNow.2.beat, pword s.fracNow.1, pword s.fracNow.2.term,
        pword s.fracNow.2.index, pword s.fracNow.2.pl.standby]) s.fracNow.2)) ∧
    (s.role ≠ 0 → s.beat % 64 = 32 → exec .heartbeatSend s =
      .next (([s.pl.manager, s.pl.standby].filter fun m => m < 4096 && m != s.index).foldl
        (fun (u : State) m => u.sendBeat m u.healthReport) s)) ∧
    (∀ last, look s.pl.lastHeard p = some last → last + 72 + 64 * s.missedOf p ≤ s.beat →
      let t := (({ s with pl := { s.pl with missed := put s.pl.missed p (s.missedOf p + 1) } } : State).satReg
        .LND_ERR_MISSED 0 1)
      let u := if p = s.pl.manager then t.emit srcManagerMissed
        else if p = s.pl.standby then t.emit srcStandbyMissed else t
      (s.missedOf p ≠ 2 → exec (.heartbeatMissed p) s = .next u) ∧
      (s.missedOf p = 2 → let v := u.peerLost p
        exec (.heartbeatMissed p) s =
          if p = v.pl.manager ∧ v.role = 1 ∧ v.pl.mirrored = true then .next v.takeOver else .next v)) ∧
    (∀ authenticated rootOk hashesEqual : Bool, (authenticated && rootOk && hashesEqual) = false →
      exec (.spdmSessionSetup p authenticated rootOk hashesEqual) s = .next (s.emit srcSpdmFailure)) ∧
    (s.role ≠ 0 → exec (.spdmSessionSetup p true true true) s = .next (({ s with pl := { s.pl with
      sessions := (s.pl.sessions.filter fun x => x != p) ++ [p]
      failedVdm := s.pl.failedVdm.filter fun x => x != p } } : State).count 192 1))) ∧
  (∀ (s : State) (h : Hdr) (higher : Word) (manager : Nat), s.landingReaches h = true →
    let t := s.count 321 1
    let u : State := { t with pl := { t.pl with
      outstanding := t.pl.outstanding.filter fun o => !(o.peer == h.src && o.seq == h.seq) } }
    (higher.toNat ≤ u.term → exec (.termResponse h higher manager) s = .next u) ∧
    (u.term < higher.toNat → exec (.termResponse h higher manager) s = .next (({ u.learnTerm higher.toNat with
      pl := { (u.learnTerm higher.toNat).pl with manager := manager } } : State).putPoolRecord))) ∧
  (∀ (s : State) (peer : Nat) (seq : BitVec 32) (o : Outstanding) (rest : List Outstanding), s.pw.dev.hallOn = true →
    s.pl.outstanding = o :: rest → o.peer = peer → o.seq = seq → o.resends < 3 →
    exec (.landingRetry peer seq) s = .next (((({ s with pl := { s.pl with
      outstanding := s.pl.outstanding.map fun (x : Outstanding) =>
        if x.peer == peer && x.seq == seq then { o with resends := o.resends + 1 } else x } } : State).satReg
          .LND_ERR_RETRIES 0 1).count 322 1).landingPut { o with resends := o.resends + 1 })) ∧
  (∀ (s u : State) (h : Hdr) (cause : Byte) (amdSeq : Word) (o : Outstanding), s.landingReply h 0x03 = (u, some o) →
    let v := ({ u with pl := { u.pl with
      outstanding := u.pl.outstanding.filter fun x => !(x.peer == o.peer && x.type == 0x03 && !x.last) } } :
        State).amendmentDone o.peer o.rooms (cause == 0)
    exec (.amdResult h cause amdSeq) s = .next (match o.asker with
      | some f => v.mailAnswer f 0xC042 .success [cause.setWidth 64, amdSeq]
      | none => v).evacuateNext) ∧
  (∀ (s : State) (m : Migration) (rate written : Nat), s.pl.mig = some m → m.source = true → s.pw.dev = .serving →
    (s.internalOver = true → m.failed = false →
      (m.step = 3 → exec (.migrationRoundEnd rate written) s = .next (s.cutOver m)) ∧
      (m.step = 2 → written ≤ rate * max 1 (min 9 (s.reg .LND_CTRL_FREEZE_MS 0)) →
        exec (.migrationRoundEnd rate written) s = .next ((((s.modRoom m.room fun r => { r with state := .frozen }).setMig
          (some { m with step := 3 })).postOut m.room m.peer 2).settle)) ∧
      (m.step = 2 → rate * max 1 (min 9 (s.reg .LND_CTRL_FREEZE_MS 0)) < written →
        (max 1 (s.reg .LND_CTRL_MAX_ROUNDS 0) ≤ m.rounds →
          exec (.migrationRoundEnd rate written) s = .next (s.sourceFails m)) ∧
        (m.rounds < max 1 (s.reg .LND_CTRL_MAX_ROUNDS 0) →
          exec (.migrationRoundEnd rate written) s = .next (s.postOut m.room m.peer 0)))) ∧
    (s.internalOver = false → m.step = 3 →
      let t : State := { s with rg := { s.rg with
        fetched := s.rg.fetched.filter fun c => c.ring != internalRing
        chans := s.rg.chans.filter fun (y : Nat × Channel) => y.2.ring != internalRing } }
      exec .freezeTimeout s = .next ((((t.modRoom m.room fun r => { r with state := .serving }).setMig
        (some { m with step := 2 })).postOut m.room m.peer 0).settle)))

/-- Pool commands (R424, R427, R428, R436): the manager runs them, and any other member answers Unsupported; and the
release of an extent by a host (R84). -/
def Obligations.PoolCommands : Prop :=
  (∀ (s : State) (f : Sender), MayManage s f →
    let answers := fun (u : State) (opcode : Nat) (ws : List Word) =>
      Host.Outcome.next (u.mailAnswer f opcode .success ws)
    exec (.poolStatus f) s = answers s 0xC040 [pword s.term, pword s.pl.manager, pword s.pl.standby,
      pword (s.memberList.length + 1), pword (s.reg .LND_STATE_MIRROR_STALE 0)] ∧
    exec (.poolHealth f) s = answers s 0xC041 (s.memberList.flatMap s.healthEntry) ∧
    (∀ (r : Requester) (n : Nat), exec (.setQuota f r n) s = answers (({ s with
      pl := { s.pl with quotas := put s.pl.quotas r n } } : State).mirrorChange [0, pword r.val, pword n]) 0xC043 []) ∧
    (∀ (member : Nat) (bytes : List Byte),
      let rooms := roomsIn s.part bytes
      (s.overQuota (rooms.foldl (dirApply member) s.poolRooms) = true →
        exec (.deliverAmendment f member bytes) s = answers s 0xC042 [pword quotaCause, 0]) ∧
      (s.overQuota (rooms.foldl (dirApply member) s.poolRooms) = false → s.pl.evacuating = none → member = s.index →
        exec (.deliverAmendment f member bytes) s = answers ((s.amend bytes).1.amendmentDone member rooms
          ((s.amend bytes).2.1 == 0)) 0xC042 [pword (s.amend bytes).2.1, pword (s.amend bytes).2.2]) ∧
      (s.overQuota (rooms.foldl (dirApply member) s.poolRooms) = false → s.pl.evacuating = none → member ≠ s.index →
        exec (.deliverAmendment f member bytes) s = .next (s.sendAmendment member bytes rooms (some f)))) ∧
    (∀ (room : RoomNo) (source target : Nat) (d : DirRoom),
      s.poolRooms.find? (fun d => d.device == source && d.room == room.val) = some d → d.step = 0 →
      (s.poolRooms.any fun d => d.device == target && d.room == room.val) = false → source ≠ target →
      target = s.index ∨ s.reaches target = true →
      exec (.migrateRoom f room source target) s = answers (s.startMigration d target) 0xC044 []) ∧
    (∀ member, member = s.index ∨ s.reaches member = true →
      exec (.evacuate f member) s = answers (s.evacuate member) 0xC045 []) ∧
    (∀ beat : Word, s.beat + 256 ≤ beat.toNat → exec (.poolSnapshot f beat) s = answers ((s.memberList.foldl
      (fun (u : State) m => u.landingSend m 0x08 [beat]) s).armAt beat.toNat) 0xC046 [])) ∧
  (∀ (s : State) (f : Sender), MayCommand s f → s.isManager = false →
    exec (.poolStatus f) s = .next (s.mailAnswer f 0xC040 .unsupported []) ∧
    exec (.poolHealth f) s = .next (s.mailAnswer f 0xC041 .unsupported [])) ∧
  (∀ (s : State) (q : Requester) (room : RoomNo) (region : Fin 8) (base size : Nat) (e : Extent) (others : List Extent),
    s.pw.dev.hallOn = true → s.hp.extents = e :: others → e.requester = s.requesterOf q → e.room = room.val →
    e.region = region.val → e.part base size = true →
    s.extentsOf (s.requesterOf q) - 1 + (e.rest base size).length ≤ 256 →
    exec (.releaseDc q room region base size) s = .next ((((({ s with
      hp := { s.hp with extents := others ++ e.rest base size } } : State).formerOver room).mailAnswer ⟨q, false⟩ 0x4803
        .success []).offerDeferred (s.requesterOf q)).holdersGone room))

/-- Register accesses (R4, R540 to R547): what a read of a register gives, what a write does, what an access of another
width does, and what an access to a block that cannot be reached or to no register does. -/
def Obligations.RegisterAccesses : Prop :=
  ∀ (s : State) (r : Requester) (offset : Nat) (within fetchOk : Bool) (v : Word), MayAccess s r →
    let q := s.requesterOf r
    let u := s.unlatched r offset
    (offset % 8 = 0 → ∀ p, placeOf offset = some p → s.unreached p = false →
      ((∀ x ∈ p.fields, ownRead x.1 = false) →
        exec (.registerRead .bar0 r offset 8 within fetchOk) s = .next (u.send (.regData q offset (u.regValue p))) ∧
        exec (.registerRead .bar0 r offset 4 within fetchOk) s =
          .next (({ u with hp := { u.hp with
            highLatch := put u.hp.highLatch (q * 2 ^ 20 + offset / 2 ^ 14) (offset, u.regValue p >>> 32) } } : State).send
              (.regData q offset (u.regValue p &&& 0xFFFFFFFF#64)))) ∧
      exec (.registerWrite .bar0 r offset 8 v) s = .next (u.writeReg q p (BitVec.allOnes 64) v) ∧
      exec (.registerWrite .bar0 r offset 4 v) s = .next (u.writeReg q p 0xFFFFFFFF#64 (v &&& 0xFFFFFFFF#64))) ∧
    (offset % 8 = 0 → ∀ p, placeOf offset = some p → s.unreached p = true → (∀ x ∈ p.fields, ownRead x.1 = false) →
      exec (.registerRead .bar0 r offset 8 within fetchOk) s = .next (u.send (.regData q offset 0)) ∧
      exec (.registerWrite .bar0 r offset 8 v) s = .next u) ∧
    (offset % 8 = 0 → placeOf offset = none → offset < 0x9000000 →
      exec (.registerRead .bar0 r offset 8 within fetchOk) s = .next (u.send (.regData q offset 0)) ∧
      exec (.registerWrite .bar0 r offset 8 v) s = .next u) ∧
    (∀ width, (width ≠ 4 ∧ width ≠ 8) ∨ offset % width ≠ 0 →
      exec (.registerRead .bar0 r offset width within fetchOk) s =
        .next (s.send (.regData q offset (BitVec.allOnes 64))) ∧
      exec (.registerWrite .bar0 r offset width v) s = .next s)

/-- Register accesses that do not act (R93, R467, R532, R543): BAR0 from a requester that is no management requester,
reads of BAR2, counter pages a requester may not read, writes of BAR4, and I3C while the Hall has power. -/
def Obligations.RegisterRefusals : Prop :=
  ∀ (s : State) (r : Requester) (offset width : Nat) (within fetchOk : Bool) (v : Word),
    let q := s.requesterOf r
    (s.pw.dev.hallOn = true → s.hp.behind = [] →
      (s.isManagement q = false → (∀ x ∈ s.fl.stalled, x.2.1 ≠ q) → (∀ x ∈ s.cb.waiting, x.2.2.1 ≠ q) →
        exec (.registerRead .bar0 r offset width within fetchOk) s =
          .next ((s.send (.regUnsupported q offset)).barRefused q offset) ∧
        exec (.registerWrite .bar0 r offset width v) s = .next (s.barRefused q offset)) ∧
      exec (.registerRead .bar2 r offset width within fetchOk) s = .next (s.send (.regData q offset 0)) ∧
      exec (.registerWrite .bar4 r offset width v) s = .next s ∧
      (∀ x, offset % 8 = 0 → s.room (offset / 0x2000) = some x → s.isManagement q = false →
        (x.cfg.counterAccess = false ∨ x.cfg.admits q = false) →
        exec (.registerRead .bar4 r offset 8 within fetchOk) s = .next (s.send (.regData q offset 0)))) ∧
    (s.porchAnswers = false → exec (.registerRead .i3c r offset width within fetchOk) s = .next s ∧
      exec (.registerWrite .i3c r offset width v) s = .next s) ∧
    (s.porchAnswers = true → ∀ p, placeOf (offset / 8 * 8) = some p → p.porch = true → p.block ≠ .prcRt →
      exec (.registerRead .i3c r offset width within fetchOk) s = .next (s.send (.regData r.val offset (s.regValue p))))

/-- The four quadrants of a register block (R5, R6, R7): a read at any of them returns the register's value; a write gives
every RW field of the register the bits that its quadrant says, and changes no other field. -/
def Obligations.RegisterQuadrants : Prop :=
  ∀ (s : State) (r : Requester) (offset : Nat) (p : RegPlace) (quad : Fin 4) (within fetchOk : Bool) (v : Word),
    MayAccess s r → RegsOk s.regs → offset % 8 = 0 → offset % 0x4000 < 0x1000 → placeOf offset = some p →
    p.block ≠ .msixDest → p.block ≠ .roomWin → s.unreached p = false →
    let at_ := offset + 0x1000 * quad.val
    let u := s.unlatched r at_
    let old := u.regValue p
    let new : Word := match quad with | 0 => v | 1 => old ||| v | 2 => old &&& ~~~v | 3 => old ^^^ v
    ((∀ x ∈ p.fields, ownRead x.1 = false) → exec (.registerRead .bar0 r at_ 8 within fetchOk) s =
      .next (u.send (.regData (s.requesterOf r) at_ old))) ∧
    ((∀ x ∈ p.fields, x.1.desc.type ≠ .wo ∧ (x.1.desc.type = .rw → ownWrite x.1 = false)) →
      ∃ t, exec (.registerWrite .bar0 r at_ 8 v) s = .next t ∧ t = { u with regs := t.regs } ∧
        (∀ x ∈ p.fields, x.1.desc.type = .rw → t.reg x.1 x.2 = x.1.desc.of new) ∧
        SameRegs (p.fields.filter fun x => x.1.desc.type == .rw) s t)

/-- Doorbells of another requester's page (R93): every write is discarded with an event, whatever it asks; reads of BAR2
return zero. -/
def Obligations.ForeignDoorbells : Prop :=
  ∀ (s : State) (requester page : Requester) (ring : RingNo), s.pw.dev.hallOn = true →
    (s.requesterOf requester ≠ page.val →
      let gone := ((s.count 256 1).satReg .RING_ERR_FOREIGN 0 1).emitReq srcForeign (s.requesterOf requester) 2 0 0
      (∀ tail, exec (.sqTail requester page ring tail) s = .next gone) ∧
      (∀ head, exec (.cqHead requester page ring head) s = .next gone) ∧
      exec (.ringStart requester page ring) s = .next gone ∧ exec (.ringStop requester page ring) s = .next gone ∧
      exec (.ringResume requester page ring) s = .next gone ∧ exec (.ringReset requester page ring) s = .next gone ∧
      (∀ value, exec (.semAdd requester page ring value) s = .next gone) ∧
      (∀ flags, exec (.eventSet requester page ring flags) s = .next gone) ∧
      (∀ data, exec (.context requester page ring data) s = .next gone) ∧
      (∀ (offset width : Nat) (v : Word), s.hp.behind = [] → offset / 0x40000 = page.val →
        exec (.registerWrite .bar2 requester offset width v) s = .next gone) ∧
      gone.rg = s.rg ∧ gone.ti = s.ti ∧ (s.fl.dead = false →
        ∃ ev, gone.fl.inbox = s.fl.inbox ++ [ev] ∧ ev.info.source = 177 ∧ ev.info.masterId = s.requesterOf requester)) ∧
    (∀ (offset width : Nat) (within fetchOk : Bool), s.hp.behind = [] →
      exec (.registerRead .bar2 requester offset width within fetchOk) s =
        .next (s.send (.regData (s.requesterOf requester) offset 0)))

/-- A CONTEXT write (R379, R377): accepted only in IDLE, with the sizes, the bases and the interrupt mode the rule admits;
then the fields the device sets are zero, PHASE is 1 and the ring is STOPPED. Otherwise it is ignored and counted. -/
def Obligations.ContextWrites : Prop :=
  ∀ (s : State) (requester page : Requester) (ring : RingNo) (data : Line), RingDoorbell s requester page ring →
    let k := ringKey page ring
    let field := fun (lo width : Nat) => (data.extractLsb' lo width).toNat
    let fits := 4 ≤ field 224 8 ∧ field 224 8 ≤ 16 ∧ 4 ≤ field 232 8 ∧ field 232 8 ≤ 16 ∧ field 0 64 % 64 = 0 ∧
      field 64 64 % 64 = 0 ∧ field 240 8 ≤ 2
    let c := contextOf data
    (c.sqBase = field 0 64 ∧ c.cqBase = field 64 64 ∧ c.msiAddr = field 128 64 ∧ c.msiData.toNat = field 192 32 ∧
      c.sqLog2 = field 224 8 ∧ c.cqLog2 = field 232 8 ∧ c.irqMode = field 240 8 ∧ c.coalesceCount = field 384 8 ∧
      c.coalesceTime = field 392 16 ∧ c.state = .stopped ∧ c.sqHead = 0 ∧ c.sqTail = 0 ∧ c.cqTail = 0 ∧ c.cqHead = 0 ∧
      c.errIndex = 0 ∧ c.errStatus = 0 ∧ c.phase = true) ∧
    ((s.ctx k).state = .idle → fits → exec (.context requester page ring data) s =
      .next (((s.count 256 1).setCtx k c).setRing k .stopped)) ∧
    ((s.ctx k).state ≠ .idle ∨ ¬ fits → ∃ t, exec (.context requester page ring data) s = .next t ∧ t.rg = s.rg ∧
      (RegsOk s.regs → t.reg .RING_ERR_BAD_CONTEXT 0 = min (2 ^ Fld.RING_ERR_BAD_CONTEXT.desc.width - 1)
        ((s.count 256 1).reg .RING_ERR_BAD_CONTEXT 0 + 1)))

/-- Presetting a counter (R524): a write of a live counter through PMC_WIN sets its value, and the next event counts from
the value written; no other counter changes. -/
def Obligations.CounterPreset : Prop :=
  ∀ (s : State) (block : Option Wing) (i : Fin 128) (v : BitVec 48) (c : Nat), s.pw.dev.hallOn = true →
    s.windowShadow block = false → s.windowCounter block i.val = some c → counterListed c = true →
    ∃ t, exec (.pmcWin block i v) s = .next t ∧ lookD t.me.live c 0 = v.toNat ∧
      (∀ n, t.flag .PMC_CTRL_FREEZE 0 = false → lookD (t.count c n).me.live c 0 = (v.toNat + n) % 2 ^ 48) ∧
      (∀ other, other ≠ c → lookD t.me.live other 0 = lookD s.me.live other 0) ∧
      SameRegs [(.PMC_OVF, (ovfBit c).1)] s t ∧ t = { s with regs := t.regs, me := { s.me with live := t.me.live } }

/-- What the image commands leave in the boot flash (R26): a write clears bits of the bytes it names and of no other; the
erase that IMAGE_BEGIN starts leaves its slot erased and every byte outside it as it was. -/
def Obligations.ImageBytes : Prop :=
  (∀ (s : State) (f : Sender) (offset : Nat) (bytes : List Byte) (t : Nat), MayCommand s f → FlashOk s.flash.cells →
    s.flash.target = some t → s.flash.erased = true → s.reg .HALL_FP_STATUS_ACTIVE 0 ≠ t + 1 → offset % 256 = 0 →
    256 ≤ bytes.length → bytes.length ≤ 8192 → offset + bytes.length ≤ 0x02000000 →
    ∃ u, exec (.imageWrite f offset bytes) s = .next u ∧
      (∀ i b, bytes[i]? = some b → flashByte u.flash.cells (slotBase t + offset + i) =
        flashByte s.flash.cells (slotBase t + offset + i) &&& b) ∧
      (∀ a, a < slotBase t + offset ∨ slotBase t + offset + bytes.length ≤ a →
        flashByte u.flash.cells a = flashByte s.flash.cells a) ∧
      u = { s with flash := u.flash, out := u.out }) ∧
  (∀ (s : State) (t : Nat), s.hp.background = some (.imageBegin t) →
    ∃ u, exec .backgroundCommandDone s = .next u ∧
      (∀ a, slotBase t ≤ a → a < slotBase t + 0x02000000 → flashByte u.flash.cells a = 0xFF) ∧
      (∀ a, a < slotBase t ∨ slotBase t + 0x02000000 ≤ a → flashByte u.flash.cells a = flashByte s.flash.cells a) ∧
      u = { s with flash := u.flash, out := u.out, hp := { s.hp with background := none } })

/-- What commands leave as it is: measurement changes only counters, samples and their registers; the fault collector's
registers, the link's commands and the ring doorbells change nothing stored; board samples change only the Porch. -/
def Obligations.Frames : Prop :=
  (∀ (s t : State) (c : Instr), ((∃ on, c = .pmcFreeze on) ∨ c = .snapNow ∨ c = .arm ∨ c = .disarm ∨ c = .counterSnapshot ∨
      (∃ w n, c = .pmcSmpPtr w n) ∨ (∃ k, c = .counterWrap k) ∨ (∃ b i v, c = .pmcWin b i v)) → exec c s = .next t →
    t = { s with regs := t.regs, me := t.me, out := t.out }) ∧
  (∀ (s t : State) (c : Instr), (c = .rearm ∨ (∃ w, c = .trapDone w) ∨ (∃ k, c = .bucketEnClear k) ∨
      (∃ k on, c = .force k on)) → exec c s = .next t → t = { s with regs := t.regs, fl := t.fl }) ∧
  (∀ (s t : State) (c : Instr), ((∃ n, c = .flitReplay n) ∨ c = .viral ∨ c = .hotReset ∨ c = .linkRecovery ∨ c = .retrain ∨
      c = .trainingRetry ∨ (∃ k, c = .ideKeyProgram k) ∨ (∃ v, c = .msixDestValid v) ∨ (∃ v, c = .msixUnmask v)) →
    exec c s = .next t → t = { s with regs := t.regs, fl := t.fl, hp := t.hp, out := t.out }) ∧
  (∀ (s t : State) (c : Instr), ((∃ r p k v, c = .sqTail r p k v) ∨ (∃ r p k v, c = .cqHead r p k v) ∨
      (∃ r p k, c = .ringStart r p k) ∨ (∃ r p k, c = .ringStop r p k) ∨ (∃ r p k, c = .ringResume r p k) ∨
      (∃ r p k, c = .ringReset r p k) ∨ (∃ r p k v, c = .context r p k v) ∨ (∃ r k, c = .coalesceTimer r k)) →
    exec c s = .next t → t = { s with regs := t.regs, fl := t.fl, rg := t.rg, me := t.me, out := t.out }) ∧
  (∀ (s t : State) (c : Instr), ((∃ m v, c = .monitorConversion m v) ∨ (∃ v, c = .strapSample v) ∨
      (∃ v, c = .resSenseSample v)) → exec c s = .next t → t = { s with regs := t.regs, pw := t.pw })

/-- A step runs the command at the front of the queue with the queue's rest; an empty queue idles (log entry 5: the
model's choice). -/
def Obligations.StepRunsFront : Prop :=
  (∀ (c : Instr) (s : State), step { s with pending := c :: s.pending } = exec c s) ∧
  (∀ s : State, s.pending = [] → step s = .next s)

/-- The state after reset: no supply, nothing powered, every register field at its value after reset, nothing in flash,
media or Cupboard, no room, no command waiting; and its memories are in canonical form. -/
def Obligations.ResetState : Prop :=
  (∀ (f : Fld) (i : Nat), State.reset.reg f i = f.init) ∧ State.reset.pw.dev = .noVstby ∧ State.reset.pw.enables = 0 ∧
  State.reset.pending = [] ∧ State.reset.out = [] ∧ State.reset.rooms = [] ∧ State.reset.plan = none ∧
  (∀ a, flashByte State.reset.flash.cells a = 0xFF) ∧ (∀ room page, State.reset.page room page = Page.blank) ∧
  RegsOk State.reset.regs ∧ MemoryOk State.reset ∧ PendingOk State.reset

/-- Every step keeps the register table and the memories in their canonical forms, so that equal contents are equal
data. -/
def Obligations.StepKeepsCanonical : Prop :=
  ∀ s t : State, RegsOk s.regs → MemoryOk s → step s = .next t → RegsOk t.regs ∧ MemoryOk t

/-- Every step takes one command off the queue and adds none, keeps what has left the device, draws no free value twice, and
keeps the part. -/
def Obligations.StepKeepsHistory : Prop :=
  ∀ s t : State, step s = .next t → t.pending = s.pending.tail ∧ s.out <+: t.out ∧ s.fresh ≤ t.fresh ∧ t.part = s.part
end

