-- ==== Sys2Proof/Laws/Tables.lean ====
section
/-! SUPPORT. The laws of the sparse tables: reading after a write or a removal, and the canonical form that every
operation on a table keeps. -/

namespace Sys2Proof.Machine

variable {α : Type}

@[simp] theorem look_nil (k : Nat) : look ([] : SMap α) k = none := rfl

/-- A key set reads as set. -/
@[simp] theorem look_put_same (m : SMap α) (k : Nat) (v : α) : look (put m k v) k = some v := by
  induction m with
  | nil => simp [put, look]
  | cons p m ih =>
    obtain ⟨k', v'⟩ := p
    unfold put
    split
    · simp [look]
    · split
      · simp [look]
      · next h => simp [look, h, ih]

/-- Setting a key leaves every other key as it was. -/
theorem look_put_other (m : SMap α) {k j : Nat} (v : α) (h : j ≠ k) : look (put m k v) j = look m j := by
  induction m with
  | nil => simp [put, look, h]
  | cons p m ih =>
    obtain ⟨k', v'⟩ := p
    unfold put
    split
    · simp [look, h]
    · split
      · next e => subst e; simp [look, h]
      · simp [look, ih]

/-- A key below every key of a table is not in it. -/
theorem look_below {m : SMap α} {k : Nat} (h : ∀ p ∈ m, k < p.1) : look m k = none := by
  induction m with
  | nil => rfl
  | cons p m ih =>
    obtain ⟨k', v'⟩ := p
    have h1 := h (k', v') (by simp)
    simp only [look]
    rw [if_neg (by simp at h1; omega)]
    exact ih fun p hp => h p (by simp [hp])

/-- A key removed from a table in canonical form is no longer there. -/
theorem look_del_same {m : SMap α} (hm : SortedKeys m) (k : Nat) : look (del m k) k = none := by
  induction m with
  | nil => rfl
  | cons p m ih =>
    obtain ⟨k', v'⟩ := p
    unfold del
    split
    · next e => subst e; exact look_below hm.1
    · next e => simp [look, e, ih hm.2]

/-- Removing a key leaves every other key as it was. -/
theorem look_del_other (m : SMap α) {k j : Nat} (h : j ≠ k) : look (del m k) j = look m j := by
  induction m with
  | nil => rfl
  | cons p m ih =>
    obtain ⟨k', v'⟩ := p
    unfold del
    split
    · next e => subst e; simp [look, h]
    · simp [look, ih]

/-- What a table that a key was set in holds. -/
theorem mem_put {m : SMap α} {k : Nat} {v : α} {p : Nat × α} (h : p ∈ put m k v) : p = (k, v) ∨ p ∈ m := by
  induction m with
  | nil => simpa [put] using h
  | cons q m ih =>
    obtain ⟨k', v'⟩ := q
    unfold put at h
    split at h
    · simpa using h
    · split at h
      · simp at h
        tauto
      · simp at h
        rcases h with h | h
        · simp [h]
        · have := ih h
          simp
          tauto

/-- What is left in a table after a removal was there before. -/
theorem mem_del {m : SMap α} {k : Nat} {p : Nat × α} (h : p ∈ del m k) : p ∈ m := by
  induction m with
  | nil => simp [del] at h
  | cons q m ih =>
    obtain ⟨k', v'⟩ := q
    unfold del at h
    split at h
    · simp [h]
    · simp at h
      rcases h with h | h
      · simp [h]
      · simp [ih h]

theorem sortedKeys_nil : SortedKeys ([] : SMap α) := trivial

/-- Setting a key keeps the canonical form. -/
theorem sortedKeys_put {m : SMap α} (hm : SortedKeys m) (k : Nat) (v : α) : SortedKeys (put m k v) := by
  induction m with
  | nil => simp [put, SortedKeys]
  | cons p m ih =>
    obtain ⟨k', v'⟩ := p
    unfold put
    split
    · next h =>
      refine ⟨?_, hm⟩
      intro p hp
      simp at hp
      rcases hp with rfl | hp
      · exact h
      · exact lt_trans h (hm.1 p hp)
    · split
      · next e => subst e; exact hm
      · next h1 h2 =>
        refine ⟨?_, ih hm.2⟩
        intro p hp
        rcases mem_put hp with rfl | hp
        · show k' < k
          omega
        · exact hm.1 p hp

/-- Removing a key keeps the canonical form. -/
theorem sortedKeys_del {m : SMap α} (hm : SortedKeys m) (k : Nat) : SortedKeys (del m k) := by
  induction m with
  | nil => trivial
  | cons p m ih =>
    obtain ⟨k', v'⟩ := p
    unfold del
    split
    · exact hm.2
    · exact ⟨fun p hp => hm.1 p (mem_del hp), ih hm.2⟩

/-- Filtering a table keeps the canonical form. -/
theorem sortedKeys_filter {m : SMap α} (hm : SortedKeys m) (f : Nat × α → Bool) : SortedKeys (m.filter f) := by
  induction m with
  | nil => trivial
  | cons p m ih =>
    obtain ⟨k', v'⟩ := p
    rw [List.filter_cons]
    split
    · exact ⟨fun p hp => hm.1 p (List.mem_of_mem_filter hp), ih hm.2⟩
    · exact ih hm.2

end Sys2Proof.Machine
end

