-- ==== Sys2Proof/Laws/Registers.lean ====
section
/-! SUPPORT. The laws of the register table: a field reads as it was set, cut to its width; setting one field leaves
every other instance alone; every setting keeps the table's canonical form. -/

namespace Sys2Proof.Machine

/-- The fields are fewer than 512. -/
theorem ctorIdx_lt (f : Fld) : f.ctorIdx < 512 := by
  cases f <;> decide

/-- The field of a key. -/
@[simp] theorem keyFld_key (f : Fld) (i : Nat) : keyFld (f.key i) = f := by
  have h := ctorIdx_lt f
  have e : (i * 512 + f.ctorIdx) % 512 = f.ctorIdx := by omega
  simp only [keyFld, Fld.key, e]
  exact Fld.ofNat_ctorIdx f

/-- The instance of a key. -/
@[simp] theorem keyInst_key (f : Fld) (i : Nat) : keyInst (f.key i) = i := by
  have h := ctorIdx_lt f
  simp only [keyInst, Fld.key]
  omega

/-- A key names one field and one instance. -/
theorem key_inj {f g : Fld} {i j : Nat} : f.key i = g.key j ↔ f = g ∧ i = j := by
  constructor
  · intro h
    have h1 := congrArg keyFld h
    have h2 := congrArg keyInst h
    simp at h1 h2
    exact ⟨h1, h2⟩
  · rintro ⟨rfl, rfl⟩
    rfl

/-- The value after reset of every field fits its width. -/
theorem init_lt (f : Fld) : f.init < 2 ^ f.desc.width := by
  cases f <;> decide

variable (s : State) (f g : Fld) (i j v : Nat)

/-- A field set reads as the value cut to its width, in a table in canonical form. -/
theorem reg_setReg_same (h : SortedKeys s.regs) : (s.setReg f i v).reg f i = v % 2 ^ f.desc.width := by
  unfold State.setReg State.reg
  dsimp only
  split
  · next e => simp [look_del_same h, ← e]
  · simp

/-- Setting an instance leaves every other one as it was. -/
theorem reg_setReg_other (h : ¬ (g = f ∧ j = i)) : (s.setReg f i v).reg g j = s.reg g j := by
  have hk : g.key j ≠ f.key i := fun e => h (key_inj.1 e)
  unfold State.setReg State.reg
  dsimp only
  split
  · rw [look_del_other _ hk]
  · rw [look_put_other _ _ hk]

/-- Setting a field keeps the register table's canonical form. -/
theorem regsOk_setReg {s : State} (h : RegsOk s.regs) : RegsOk (s.setReg f i v).regs := by
  unfold State.setReg
  dsimp only
  split
  · exact ⟨sortedKeys_del h.1 _, fun p hp => h.2 p (mem_del hp)⟩
  · next e =>
    refine ⟨sortedKeys_put h.1 _ _, fun p hp => ?_⟩
    rcases mem_put hp with rfl | hp
    · exact ⟨f, i, rfl, Nat.mod_lt _ (by positivity), e⟩
    · exact h.2 p hp

/-- A filtered register table stays canonical. -/
theorem regsOk_filter {m : SMap Nat} (h : RegsOk m) (keep : Nat × Nat → Bool) : RegsOk (m.filter keep) :=
  ⟨sortedKeys_filter h.1 keep, fun p hp => h.2 p (List.mem_of_mem_filter hp)⟩

/-- A field of a canonical table fits its width. -/
theorem reg_lt {s : State} (h : RegsOk s.regs) : s.reg f i < 2 ^ f.desc.width := by
  unfold State.reg
  cases e : look s.regs (f.key i) with
  | none => simpa using init_lt f
  | some x =>
    have mem : (f.key i, x) ∈ s.regs := by
      generalize s.regs = m at e
      clear h
      induction m with
      | nil => simp [look] at e
      | cons p m ih =>
        obtain ⟨k', v'⟩ := p
        simp only [look] at e
        split at e
        · next ek => simp at e; simp [ek, e]
        · simp [ih e]
    obtain ⟨g, j, hk, hv, -⟩ := h.2 _ mem
    obtain ⟨rfl, rfl⟩ := key_inj.1 hk
    simpa using hv

end Sys2Proof.Machine
end

