-- ==== Sys2Proof/Laws/Places.lean ====
section
/-! SUPPORT. The fields of a register: they do not overlap, so that each is read from the register's value; and what a
write of a register leaves in each field. -/

namespace Sys2Proof.Machine

/-- Two rows of a block whose fields, where a register holds both, lie one below the other. -/
def FldRow.apart (a b : FldRow) : Bool :=
  (a.fld.desc.lo + a.fld.desc.width ≤ b.fld.desc.lo) || (a.off + a.stride * a.count ≤ b.off) ||
    (b.off + b.stride * b.count ≤ a.off) || (a.stride == b.stride && a.off % a.stride != b.off % b.stride)

/-- The rows of every block are apart. -/
theorem rows_apart (b : Block) : b.rows.Pairwise fun x y => x.apart y = true := by
  cases b <;> decide

/-- The rows of every block have a stride. -/
theorem rows_stride (b : Block) : ∀ r ∈ b.rows, 0 < r.stride := by
  cases b <;> decide

/-- A field fits a word, and has a width. -/
theorem lo_width (f : Fld) : f.desc.lo + f.desc.width ≤ 64 ∧ 0 < f.desc.width := by
  cases f <;> decide
/-- Rows that both have a register at an offset and are apart have their fields one below the other. -/
theorem below_of_apart {a b : FldRow} {rel : Nat} (ha : 0 < a.stride) (hb : 0 < b.stride) (h : a.apart b = true)
    (h1 : a.off ≤ rel) (h2 : (rel - a.off) % a.stride = 0) (h3 : (rel - a.off) / a.stride < a.count)
    (h4 : b.off ≤ rel) (h5 : (rel - b.off) % b.stride = 0) (h6 : (rel - b.off) / b.stride < b.count) :
    a.fld.desc.lo + a.fld.desc.width ≤ b.fld.desc.lo := by
  have e1 : rel = a.off + a.stride * ((rel - a.off) / a.stride) := by
    have := Nat.div_add_mod (rel - a.off) a.stride; omega
  have e2 : rel = b.off + b.stride * ((rel - b.off) / b.stride) := by
    have := Nat.div_add_mod (rel - b.off) b.stride; omega
  have m1 := Nat.mul_lt_mul_of_pos_left h3 ha
  have m2 := Nat.mul_lt_mul_of_pos_left h6 hb
  simp only [FldRow.apart, Bool.or_eq_true, Bool.and_eq_true, decide_eq_true_eq, beq_iff_eq, bne_iff_ne] at h
  rcases h with ((h | h) | h) | ⟨hs, hm⟩
  · exact h
  · omega
  · omega
  · refine absurd ?_ hm
    have r1 : rel % a.stride = a.off % a.stride := by rw [e1]; simp
    have r2 : rel % b.stride = b.off % b.stride := by rw [e2]; simp
    rw [← hs] at r2
    rw [← r1, ← hs, ← r2]

/-- The fields of a register, in rising places. -/
theorem fields_rising (p : RegPlace) :
    p.fields.Pairwise fun x y => x.1.desc.lo + x.1.desc.width ≤ y.1.desc.lo := by
  unfold RegPlace.fields
  rw [List.pairwise_filterMap]
  refine List.Pairwise.imp_of_mem ?_ (rows_apart p.block)
  intro a b ma mb h x hx y hy
  dsimp only at hx hy
  split at hx <;> simp only [Option.some.injEq, reduceCtorEq] at hx
  split at hy <;> simp only [Option.some.injEq, reduceCtorEq] at hy
  next c1 c2 =>
    simp only [Bool.and_eq_true, decide_eq_true_eq] at c1 c2
    subst hx hy
    exact below_of_apart (rows_stride _ _ ma) (rows_stride _ _ mb) h c1.1.1 c1.1.2 c1.2 c2.1.1 c2.1.2 c2.2

/-- The fields of a register are distinct. -/
theorem fields_nodup (p : RegPlace) : p.fields.Nodup := by
  refine (fields_rising p).imp ?_
  rintro x y h rfl
  have := (lo_width x.1).2
  omega

/-- A sum of fields in rising places, above a bit: every field is found in it, and nothing lies below the bit. -/
theorem sum_fields (l : List (Fld × Nat)) (v : Fld × Nat → Nat) (b : Nat)
    (h : l.Pairwise fun x y => x.1.desc.lo + x.1.desc.width ≤ y.1.desc.lo) (hb : ∀ x ∈ l, b ≤ x.1.desc.lo) :
    2 ^ b ∣ (l.map fun x => v x % 2 ^ x.1.desc.width * 2 ^ x.1.desc.lo).sum ∧
    ∀ x ∈ l, (l.map fun x => v x % 2 ^ x.1.desc.width * 2 ^ x.1.desc.lo).sum / 2 ^ x.1.desc.lo % 2 ^ x.1.desc.width =
      v x % 2 ^ x.1.desc.width := by
  induction l generalizing b with
  | nil => simp
  | cons y l ih =>
    rw [List.pairwise_cons] at h
    have hy := hb y (by simp)
    obtain ⟨d, e⟩ := ih (y.1.desc.lo + y.1.desc.width) h.2 h.1
    simp only [List.map_cons, List.sum_cons]
    generalize (l.map fun x => v x % 2 ^ x.1.desc.width * 2 ^ x.1.desc.lo).sum = S at d e
    have small : v y % 2 ^ y.1.desc.width * 2 ^ y.1.desc.lo < 2 ^ (y.1.desc.lo + y.1.desc.width) := by
      rw [Nat.pow_add, Nat.mul_comm]
      exact Nat.mul_lt_mul_of_pos_left (Nat.mod_lt _ (by positivity)) (by positivity)
    constructor
    · refine Nat.dvd_add ?_ ((pow_dvd_pow 2 (by omega)).trans d)
      exact (pow_dvd_pow 2 hy).mul_left _
    · intro x hx
      rcases List.mem_cons.1 hx with rfl | hx
      · obtain ⟨c, rfl⟩ := d
        rw [Nat.pow_add, Nat.mul_assoc, Nat.mul_comm (v x % _), ← Nat.mul_add,
          Nat.mul_div_cancel_left _ (by positivity), Nat.add_mul_mod_self_left, Nat.mod_mod]
      · rw [← e x hx]
        obtain ⟨c, rfl⟩ := d
        obtain ⟨k, hk⟩ := Nat.exists_eq_add_of_le (h.1 x hx)
        rw [hk, Nat.pow_add 2 (y.1.desc.lo + y.1.desc.width) k, ← Nat.div_div_eq_div_mul, ← Nat.div_div_eq_div_mul,
          Nat.add_mul_div_left _ _ (by positivity), Nat.mul_div_cancel_left _ (by positivity), Nat.div_eq_of_lt small,
          Nat.zero_add]

/-- The sum of a register's fields fits a word. -/
theorem sum_lt (l : List (Fld × Nat)) (v : Fld × Nat → Nat) (b : Nat) (h6 : b ≤ 64)
    (h : l.Pairwise fun x y => x.1.desc.lo + x.1.desc.width ≤ y.1.desc.lo) (hb : ∀ x ∈ l, b ≤ x.1.desc.lo) :
    (l.map fun x => v x % 2 ^ x.1.desc.width * 2 ^ x.1.desc.lo).sum + 2 ^ b ≤ 2 ^ 64 := by
  induction l generalizing b with
  | nil => simpa using Nat.pow_le_pow_right (by omega) h6
  | cons y l ih =>
    rw [List.pairwise_cons] at h
    have hy := hb y (by simp)
    have e := ih (y.1.desc.lo + y.1.desc.width) (lo_width y.1).1 h.2 h.1
    simp only [List.map_cons, List.sum_cons]
    have small : v y % 2 ^ y.1.desc.width * 2 ^ y.1.desc.lo + 2 ^ y.1.desc.lo ≤ 2 ^ (y.1.desc.lo + y.1.desc.width) := by
      have := Nat.mod_lt (v y) (show 0 < 2 ^ y.1.desc.width by positivity)
      rw [Nat.pow_add, Nat.mul_comm (2 ^ y.1.desc.lo), ← Nat.succ_mul]
      exact Nat.mul_le_mul_right _ this
    have low : 2 ^ b ≤ 2 ^ y.1.desc.lo := Nat.pow_le_pow_right (by omega) hy
    omega

/-- A field of a register is in the register's value as it is shown. -/
theorem field_of_regValue (s : State) {p : RegPlace} {x : Fld × Nat} (h : x ∈ p.fields) :
    x.1.desc.of (s.regValue p) = s.show x.1 x.2 % 2 ^ x.1.desc.width := by
  have l := sum_lt p.fields (fun x => s.show x.1 x.2) 0 (by omega) (fields_rising p) (by simp)
  have e := (sum_fields p.fields (fun x => s.show x.1 x.2) 0 (fields_rising p) (by simp)).2 x h
  unfold State.regValue FldDesc.of
  generalize (p.fields.map fun x => s.show x.1 x.2 % 2 ^ x.1.desc.width * 2 ^ x.1.desc.lo).sum = n at l e ⊢
  have small : (BitVec.ofNat 64 n).toNat = n := by rw [BitVec.toNat_ofNat]; exact Nat.mod_eq_of_lt (by omega)
  rw [small, e]

/-- A field that software writes is shown as it is stored, but for a counter in its window. -/
theorem show_stored (s : State) (f : Fld) (i : Nat) (ht : f.desc.type = .rw) (hf : f ≠ .PMC_WIN_VALUE) :
    s.show f i = s.reg f i := by
  cases f <;> first | (cases ht; done) | rfl | (exact absurd rfl hf)

end Sys2Proof.Machine
end

