-- ==== Sys2Proof/Laws/Accesses.lean ====
section
/-! SUPPORT. What a register access does, said once: it runs at once for a management requester that nothing holds back, a
read delivers what its place holds, and a write reaches its register. -/

namespace Sys2Proof

open Machine

/-- Nothing stalls the accesses of a requester that may access. -/
theorem MayAccess.free {s : State} {r : Requester} (h : MayAccess s r) (b : Nat) : s.stalledAt (s.requesterOf r) b =
    false := by
  unfold State.stalledAt
  rw [Bool.or_eq_false_iff]
  constructor
  · rw [List.any_eq_false]; intro x hx; simp [h.events x hx]
  · rw [Bool.and_eq_false_iff]; right
    rw [List.any_eq_false]; intro x hx; simp [h.pages x hx]

end Sys2Proof

namespace Sys2Proof.Machine

/-- An access of a requester that may access acts at once. -/
theorem access_run {s : State} {r : Requester} (h : MayAccess s r) (offset width : Nat) (value : Option Word) (a b :
    Bool) :
    s.access { path := .bar0, requester := r.val, offset := offset, width := width, value := value, within1us := a, fetchOk := b } =
    s.accessNow { path := .bar0, requester := s.requesterOf r, offset := offset, width := width, value := value, within1us := a, fetchOk := b } := by
  unfold State.access
  have rel : s.release = s := by unfold State.release; rw [h.behind]; rfl
  rw [if_neg (by simp), if_neg (by simp [h.hallOn])]
  dsimp only
  rw [rel, if_neg]
  simp [State.heldBack, h.free]

/-- The same of an access that nothing holds back. -/
theorem run_bar {s : State} (h : s.pw.dev.hallOn = true) (hb : s.hp.behind = []) (a : Access) (hp : a.path ≠ .i3c)
    (hh : s.heldBack { a with requester := s.requesterOf a.requester } = false) :
    s.access a = s.accessNow { a with requester := s.requesterOf a.requester } := by
  unfold State.access
  have rel : s.release = s := by unfold State.release; rw [hb]; rfl
  rw [if_neg (by simp [hp]), if_neg (by simp [h])]
  dsimp only
  rw [rel, if_neg (by simp [hh])]

/-- A read of BAR0. -/
theorem read_run {s : State} {r : Requester} (h : MayAccess s r) (offset : Nat) (a b : Bool) (w : Nat) (hw : w = 4 ∨
    w = 8) (ho : offset % 8 = 0) :
    s.access { path := .bar0, requester := r.val, offset := offset, width := w, value := none, within1us := a, fetchOk := b } =
    s.readBar0 { path := .bar0, requester := s.requesterOf r, offset := offset, width := w, value := none, within1us := a, fetchOk := b } := by
  rw [access_run h]
  unfold State.accessNow State.read
  dsimp only
  rw [if_neg (by simp [h.management]), if_neg]
  rcases hw with hw | hw <;> simp [Access.odd, hw] <;> omega

/-- The half of a 64-bit access. -/
theorem half8 (q o : Nat) (v) (a b : Bool) :
    ({ path := .bar0, requester := q, offset := o, width := 8, value := v, within1us := a, fetchOk := b } :
    Access).half = .all := rfl

/-- The half of an aligned 32-bit access. -/
theorem half4 (q o : Nat) (v) (a b : Bool) (h : o % 8 = 0) :
    ({ path := .bar0, requester := q, offset := o, width := 4, value := v, within1us := a, fetchOk := b } :
    Access).half = .low := by
  unfold Access.half; simp [h]

/-- Only a read of the high half meets the latch. -/
theorem latched_none (s : State) (a : Access) (h : a.half ≠ .high) : s.latched a = none := by
  unfold State.latched
  split
  · rw [if_neg (by simp [h])]
  · rfl

/-- A read of a register. -/
theorem bar0_read {s : State} (a : Access) (ho : a.offset % 8 = 0) (hh : a.half ≠ .high) {p} (hp : placeOf a.offset
    = some p) :
    s.readBar0 a = (s.unlatch a).readPlace a a.offset p := by
  have at_ : a.offset / 8 * 8 = a.offset := by omega
  unfold State.readBar0
  rw [latched_none s a hh]
  dsimp only
  rw [at_, hp]

/-- A read of no register. -/
theorem bar0_read_none {s : State} (a : Access) (ho : a.offset % 8 = 0) (hh : a.half ≠ .high) (hp : placeOf a.offset
    = none) (hl : a.offset < 0x9000000) :
    s.readBar0 a = (s.unlatch a).deliver a.requester a.offset a.half 0 := by
  have at_ : a.offset / 8 * 8 = a.offset := by omega
  unfold State.readBar0
  rw [latched_none s a hh]
  dsimp only
  rw [at_, hp]
  dsimp only
  rw [if_neg (by simp; omega), if_neg (by simp; omega)]

/-- REGISTER_READ over BAR0. -/
theorem exec_read {s : State} {r : Requester} (h : MayAccess s r) (offset : Nat) (a b : Bool) (w : Nat) (hw : w = 4
    ∨ w = 8) (ho : offset % 8 = 0) :
    exec (.registerRead .bar0 r offset w a b) s =
    .next (s.readBar0 { path := .bar0, requester := s.requesterOf r, offset := offset, width := w, value := none, within1us := a, fetchOk := b }) := by
  rw [← read_run h offset a b w hw ho]; rfl

/-- REGISTER_WRITE over BAR0. -/
theorem write_run {s : State} {r : Requester} (h : MayAccess s r) (offset : Nat) (v : Word) (w : Nat) (hw : w = 4 ∨
    w = 8) (ho : offset % 8 = 0) :
    exec (.registerWrite .bar0 r offset w v) s =
    .next (s.writeBar0 { path := .bar0, requester := s.requesterOf r, offset := offset, width := w, value := some v, within1us := false, fetchOk := true } v) := by
  show execRegisterWrite _ _ _ _ _ _ = _
  unfold execRegisterWrite
  rw [access_run h]
  unfold State.accessNow State.write
  dsimp only
  rw [if_neg (by simp [h.management]), if_neg]
  rcases hw with hw | hw <;> simp [Access.odd, hw] <;> omega

/-- A plain register delivers its value. -/
theorem place_plain (s : State) (a : Access) (o : Nat) (p : RegPlace) (hr : s.unreached p = false) (hf : ∀ x ∈
    p.fields, ownRead x.1 = false) :
    s.readPlace a o p = s.deliver a.requester o a.half (s.regValue p) := by
  unfold State.readPlace
  split
  · next i e => have := hf (.PMC_WIN_VALUE, i) (by simp [e]); simp [ownRead] at this
  · rw [if_neg (by simp [hr])]
    split
    · next i e => have := hf (.FLT_EVQ_ITEM, i) (by simp [e]); simp [ownRead] at this
    · next i e => have := hf (.ATC_WIN_WORD, i) (by simp [e]); simp [ownRead] at this
    · next i e => have := hf (.CPB_DATA_WORD, i) (by simp [e]); simp [ownRead] at this
    · next i e => have := hf (.PMC_SMP_WIN_WORD, i) (by simp [e]); simp [ownRead] at this
    · next i l e => have := hf (.PRC_RT_FRAC, i) (by simp [e]); simp [ownRead] at this
    · next i l e => have := hf (.HALL_SVC_STATE, i) (by simp [e]); simp [ownRead] at this
    · rfl

/-- A register that is not reached delivers zero. -/
theorem place_gone (s : State) (a : Access) (o : Nat) (p : RegPlace) (hr : s.unreached p = true) (hf : ∀ x ∈
    p.fields, ownRead x.1 = false) :
    s.readPlace a o p = s.deliver a.requester o a.half 0 := by
  unfold State.readPlace
  split
  · next i e => have := hf (.PMC_WIN_VALUE, i) (by simp [e]); simp [ownRead] at this
  · rw [if_pos hr]

/-- A read of a port. -/
theorem port_run {s : State} {r : Requester} (h : MayAccess s r) (offset : Nat) (ok : Bool) (ho : offset % 8 = 0)
    {p : RegPlace} (hp : placeOf offset = some p) :
    s.readPort r.val offset ok = (s.unlatched r offset).readPlace
        { path := .bar0, requester := s.requesterOf r, offset := offset, width := 8, value := none, within1us := false, fetchOk := ok } offset p := by
  unfold State.readPort
  rw [read_run h _ _ _ _ (.inr rfl) ho, bar0_read _ ho (by simp [half8]) hp]; rfl

/-- The place of a wing queue port. -/
theorem place_evq (w : Wing) : placeOf (evqOffset (1 + w.val)) = some ⟨.fltW, w.val, 0x58, 0⟩ ∧ (⟨.fltW, w.val,
    0x58, 0⟩ : RegPlace).fields = [(.FLT_EVQ_ITEM, 1 + w.val)] := by
  revert w; decide

/-- The place of the Hall queue port. -/
theorem place_evq0 : placeOf (evqOffset 0) = some ⟨.flt, 0, 0x58, 0⟩ ∧ (⟨.flt, 0, 0x58, 0⟩ : RegPlace).fields =
    [(.FLT_EVQ_ITEM, 0)] := by
  decide

/-- The places of the Attic window. -/
theorem place_atc (i : Fin 128) : placeOf (0x3C800 + 8 * i.val) = some ⟨.atc, 0, 0x800 + 8 * i.val, 0⟩ ∧ (⟨.atc, 0,
    0x800 + 8 * i.val, 0⟩ : RegPlace).fields = [(.ATC_WIN_WORD, i.val)] := by
  revert i; decide

/-- The places of the Cupboard data words. -/
theorem place_cpb (i : Fin 8) : placeOf (0x40040 + 8 * i.val) = some ⟨.cpb, 0, 0x40 + 8 * i.val, 0⟩ ∧ (⟨.cpb, 0,
    0x40 + 8 * i.val, 0⟩ : RegPlace).fields = [(.CPB_DATA_WORD, i.val)] := by
  revert i; decide

/-- The places of the sample window. -/
theorem place_smp (w : Wing) (i : Fin 8) : placeOf (0x1000000 * (1 + w.val) + 0x18800 + 8 * i.val) = some ⟨.pmcW,
    w.val, 0x800 + 8 * i.val, 0⟩ ∧ (⟨.pmcW, w.val, 0x800 + 8 * i.val, 0⟩ : RegPlace).fields = [(.PMC_SMP_WIN_WORD, 8
    * w.val + i.val)] := by
  revert i w; decide

/-- A read of a queue port. -/
theorem port_evq {s : State} {a : Access} {o : Nat} {p : RegPlace} {i} (hf : p.fields = [(.FLT_EVQ_ITEM, i)]) (hr :
    s.unreached p = false) :
    s.readPlace a o p = s.readEvq i a.requester a.half := by
  unfold State.readPlace; rw [hf]; dsimp only; rw [if_neg (by simp [hr])]

/-- A read of the Attic window. -/
theorem port_atc {s : State} {a : Access} {o : Nat} {p : RegPlace} {i} (hf : p.fields = [(.ATC_WIN_WORD, i)]) (hr :
    s.unreached p = false) :
    s.readPlace a o p = s.deliver a.requester o a.half (fetched a.fetchOk (s.atcWord i)) := by
  unfold State.readPlace; rw [hf]; dsimp only; rw [if_neg (by simp [hr])]

/-- A read of a Cupboard data word. -/
theorem port_cpb {s : State} {a : Access} {o : Nat} {p : RegPlace} {i} (hf : p.fields = [(.CPB_DATA_WORD, i)]) (hr :
    s.unreached p = false) :
    s.readPlace a o p = s.readCpb i a.requester a.half := by
  unfold State.readPlace; rw [hf]; dsimp only; rw [if_neg (by simp [hr])]

/-- A read of the sample window. -/
theorem port_smp {s : State} {a : Access} {o : Nat} {p : RegPlace} {i} (hf : p.fields = [(.PMC_SMP_WIN_WORD, i)])
    (hr : s.unreached p = false) :
    s.readPlace a o p = s.deliver a.requester o a.half (fetched a.fetchOk (s.sampleWord (i / 8) (i % 8))) := by
  unfold State.readPlace; rw [hf]; dsimp only; rw [if_neg (by simp [hr])]

/-- A requester is below 4,096. -/
theorem requesterOf_lt (s : State) (r : Requester) : s.requesterOf r.val < 4096 := by
  unfold State.requesterOf; split
  · exact r.isLt
  · omega

/-- A requester's requester is itself. -/
theorem requesterOf_idem (s : State) (r : Requester) : s.requesterOf (s.requesterOf r.val) = s.requesterOf r.val := by
  unfold State.requesterOf; split <;> rfl

/-- An access of BAR2. -/
theorem bar_run {s : State} (h : s.pw.dev.hallOn = true) (hb : s.hp.behind = []) (a : Access) (hp : a.path = .bar2) :
    s.access a = s.accessNow { a with requester := s.requesterOf a.requester } := by
  unfold State.access
  have rel : s.release = s := by unfold State.release; rw [hb]; rfl
  rw [if_neg (by simp [hp]), if_neg (by simp [h])]
  dsimp only
  rw [rel, if_neg (by simp [State.heldBack, hp])]

/-- Inserting keeps the members. -/
theorem insertBy_perm {α : Type} (f : α → Nat) (x : α) (l : List α) : (insertBy f x l).Perm (x :: l) := by
  induction l with
  | nil => exact .refl _
  | cons y l ih =>
    unfold insertBy
    split
    · exact .refl _
    · exact (ih.cons y).trans (.swap x y l)

/-- Sorting keeps the members. -/
theorem sortBy_perm {α : Type} (f : α → Nat) (l : List α) : (sortBy f l).Perm l := by
  have go : ∀ (l acc : List α), (l.foldl (fun acc x => insertBy f x acc) acc).Perm (acc ++ l) := by
    intro l
    induction l with
    | nil => intro acc; simp
    | cons x l ih =>
      intro acc
      refine (ih _).trans ?_
      refine ((insertBy_perm f x acc).append_right l).trans ?_
      simpa using (List.perm_middle).symm
  simpa [sortBy] using go l []

/-- A register in another quadrant of its block. -/
theorem place_block {offset : Nat} {p : RegPlace} (quad : Fin 4) (h : placeOf offset = some p) (h0 : offset % 0x4000
    < 0x1000) (h1 : p.block ≠ .msixDest) (h2 : p.block ≠ .roomWin) :
    placeOf (offset + 0x1000 * quad.val) = some { p with quad := quad.val } := by
  have hq := quad.isLt
  unfold placeOf at h ⊢
  dsimp only at h ⊢
  have a1 : (offset + 0x1000 * quad.val) % 0x1000 / 8 * 8 = offset % 0x1000 / 8 * 8 := by omega
  have a2 : (offset + 0x1000 * quad.val) / 0x4000 = offset / 0x4000 := by omega
  have a3 : (offset + 0x1000 * quad.val) % 0x4000 / 0x1000 = quad.val := by omega
  have a4 : (offset + 0x1000 * quad.val) / 0x1000000 = offset / 0x1000000 := by omega
  have a5 : (offset + 0x1000 * quad.val) % 0x1000000 / 0x4000 = offset % 0x1000000 / 0x4000 := by omega
  rw [a1, a2, a3, a4, a5]
  split at h
  · next c =>
    rw [if_pos (by omega)]
    split at h
    · simp only [Option.some.injEq] at h; subst h; simp at h1
    · next d =>
      rw [if_neg (by simp at d ⊢; omega)]
      rw [Option.map_eq_some_iff] at h ⊢
      obtain ⟨b, hb, rfl⟩ := h
      exact ⟨b, hb, rfl⟩
  · next c =>
    rw [if_neg (by omega)]
    split at h
    · next d =>
      rw [if_pos (by omega)]
      split at h
      · next e =>
        rw [if_pos e]
        rw [Option.map_eq_some_iff] at h ⊢
        obtain ⟨b, hb, rfl⟩ := h
        exact ⟨b, hb, rfl⟩
      · next e =>
        rw [if_neg e]
        split at h
        · next e' => rw [if_pos e']; simp only [Option.some.injEq] at h; subst h; rfl
        · next e' =>
          rw [if_neg e']
          split at h
          · next e'' => rw [if_pos e'']; simp only [Option.some.injEq] at h; subst h; rfl
          · simp at h
    · next d =>
      split at h
      · simp only [Option.some.injEq] at h; subst h; simp at h2
      · simp at h

/-- A field as a slice of its register. -/
theorem extract_of (d : FldDesc) (v : Word) : d.of v = (v.extractLsb' d.lo d.width).toNat := by
  simp [FldDesc.of, BitVec.extractLsb'_toNat, Nat.shiftRight_eq_div_pow]

/-- The mask of a field has the field's bits. -/
theorem mask_bit (f : Fld) (j : Nat) (h : f.desc.lo ≤ j) (h' : j < f.desc.lo + f.desc.width) : f.desc.mask.getLsbD j
    = true := by
  have := (lo_width f).1
  unfold FldDesc.mask
  rw [BitVec.getLsbD_ofNat]
  simp only [Nat.testBit_mul_two_pow, Nat.testBit_two_pow_sub_one]
  simp; omega

/-- A field no reached bit of which differs. -/
theorem same_of (f : Fld) (a b r : Word) (h : r &&& f.desc.mask = 0) (hab : ∀ j, r.getLsbD j = false → a.getLsbD j =
    b.getLsbD j) : f.desc.of a = f.desc.of b := by
  rw [extract_of, extract_of]
  congr 1
  ext j hj
  simp only [BitVec.getElem_extractLsb']
  apply hab
  have e := congrArg (fun x => x.getLsbD (f.desc.lo + j)) h
  simp [mask_bit f (f.desc.lo + j) (by omega) (by omega)] at e
  exact e

/-- A write of a field that is only stored. -/
theorem writeRw_plain (s : State) (r : Nat) (f : Fld) (i v : Nat) (h : ownWrite f = false) : s.writeRw r f i v =
    s.setReg f i v := by
  unfold State.writeRw
  split <;> first | rfl | (exact absurd h (by decide))

/-- A field no lock holds. -/
theorem notIgnored (s : State) (f : Fld) (v : Word) (h : ownWrite f = false) : s.writeIgnored f v = false := by
  unfold State.writeIgnored
  split <;> first | rfl | (exact absurd h (by decide))

/-- The value a quadrant gives a register. -/
theorem quad_new (quad : Fin 4) (old v : Word) :
    let q := quadrant quad.val (BitVec.allOnes 64) v old
    (old &&& ~~~q.1) ||| (q.2 &&& q.1) = (match quad with | 0 => v | 1 => old ||| v | 2 => old &&& ~~~v | 3 => old ^^^ v) := by
  intro q
  have : quad = 0 ∨ quad = 1 ∨ quad = 2 ∨ quad = 3 := by revert quad; decide
  rcases this with rfl | rfl | rfl | rfl
  all_goals
    simp only [q, quadrant, BitVec.and_allOnes, BitVec.not_allOnes, BitVec.and_zero, BitVec.zero_or, Fin.val_zero, Fin.val_one, Fin.val_two]
  all_goals
    ext i hi
    simp
    try (cases old[i] <;> cases v[i] <;> rfl)

end Sys2Proof.Machine
end

