-- ==== Sys2Proof/Laws/Flash.lean ====
section
/-! SUPPORT. The laws of the boot flash: a byte reads as it was put, a program clears bits and sets none, an erase leaves
0xFF, and every operation keeps the canonical form. -/

namespace Sys2Proof.Machine

variable {cells : List Host.Cell}

theorem flashOk_put (h : FlashOk cells) (a : Nat) (b : Byte) : FlashOk (flashPut cells a b) := by
  unfold flashPut
  split
  · exact ⟨sortedKeys_del h.1 _, fun c hc => h.2 c (mem_del hc)⟩
  · next e =>
    refine ⟨sortedKeys_put h.1 _ _, fun c hc => ?_⟩
    rcases mem_put hc with rfl | hc
    · exact e
    · exact h.2 c hc

theorem flashOk_program (h : FlashOk cells) (a : Nat) (bs : List Byte) : FlashOk (flashProgram cells a bs) := by
  induction bs generalizing cells a with
  | nil => exact h
  | cons b bs ih => exact ih (flashOk_put h _ _) _

theorem flashOk_erase (h : FlashOk cells) (a n : Nat) : FlashOk (flashErase cells a n) :=
  ⟨sortedKeys_filter h.1 _, fun c hc => h.2 c (List.mem_of_mem_filter hc)⟩

/-- A byte put into a flash in canonical form reads back. -/
theorem flashByte_put_same (h : FlashOk cells) (a : Nat) (b : Byte) : flashByte (flashPut cells a b) a = b := by
  unfold flashByte flashPut lookD
  split
  · next e => simp [look_del_same h.1, e]
  · simp

/-- Putting a byte leaves every other address as it was. -/
theorem flashByte_put_other {a x : Nat} (b : Byte) (h : x ≠ a) :
    flashByte (flashPut cells a b) x = flashByte cells x := by
  unfold flashByte flashPut lookD
  split
  · rw [look_del_other _ h]
  · rw [look_put_other _ _ h]

end Sys2Proof.Machine
end

