-- ==== Sys2Proof/Laws/Memory.lean ====
section
/-! SUPPORT. The laws of the memories' tables: every operation on pages, Pantry slices, frames and Cupboard pages keeps
the canonical form, and a page reads as it was put. -/

namespace Sys2Proof.Machine

variable {α : Type}

theorem mem_mapAll {m : SMap α} {f : Nat → α → α} {p : Nat × α} (h : p ∈ mapAll m f) : ∃ v, (p.1, v) ∈ m := by
  obtain ⟨q, hq, rfl⟩ := List.mem_map.mp h
  exact ⟨q.2, hq⟩

/-- Changing every value keeps the canonical form. -/
theorem sortedKeys_mapAll {m : SMap α} (hm : SortedKeys m) (f : Nat → α → α) : SortedKeys (mapAll m f) := by
  induction m with
  | nil => trivial
  | cons p m ih =>
    refine ⟨fun q hq => ?_, ih hm.2⟩
    obtain ⟨v, hv⟩ := mem_mapAll hq
    exact hm.1 (q.1, v) hv

/-- Setting many keys keeps the canonical form. -/
theorem sortedKeys_putAll {β : Type} (l : List β) (k : β → Nat) (v : SMap α → β → α) {m : SMap α} (hm : SortedKeys m) :
    SortedKeys (l.foldl (fun acc x => put acc (k x) (v acc x)) m) := by
  induction l generalizing m with
  | nil => exact hm
  | cons x l ih => exact ih (sortedKeys_put hm _ _)

theorem sortedKeys_adjust {m : SMap α} (hm : SortedKeys m) (k : Nat) (f : α → α) : SortedKeys (adjust m k f) := by
  unfold adjust
  split
  · exact sortedKeys_put hm _ _
  · exact hm

theorem pagesOk_set {m : SMap Page} (hm : PagesOk m) (k : Nat) (p : Page) :
    PagesOk (if p = Page.blank then del m k else put m k p) := by
  split
  · exact ⟨sortedKeys_del hm.1 _, fun q hq => hm.2 q (mem_del hq)⟩
  · next e =>
    refine ⟨sortedKeys_put hm.1 _ _, fun q hq => ?_⟩
    rcases mem_put hq with rfl | hq
    · exact e
    · exact hm.2 q hq

theorem pagesOk_filter {m : SMap Page} (hm : PagesOk m) (f : Nat × Page → Bool) : PagesOk (m.filter f) :=
  ⟨sortedKeys_filter hm.1 f, fun q hq => hm.2 q (List.mem_of_mem_filter hq)⟩

theorem pagesOk_mapPages {m : SMap Page} (hm : SortedKeys m) (f : Nat → Page → Page) : PagesOk (mapPages m f) :=
  ⟨sortedKeys_filter (sortedKeys_mapAll hm f) _, fun _ hq => by simpa using (List.mem_filter.mp hq).2⟩

theorem cupboardOk_set {m : SMap (BitVec 512)} (hm : CupboardOk m) (k : Nat) (v : BitVec 512) :
    CupboardOk (if v = BitVec.allOnes 512 then del m k else put m k v) := by
  split
  · exact ⟨sortedKeys_del hm.1 _, fun q hq => hm.2 q (mem_del hq)⟩
  · next e =>
    refine ⟨sortedKeys_put hm.1 _ _, fun q hq => ?_⟩
    rcases mem_put hq with rfl | hq
    · exact e
    · exact hm.2 q hq

/-- A page put into a page table in canonical form reads back. -/
theorem page_setPage_same {s : State} (h : PagesOk s.ti.pages) (room page : Nat) (p : Page) :
    (s.setPage room page p).page room page = p := by
  unfold State.page State.setPage lookD
  dsimp only
  split
  · next e => rw [look_del_same h.1, e]; rfl
  · rw [look_put_same]; rfl

/-- Putting a page leaves every page of another key as it was. -/
theorem page_setPage_other (s : State) {room page room' page' : Nat} (p : Page)
    (h : pageKey room' page' ≠ pageKey room page) : (s.setPage room page p).page room' page' = s.page room' page' := by
  unfold State.page State.setPage lookD
  dsimp only
  split
  · rw [look_del_other _ h]
  · rw [look_put_other _ _ h]

end Sys2Proof.Machine
end

