-- ==== Sys2Proof/Laws/Keeps.lean ====
section
/-! SUPPORT. What every operation on the state keeps, whatever else it does: the queue of commands and the part stay,
messages that have left stay sent, free values are never drawn twice, and the register table and the memories stay in their
canonical forms. One lemma for each operation, under Laws/; this file has the relation and the operations of Ops. -/

namespace Sys2Proof.Machine

/-- What holds between a state and the state an operation leaves. -/
structure Keeps (s t : State) : Prop where
  pending : t.pending = s.pending
  part : t.part = s.part
  out : s.out <+: t.out
  fresh : s.fresh ≤ t.fresh
  regs : RegsOk s.regs → RegsOk t.regs
  flash : FlashOk s.flash.cells → FlashOk t.flash.cells
  pages : PagesOk s.ti.pages → PagesOk t.ti.pages
  pantry : SortedKeys s.ti.pantry → SortedKeys t.ti.pantry
  frames : SortedKeys s.md.frames → SortedKeys t.md.frames
  cupboard : CupboardOk s.cb.pages → CupboardOk t.cb.pages

/-- The same of a command's answer. -/
def KeepsR (s : State) (r : Result) : Prop := ∀ t, r = .next t → Keeps s t

/-- The same of an operation that may find nothing to do. -/
def KeepsO (s : State) (o : Option State) : Prop := ∀ t, o = some t → Keeps s t

variable {a s t : State}

theorem Keeps.refl (s : State) : Keeps s s := ⟨rfl, rfl, List.prefix_rfl, le_rfl, id, id, id, id, id, id⟩

theorem Keeps.trans (h : Keeps a s) (k : Keeps s t) : Keeps a t :=
  ⟨k.pending.trans h.pending, k.part.trans h.part, h.out.trans k.out, h.fresh.trans k.fresh, k.regs ∘ h.regs,
    k.flash ∘ h.flash, k.pages ∘ h.pages, k.pantry ∘ h.pantry, k.frames ∘ h.frames, k.cupboard ∘ h.cupboard⟩

/-- An update of what the relation does not name. -/
theorem Keeps.upd (h : Keeps a s)
    {pw res plan hp rooms rt lk br rg pl fl at_ me
    t_dir t_takeoverDir t_sketch t_promoting t_demoting t_reissued t_hot m_used m_spare m_retired m_queue m_inflight
    m_journal m_journalMark m_mapJournal m_ckptMap m_markers m_unitRecord m_log m_logSeq m_rootCkpt m_slotTable
    m_slotHome m_held m_drainHeld m_skipped m_refresh m_wear m_scrub m_misses m_hists m_overwrites m_newDevice
    m_slots c_queue c_worn c_failed c_anchorPair c_reservoir c_waiting c_anchor c_pool c_fwFloors c_boot c_sources
    c_rails c_escrow c_corrections c_training} :
    Keeps a { s with
      pw := pw, res := res, plan := plan, hp := hp, rooms := rooms, rt := rt, lk := lk, br := br, rg := rg, pl := pl,
      fl := fl, at_ := at_, me := me
      ti := {
        pages := s.ti.pages, pantry := s.ti.pantry, dir := t_dir, takeoverDir := t_takeoverDir, sketch := t_sketch,
        promoting := t_promoting, demoting := t_demoting, reissued := t_reissued, hot := t_hot }
      md := {
        frames := s.md.frames, used := m_used, spare := m_spare, retired := m_retired, queue := m_queue,
        inflight := m_inflight, journal := m_journal, journalMark := m_journalMark, mapJournal := m_mapJournal,
        ckptMap := m_ckptMap, markers := m_markers, unitRecord := m_unitRecord, log := m_log, logSeq := m_logSeq,
        rootCkpt := m_rootCkpt, slotTable := m_slotTable, slotHome := m_slotHome, held := m_held,
        drainHeld := m_drainHeld, skipped := m_skipped, refresh := m_refresh, wear := m_wear, scrub := m_scrub,
        misses := m_misses, hists := m_hists, overwrites := m_overwrites, newDevice := m_newDevice, slots := m_slots }
      cb := {
        pages := s.cb.pages, queue := c_queue, worn := c_worn, failed := c_failed, anchorPair := c_anchorPair,
        reservoir := c_reservoir, waiting := c_waiting, anchor := c_anchor, pool := c_pool, fwFloors := c_fwFloors,
        boot := c_boot, sources := c_sources, rails := c_rails, escrow := c_escrow, corrections := c_corrections,
        training := c_training } } :=
  ⟨h.pending, h.part, h.out, h.fresh, h.regs, h.flash, h.pages, h.pantry, h.frames, h.cupboard⟩

/-- An update that also draws free values. -/
theorem Keeps.draw (h : Keeps a s) {n : Nat}
    {pw res plan hp rooms rt lk br rg pl fl at_ me
    t_dir t_takeoverDir t_sketch t_promoting t_demoting t_reissued t_hot m_used m_spare m_retired m_queue m_inflight
    m_journal m_journalMark m_mapJournal m_ckptMap m_markers m_unitRecord m_log m_logSeq m_rootCkpt m_slotTable
    m_slotHome m_held m_drainHeld m_skipped m_refresh m_wear m_scrub m_misses m_hists m_overwrites m_newDevice
    m_slots c_queue c_worn c_failed c_anchorPair c_reservoir c_waiting c_anchor c_pool c_fwFloors c_boot c_sources
    c_rails c_escrow c_corrections c_training} :
    Keeps a { s with
      fresh := s.fresh + n, pw := pw, res := res, plan := plan, hp := hp, rooms := rooms, rt := rt, lk := lk,
      br := br, rg := rg, pl := pl, fl := fl, at_ := at_, me := me
      ti := {
        pages := s.ti.pages, pantry := s.ti.pantry, dir := t_dir, takeoverDir := t_takeoverDir, sketch := t_sketch,
        promoting := t_promoting, demoting := t_demoting, reissued := t_reissued, hot := t_hot }
      md := {
        frames := s.md.frames, used := m_used, spare := m_spare, retired := m_retired, queue := m_queue,
        inflight := m_inflight, journal := m_journal, journalMark := m_journalMark, mapJournal := m_mapJournal,
        ckptMap := m_ckptMap, markers := m_markers, unitRecord := m_unitRecord, log := m_log, logSeq := m_logSeq,
        rootCkpt := m_rootCkpt, slotTable := m_slotTable, slotHome := m_slotHome, held := m_held,
        drainHeld := m_drainHeld, skipped := m_skipped, refresh := m_refresh, wear := m_wear, scrub := m_scrub,
        misses := m_misses, hists := m_hists, overwrites := m_overwrites, newDevice := m_newDevice, slots := m_slots }
      cb := {
        pages := s.cb.pages, queue := c_queue, worn := c_worn, failed := c_failed, anchorPair := c_anchorPair,
        reservoir := c_reservoir, waiting := c_waiting, anchor := c_anchor, pool := c_pool, fwFloors := c_fwFloors,
        boot := c_boot, sources := c_sources, rails := c_rails, escrow := c_escrow, corrections := c_corrections,
        training := c_training } } :=
  ⟨h.pending, h.part, h.out, h.fresh.trans (Nat.le_add_right _ _), h.regs, h.flash, h.pages, h.pantry, h.frames,
    h.cupboard⟩

/-- An update of the flash's bookkeeping. -/
theorem Keeps.flashMarks (h : Keeps a s)
    {target erased pw res plan hp rooms rt lk br rg pl fl at_ me
    t_dir t_takeoverDir t_sketch t_promoting t_demoting t_reissued t_hot m_used m_spare m_retired m_queue m_inflight
    m_journal m_journalMark m_mapJournal m_ckptMap m_markers m_unitRecord m_log m_logSeq m_rootCkpt m_slotTable
    m_slotHome m_held m_drainHeld m_skipped m_refresh m_wear m_scrub m_misses m_hists m_overwrites m_newDevice
    m_slots c_queue c_worn c_failed c_anchorPair c_reservoir c_waiting c_anchor c_pool c_fwFloors c_boot c_sources
    c_rails c_escrow c_corrections c_training} :
    Keeps a { s with
      flash := { s.flash with target := target, erased := erased }, pw := pw, res := res, plan := plan, hp := hp,
      rooms := rooms, rt := rt, lk := lk, br := br, rg := rg, pl := pl, fl := fl, at_ := at_, me := me
      ti := {
        pages := s.ti.pages, pantry := s.ti.pantry, dir := t_dir, takeoverDir := t_takeoverDir, sketch := t_sketch,
        promoting := t_promoting, demoting := t_demoting, reissued := t_reissued, hot := t_hot }
      md := {
        frames := s.md.frames, used := m_used, spare := m_spare, retired := m_retired, queue := m_queue,
        inflight := m_inflight, journal := m_journal, journalMark := m_journalMark, mapJournal := m_mapJournal,
        ckptMap := m_ckptMap, markers := m_markers, unitRecord := m_unitRecord, log := m_log, logSeq := m_logSeq,
        rootCkpt := m_rootCkpt, slotTable := m_slotTable, slotHome := m_slotHome, held := m_held,
        drainHeld := m_drainHeld, skipped := m_skipped, refresh := m_refresh, wear := m_wear, scrub := m_scrub,
        misses := m_misses, hists := m_hists, overwrites := m_overwrites, newDevice := m_newDevice, slots := m_slots }
      cb := {
        pages := s.cb.pages, queue := c_queue, worn := c_worn, failed := c_failed, anchorPair := c_anchorPair,
        reservoir := c_reservoir, waiting := c_waiting, anchor := c_anchor, pool := c_pool, fwFloors := c_fwFloors,
        boot := c_boot, sources := c_sources, rails := c_rails, escrow := c_escrow, corrections := c_corrections,
        training := c_training } } :=
  ⟨h.pending, h.part, h.out, h.fresh, h.regs, h.flash, h.pages, h.pantry, h.frames, h.cupboard⟩

/-- An update that programs or erases the flash. -/
theorem Keeps.flashTo (h : Keeps a s) {cells} (hc : FlashOk s.flash.cells → FlashOk cells)
    {target erased pw res plan hp rooms rt lk br rg pl fl at_ me
    t_dir t_takeoverDir t_sketch t_promoting t_demoting t_reissued t_hot m_used m_spare m_retired m_queue m_inflight
    m_journal m_journalMark m_mapJournal m_ckptMap m_markers m_unitRecord m_log m_logSeq m_rootCkpt m_slotTable
    m_slotHome m_held m_drainHeld m_skipped m_refresh m_wear m_scrub m_misses m_hists m_overwrites m_newDevice
    m_slots c_queue c_worn c_failed c_anchorPair c_reservoir c_waiting c_anchor c_pool c_fwFloors c_boot c_sources
    c_rails c_escrow c_corrections c_training} :
    Keeps a { s with
      flash := { cells := cells, target := target, erased := erased }, pw := pw, res := res, plan := plan, hp := hp,
      rooms := rooms, rt := rt, lk := lk, br := br, rg := rg, pl := pl, fl := fl, at_ := at_, me := me
      ti := {
        pages := s.ti.pages, pantry := s.ti.pantry, dir := t_dir, takeoverDir := t_takeoverDir, sketch := t_sketch,
        promoting := t_promoting, demoting := t_demoting, reissued := t_reissued, hot := t_hot }
      md := {
        frames := s.md.frames, used := m_used, spare := m_spare, retired := m_retired, queue := m_queue,
        inflight := m_inflight, journal := m_journal, journalMark := m_journalMark, mapJournal := m_mapJournal,
        ckptMap := m_ckptMap, markers := m_markers, unitRecord := m_unitRecord, log := m_log, logSeq := m_logSeq,
        rootCkpt := m_rootCkpt, slotTable := m_slotTable, slotHome := m_slotHome, held := m_held,
        drainHeld := m_drainHeld, skipped := m_skipped, refresh := m_refresh, wear := m_wear, scrub := m_scrub,
        misses := m_misses, hists := m_hists, overwrites := m_overwrites, newDevice := m_newDevice, slots := m_slots }
      cb := {
        pages := s.cb.pages, queue := c_queue, worn := c_worn, failed := c_failed, anchorPair := c_anchorPair,
        reservoir := c_reservoir, waiting := c_waiting, anchor := c_anchor, pool := c_pool, fwFloors := c_fwFloors,
        boot := c_boot, sources := c_sources, rails := c_rails, escrow := c_escrow, corrections := c_corrections,
        training := c_training } } :=
  ⟨h.pending, h.part, h.out, h.fresh, h.regs, hc ∘ h.flash, h.pages, h.pantry, h.frames, h.cupboard⟩

/-- An update that programs the flash. -/
theorem Keeps.flashProgram (h : Keeps a s) {x bs}
    {target erased pw res plan hp rooms rt lk br rg pl fl at_ me
    t_dir t_takeoverDir t_sketch t_promoting t_demoting t_reissued t_hot m_used m_spare m_retired m_queue m_inflight
    m_journal m_journalMark m_mapJournal m_ckptMap m_markers m_unitRecord m_log m_logSeq m_rootCkpt m_slotTable
    m_slotHome m_held m_drainHeld m_skipped m_refresh m_wear m_scrub m_misses m_hists m_overwrites m_newDevice
    m_slots c_queue c_worn c_failed c_anchorPair c_reservoir c_waiting c_anchor c_pool c_fwFloors c_boot c_sources
    c_rails c_escrow c_corrections c_training} :
    Keeps a { s with
      pw := pw, res := res, plan := plan, hp := hp, rooms := rooms, rt := rt, lk := lk, br := br, rg := rg, pl := pl,
      fl := fl, at_ := at_, me := me
      flash := {
        cells := Machine.flashProgram s.flash.cells x bs, target := target, erased := erased }
      ti := {
        pages := s.ti.pages, pantry := s.ti.pantry, dir := t_dir, takeoverDir := t_takeoverDir, sketch := t_sketch,
        promoting := t_promoting, demoting := t_demoting, reissued := t_reissued, hot := t_hot }
      md := {
        frames := s.md.frames, used := m_used, spare := m_spare, retired := m_retired, queue := m_queue,
        inflight := m_inflight, journal := m_journal, journalMark := m_journalMark, mapJournal := m_mapJournal,
        ckptMap := m_ckptMap, markers := m_markers, unitRecord := m_unitRecord, log := m_log, logSeq := m_logSeq,
        rootCkpt := m_rootCkpt, slotTable := m_slotTable, slotHome := m_slotHome, held := m_held,
        drainHeld := m_drainHeld, skipped := m_skipped, refresh := m_refresh, wear := m_wear, scrub := m_scrub,
        misses := m_misses, hists := m_hists, overwrites := m_overwrites, newDevice := m_newDevice, slots := m_slots }
      cb := {
        pages := s.cb.pages, queue := c_queue, worn := c_worn, failed := c_failed, anchorPair := c_anchorPair,
        reservoir := c_reservoir, waiting := c_waiting, anchor := c_anchor, pool := c_pool, fwFloors := c_fwFloors,
        boot := c_boot, sources := c_sources, rails := c_rails, escrow := c_escrow, corrections := c_corrections,
        training := c_training } } :=
  h.flashTo fun k => flashOk_program k _ _

/-- An update that erases in the flash. -/
theorem Keeps.flashErase (h : Keeps a s) {x n}
    {target erased pw res plan hp rooms rt lk br rg pl fl at_ me
    t_dir t_takeoverDir t_sketch t_promoting t_demoting t_reissued t_hot m_used m_spare m_retired m_queue m_inflight
    m_journal m_journalMark m_mapJournal m_ckptMap m_markers m_unitRecord m_log m_logSeq m_rootCkpt m_slotTable
    m_slotHome m_held m_drainHeld m_skipped m_refresh m_wear m_scrub m_misses m_hists m_overwrites m_newDevice
    m_slots c_queue c_worn c_failed c_anchorPair c_reservoir c_waiting c_anchor c_pool c_fwFloors c_boot c_sources
    c_rails c_escrow c_corrections c_training} :
    Keeps a { s with
      pw := pw, res := res, plan := plan, hp := hp, rooms := rooms, rt := rt, lk := lk, br := br, rg := rg, pl := pl,
      fl := fl, at_ := at_, me := me
      flash := {
        cells := Machine.flashErase s.flash.cells x n, target := target, erased := erased }
      ti := {
        pages := s.ti.pages, pantry := s.ti.pantry, dir := t_dir, takeoverDir := t_takeoverDir, sketch := t_sketch,
        promoting := t_promoting, demoting := t_demoting, reissued := t_reissued, hot := t_hot }
      md := {
        frames := s.md.frames, used := m_used, spare := m_spare, retired := m_retired, queue := m_queue,
        inflight := m_inflight, journal := m_journal, journalMark := m_journalMark, mapJournal := m_mapJournal,
        ckptMap := m_ckptMap, markers := m_markers, unitRecord := m_unitRecord, log := m_log, logSeq := m_logSeq,
        rootCkpt := m_rootCkpt, slotTable := m_slotTable, slotHome := m_slotHome, held := m_held,
        drainHeld := m_drainHeld, skipped := m_skipped, refresh := m_refresh, wear := m_wear, scrub := m_scrub,
        misses := m_misses, hists := m_hists, overwrites := m_overwrites, newDevice := m_newDevice, slots := m_slots }
      cb := {
        pages := s.cb.pages, queue := c_queue, worn := c_worn, failed := c_failed, anchorPair := c_anchorPair,
        reservoir := c_reservoir, waiting := c_waiting, anchor := c_anchor, pool := c_pool, fwFloors := c_fwFloors,
        boot := c_boot, sources := c_sources, rails := c_rails, escrow := c_escrow, corrections := c_corrections,
        training := c_training } } :=
  h.flashTo fun k => flashOk_erase k _ _

/-- An update that empties the register table. -/
theorem Keeps.clear (h : Keeps a s)
    {pw res plan hp rooms rt lk br rg pl fl at_ me
    t_dir t_takeoverDir t_sketch t_promoting t_demoting t_reissued t_hot m_used m_spare m_retired m_queue m_inflight
    m_journal m_journalMark m_mapJournal m_ckptMap m_markers m_unitRecord m_log m_logSeq m_rootCkpt m_slotTable
    m_slotHome m_held m_drainHeld m_skipped m_refresh m_wear m_scrub m_misses m_hists m_overwrites m_newDevice
    m_slots c_queue c_worn c_failed c_anchorPair c_reservoir c_waiting c_anchor c_pool c_fwFloors c_boot c_sources
    c_rails c_escrow c_corrections c_training} :
    Keeps a { s with
      regs := [], pw := pw, res := res, plan := plan, hp := hp, rooms := rooms, rt := rt, lk := lk, br := br,
      rg := rg, pl := pl, fl := fl, at_ := at_, me := me
      ti := {
        pages := s.ti.pages, pantry := s.ti.pantry, dir := t_dir, takeoverDir := t_takeoverDir, sketch := t_sketch,
        promoting := t_promoting, demoting := t_demoting, reissued := t_reissued, hot := t_hot }
      md := {
        frames := s.md.frames, used := m_used, spare := m_spare, retired := m_retired, queue := m_queue,
        inflight := m_inflight, journal := m_journal, journalMark := m_journalMark, mapJournal := m_mapJournal,
        ckptMap := m_ckptMap, markers := m_markers, unitRecord := m_unitRecord, log := m_log, logSeq := m_logSeq,
        rootCkpt := m_rootCkpt, slotTable := m_slotTable, slotHome := m_slotHome, held := m_held,
        drainHeld := m_drainHeld, skipped := m_skipped, refresh := m_refresh, wear := m_wear, scrub := m_scrub,
        misses := m_misses, hists := m_hists, overwrites := m_overwrites, newDevice := m_newDevice, slots := m_slots }
      cb := {
        pages := s.cb.pages, queue := c_queue, worn := c_worn, failed := c_failed, anchorPair := c_anchorPair,
        reservoir := c_reservoir, waiting := c_waiting, anchor := c_anchor, pool := c_pool, fwFloors := c_fwFloors,
        boot := c_boot, sources := c_sources, rails := c_rails, escrow := c_escrow, corrections := c_corrections,
        training := c_training } } :=
  ⟨h.pending, h.part, h.out, h.fresh, fun _ => ⟨trivial, by simp⟩, h.flash, h.pages, h.pantry, h.frames, h.cupboard⟩

/-- An update of the memories' tables. -/
theorem Keeps.mem (h : Keeps a s) {pages pantry frames cpages}
    (kp : PagesOk s.ti.pages → PagesOk pages) (kq : SortedKeys s.ti.pantry → SortedKeys pantry)
    (kf : SortedKeys s.md.frames → SortedKeys frames) (kc : CupboardOk s.cb.pages → CupboardOk cpages)
    {pw res plan hp rooms rt lk br rg pl fl at_ me
    t_dir t_takeoverDir t_sketch t_promoting t_demoting t_reissued t_hot m_used m_spare m_retired m_queue m_inflight
    m_journal m_journalMark m_mapJournal m_ckptMap m_markers m_unitRecord m_log m_logSeq m_rootCkpt m_slotTable
    m_slotHome m_held m_drainHeld m_skipped m_refresh m_wear m_scrub m_misses m_hists m_overwrites m_newDevice
    m_slots c_queue c_worn c_failed c_anchorPair c_reservoir c_waiting c_anchor c_pool c_fwFloors c_boot c_sources
    c_rails c_escrow c_corrections c_training} :
    Keeps a { s with
      pw := pw, res := res, plan := plan, hp := hp, rooms := rooms, rt := rt, lk := lk, br := br, rg := rg, pl := pl,
      fl := fl, at_ := at_, me := me
      ti := {
        pages := pages, pantry := pantry, dir := t_dir, takeoverDir := t_takeoverDir, sketch := t_sketch,
        promoting := t_promoting, demoting := t_demoting, reissued := t_reissued, hot := t_hot }
      md := {
        frames := frames, used := m_used, spare := m_spare, retired := m_retired, queue := m_queue,
        inflight := m_inflight, journal := m_journal, journalMark := m_journalMark, mapJournal := m_mapJournal,
        ckptMap := m_ckptMap, markers := m_markers, unitRecord := m_unitRecord, log := m_log, logSeq := m_logSeq,
        rootCkpt := m_rootCkpt, slotTable := m_slotTable, slotHome := m_slotHome, held := m_held,
        drainHeld := m_drainHeld, skipped := m_skipped, refresh := m_refresh, wear := m_wear, scrub := m_scrub,
        misses := m_misses, hists := m_hists, overwrites := m_overwrites, newDevice := m_newDevice, slots := m_slots }
      cb := {
        pages := cpages, queue := c_queue, worn := c_worn, failed := c_failed, anchorPair := c_anchorPair,
        reservoir := c_reservoir, waiting := c_waiting, anchor := c_anchor, pool := c_pool, fwFloors := c_fwFloors,
        boot := c_boot, sources := c_sources, rails := c_rails, escrow := c_escrow, corrections := c_corrections,
        training := c_training } } :=
  ⟨h.pending, h.part, h.out, h.fresh, h.regs, h.flash, kp ∘ h.pages, kq ∘ h.pantry, kf ∘ h.frames, kc ∘ h.cupboard⟩

/-- Cuts a chain of operations: an intermediate state keeps what the relation names. -/
theorem Keeps.cut {P : Prop} (x : State) (h : Keeps a x) (k : Keeps a x → P) : P := k h

theorem Keeps.fstOf {α : Type} {x : State × α} {v : α} (h : Keeps a x.1) (e : x = (s, v)) : Keeps a s := by
  subst e
  exact h

theorem Keeps.sndOf {α : Type} {x : α × State} {v : α} (h : Keeps a x.2) (e : x = (v, s)) : Keeps a s := by
  subst e
  exact h

theorem Keeps.foldl {α : Type} {f : State → α → State} {l : List α} (h : Keeps a s)
    (hf : ∀ s x, Keeps a s → Keeps a (f s x)) : Keeps a (l.foldl f s) := by
  induction l generalizing s with
  | nil => exact h
  | cons x l ih => exact ih (hf s x h)

theorem Keeps.foldlFst {α β : Type} {f : State × β → α → State × β} {l : List α} {x : State × β} (h : Keeps a x.1)
    (hf : ∀ x y, Keeps a x.1 → Keeps a (f x y).1) : Keeps a (l.foldl f x).1 := by
  induction l generalizing x with
  | nil => exact h
  | cons y l ih => exact ih (hf x y h)

theorem Keeps.foldlSnd {α β : Type} {f : β × State → α → β × State} {l : List α} {x : β × State} (h : Keeps a x.2)
    (hf : ∀ x y, Keeps a x.2 → Keeps a (f x y).2) : Keeps a (l.foldl f x).2 := by
  induction l generalizing x with
  | nil => exact h
  | cons y l ih => exact ih (hf x y h)

theorem KeepsO.some (h : Keeps a s) : KeepsO a (Option.some s) := by
  rintro t ⟨⟩
  exact h

theorem KeepsO.none : KeepsO a Option.none := by
  rintro t ⟨⟩

theorem Keeps.someOf {o : Option State} (h : KeepsO a o) (e : o = Option.some s) : Keeps a s := h s e

/-- Marks a function, a pair, a record or an option named in an operation, so that its text is put in its place. -/
theorem Keeps.inFun {α β : Type} {P : Prop} (_ : α → β) (h : P) : P := h
theorem Keeps.inPair {α β : Type} {P : Prop} (_ : α × β) (h : P) : P := h
theorem Keeps.inTiers {P : Prop} (_ : Tiers) (h : P) : P := h
theorem Keeps.inMedia {P : Prop} (_ : Media) (h : P) : P := h
theorem Keeps.inCupboard {P : Prop} (_ : Cupboard) (h : P) : P := h
theorem Keeps.inOption {α : Type} {P : Prop} (_ : Option α) (h : P) : P := h

theorem KeepsR.next (h : Keeps a s) : KeepsR a (.next s) := by
  rintro t ⟨⟩
  exact h

theorem KeepsR.fault {f : Fault} : KeepsR a (.fault f) := by
  rintro t ⟨⟩

/-! ### The operations of Ops -/

theorem Keeps.setReg (h : Keeps a s) (f : Fld) (i v : Nat) : Keeps a (s.setReg f i v) :=
  ⟨h.pending, h.part, h.out, h.fresh, fun k => regsOk_setReg f i v (h.regs k), h.flash, h.pages, h.pantry, h.frames,
    h.cupboard⟩

theorem Keeps.satReg (h : Keeps a s) (f : Fld) (i n : Nat) : Keeps a (s.satReg f i n) := h.setReg ..

theorem Keeps.setFlag (h : Keeps a s) (f : Fld) (i : Nat) (b : Bool) : Keeps a (s.setFlag f i b) := h.setReg ..

theorem Keeps.resetRegs (h : Keeps a s) (drop : List Fld) : Keeps a (s.resetRegs drop) :=
  ⟨h.pending, h.part, h.out, h.fresh, fun k => regsOk_filter (h.regs k) _, h.flash, h.pages, h.pantry, h.frames,
    h.cupboard⟩

theorem Keeps.goto (h : Keeps a s) (d : DevState) : Keeps a (s.goto d) := h.upd

theorem Keeps.send (h : Keeps a s) (o : Out) : Keeps a (s.send o) :=
  ⟨h.pending, h.part, h.out.trans (List.prefix_append _ _), h.fresh, h.regs, h.flash, h.pages, h.pantry, h.frames,
    h.cupboard⟩

theorem Keeps.deliver (h : Keeps a s) (requester offset : Nat) (half : Half) (v : Word) :
    Keeps a (s.deliver requester offset half v) := by
  unfold State.deliver
  cases half
  · exact h.send _
  · exact h.upd.send _
  · exact h.send _

theorem Keeps.free (h : Keeps a s) : Keeps a s.free.2 := h.draw (n := 1)

theorem Keeps.post (h : Keeps a s) (e : EventIn) (own : Bool) : Keeps a (s.post e own) := by
  unfold State.post
  split <;> [exact h; exact h.upd]

theorem Keeps.emitEv (h : Keeps a s) (e : EventIn) : Keeps a (s.emitEv e) := h.post ..

theorem Keeps.emit (h : Keeps a s) (src : Nat) : Keeps a (s.emit src) := h.post ..

theorem Keeps.emitReq (h : Keeps a s) (src requester access addrKind address : Nat) :
    Keeps a (s.emitReq src requester access addrKind address) := h.post ..

theorem Keeps.level (h : Keeps a s) (src : Nat) (on : Bool) : Keeps a (s.level src on) := by
  have h1 := h.setFlag .FLT_SRC_STATUS src on
  unfold State.level
  dsimp only
  split <;> [exact h1.emit src; exact h1]

theorem Keeps.wrapped (h : Keeps a s) (c : Nat) : Keeps a (s.wrapped c) := by
  unfold State.wrapped
  obtain ⟨i, k⟩ := ovfBit c
  dsimp only
  refine Keeps.cut (a := a) (if s.flag .PMC_SMP_CFG_ON_OVF 0 && s.reg .PMC_SMP_CFG_OVF_SRC 0 == c then
      { s with me := { s.me with sampleNext := true } } else s) ?_ fun h1 => ?_
  · split <;> [exact h.upd; exact h]
  · generalize (if s.flag .PMC_SMP_CFG_ON_OVF 0 && s.reg .PMC_SMP_CFG_OVF_SRC 0 == c then
      { s with me := { s.me with sampleNext := true } } else s) = s1 at *
    have h2 := h1.setReg .PMC_OVF i (s1.reg .PMC_OVF i + 2 ^ k)
    split
    · split <;> [exact h2.send _; exact h2]
    · exact h1

theorem Keeps.count (h : Keeps a s) (c n : Nat) : Keeps a (s.count c n) := by
  unfold State.count
  dsimp only
  split
  · exact h
  · split <;> [exact h.upd; exact h.upd.wrapped c]

theorem Keeps.roomCount (h : Keeps a s) (room c n : Nat) : Keeps a (s.roomCount room c n) := by
  unfold State.roomCount
  split <;> [exact h; exact h.upd]

end Sys2Proof.Machine
end

