-- ==== Sys2Proof/Laws/KeepsOperands.lean ====
section
/-! SUPPORT. What the operations of Machine/Operands.lean keep, in the sense of Laws/Keeps.lean. -/

namespace Sys2Proof.Machine

variable {s₀ s t : State}

theorem Keeps.setPage (h : Keeps s₀ s) (room page : Nat) (p : Page) : Keeps s₀ (State.setPage s room page p) := by
  unfold State.setPage
  repeat' first
    | with_reducible assumption
    | fail_if_no_progress (with_reducible apply Keeps.upd)
    | fail_if_no_progress (with_reducible apply Keeps.mem)
    | with_reducible exact fun k => k
    | with_reducible exact fun k => pagesOk_set k _ _

theorem Keeps.setFrame (h : Keeps s₀ s) (a : FrameAddr) (f : Frame) : Keeps s₀ (State.setFrame s a f) := by
  unfold State.setFrame
  repeat' first
    | with_reducible assumption
    | fail_if_no_progress (with_reducible apply Keeps.upd)
    | fail_if_no_progress (with_reducible apply Keeps.mem)
    | with_reducible exact fun k => k
    | with_reducible exact fun k => pagesOk_set k _ _
    | with_reducible exact fun k => pagesOk_filter k _
    | with_reducible exact fun k => pagesOk_mapPages k.1 _
    | with_reducible exact fun k => sortedKeys_put k _ _

theorem Keeps.setRoom (h : Keeps s₀ s) (r : Nat) (x : Room) : Keeps s₀ (State.setRoom s r x) := by
  unfold State.setRoom
  repeat' first
    | with_reducible assumption
    | fail_if_no_progress (with_reducible apply Keeps.upd)

theorem Keeps.modRoom (h : Keeps s₀ s) (r : Nat) (f : Room → Room) : Keeps s₀ (State.modRoom s r f) := by
  unfold State.modRoom
  repeat' first
    | with_reducible assumption
    | fail_if_no_progress (with_reducible apply Keeps.upd)

theorem Keeps.setStripe (h : Keeps s₀ s) (room stripe : Nat) (x : Stripe) :
    Keeps s₀ (State.setStripe s room stripe x) := by
  unfold State.setStripe
  repeat' first
    | with_reducible assumption
    | fail_if_no_progress (with_reducible apply Keeps.upd)

end Sys2Proof.Machine
end

