-- ==== Sys2Proof/Laws/KeepsFlags.lean ====
section
/-! SUPPORT. What the operations of Machine/Flags.lean keep, in the sense of Laws/Keeps.lean. -/

namespace Sys2Proof.Machine

variable {s₀ s t : State}

theorem Keeps.spareLevels (h : Keeps s₀ s) : Keeps s₀ (State.spareLevels s) := by
  unfold State.spareLevels
  repeat' first
    | with_reducible assumption
    | with_reducible first | apply Keeps.level | apply Keeps.setFlag | apply Keeps.setReg

end Sys2Proof.Machine
end

