-- ==== Sys2Proof/Laws/KeepsLines.lean ====
section
/-! SUPPORT. What the operations of Machine/Lines.lean keep, in the sense of Laws/Keeps.lean. -/

namespace Sys2Proof.Machine

variable {s₀ s t : State}

theorem Keeps.raiseHigh (h : Keeps s₀ s) (c : RoomCfg) (major : Nat) : Keeps s₀ (State.raiseHigh s c major) := by
  unfold State.raiseHigh
  repeat' first
    | with_reducible assumption
    | fail_if_no_progress (with_reducible apply Keeps.upd)
    | split

theorem Keeps.setBlock (h : Keeps s₀ s) (c : RoomCfg) (room page : Nat) (p : Page) (b : CounterBlock) :
    Keeps s₀ (State.setBlock s c room page p b).1 := by
  unfold State.setBlock
  repeat' first
    | with_reducible assumption
    | with_reducible first | apply Keeps.raiseHigh
    | fail_if_no_progress (with_reducible apply Keeps.upd)

theorem Keeps.journalEntry (h : Keeps s₀ s) (room page : Nat) (e : MapEntry) :
    Keeps s₀ (State.journalEntry s room page e) := by
  unfold State.journalEntry
  repeat' first
    | with_reducible assumption
    | with_reducible first | apply Keeps.count
    | fail_if_no_progress (with_reducible apply Keeps.upd)

theorem Keeps.journalPage (h : Keeps s₀ s) (room page : Nat) (dirty : Bool) :
    Keeps s₀ (State.journalPage s room page dirty) := by
  unfold State.journalPage
  repeat' first
    | with_reducible assumption
    | with_reducible first | apply Keeps.count
    | fail_if_no_progress (with_reducible apply Keeps.upd)

theorem Keeps.listPoison (h : Keeps s₀ s) (room page line : Nat) : Keeps s₀ (State.listPoison s room page line) := by
  unfold State.listPoison
  repeat' first
    | with_reducible assumption
    | fail_if_no_progress (with_reducible apply Keeps.upd)
    | split

theorem Keeps.unlistPoison (h : Keeps s₀ s) (room page line : Nat) :
    Keeps s₀ (State.unlistPoison s room page line) := by
  unfold State.unlistPoison
  repeat' first
    | with_reducible assumption
    | fail_if_no_progress (with_reducible apply Keeps.upd)

theorem Keeps.forgetSlice (h : Keeps s₀ s) (wing key : Nat) : Keeps s₀ (State.forgetSlice s wing key) := by
  unfold State.forgetSlice
  repeat' first
    | with_reducible assumption
    | fail_if_no_progress (with_reducible apply Keeps.upd)
    | split

theorem Keeps.dropSlice (h : Keeps s₀ s) (wing key : Nat) : Keeps s₀ (State.dropSlice s wing key) := by
  unfold State.dropSlice
  repeat' first
    | with_reducible assumption
    | with_reducible first | apply Keeps.forgetSlice
    | fail_if_no_progress (with_reducible apply Keeps.upd)
    | fail_if_no_progress (with_reducible apply Keeps.mem)
    | with_reducible exact fun k => k
    | with_reducible exact fun k => pagesOk_set k _ _
    | with_reducible exact fun k => pagesOk_filter k _
    | with_reducible exact fun k => pagesOk_mapPages k.1 _
    | with_reducible exact fun k => sortedKeys_put k _ _
    | with_reducible exact fun k => sortedKeys_del k _

theorem Keeps.evictSector (h : Keeps s₀ s) (wing sector : Nat) : Keeps s₀ (State.evictSector s wing sector) := by
  unfold State.evictSector
  repeat' first
    | with_reducible assumption
    | with_reducible first | apply Keeps.count | apply Keeps.dropSlice
    | with_reducible refine Keeps.foldl ?_ fun s x h => ?_

theorem Keeps.makeWay (h : Keeps s₀ s) (wing key : Nat) : Keeps s₀ (State.makeWay s wing key) := by
  unfold State.makeWay
  repeat' first
    | with_reducible assumption
    | (intro x; clear_value x)
    | with_reducible first | apply Keeps.evictSector | apply Keeps.free
    | split
    | lift_lets
    | refine Keeps.fstOf ?_ (by with_reducible assumption)
    | refine Keeps.sndOf ?_ (by with_reducible assumption)

theorem Keeps.shareCopies (h : Keeps s₀ s) (key : Nat) : Keeps s₀ (State.shareCopies s key) := by
  unfold State.shareCopies
  exact h.mem id (sortedKeys_mapAll · _) id id

theorem Keeps.install (h : Keeps s₀ s) (wing room page line : Nat) (x : PantryLine) :
    Keeps s₀ (State.install s wing room page line x) := by
  unfold State.install
  dsimp only
  refine Keeps.mem ?_ id (sortedKeys_put · _ _) id id
  split
  · exact (h.makeWay _ _).shareCopies _
  · exact h.makeWay _ _

theorem Keeps.dropSlices (h : Keeps s₀ s) (room page line : Nat) (keep : Option Nat) :
    Keeps s₀ (State.dropSlices s room page line keep) := by
  unfold State.dropSlices
  repeat' first
    | with_reducible assumption
    | fail_if_no_progress (with_reducible apply Keeps.upd)
    | fail_if_no_progress (with_reducible apply Keeps.mem)
    | with_reducible exact fun k => k
    | with_reducible exact fun k => pagesOk_set k _ _
    | with_reducible exact fun k => pagesOk_filter k _
    | with_reducible exact fun k => pagesOk_mapPages k.1 _
    | with_reducible exact fun k => sortedKeys_put k _ _
    | with_reducible exact fun k => sortedKeys_del k _
    | with_reducible exact fun k => sortedKeys_filter k _

theorem Keeps.dropPageSlices (h : Keeps s₀ s) (room page : Nat) : Keeps s₀ (State.dropPageSlices s room page) := by
  unfold State.dropPageSlices
  repeat' first
    | with_reducible assumption
    | fail_if_no_progress (with_reducible apply Keeps.upd)
    | fail_if_no_progress (with_reducible apply Keeps.mem)
    | with_reducible exact fun k => k
    | with_reducible exact fun k => pagesOk_set k _ _
    | with_reducible exact fun k => pagesOk_filter k _
    | with_reducible exact fun k => pagesOk_mapPages k.1 _
    | with_reducible exact fun k => sortedKeys_put k _ _
    | with_reducible exact fun k => sortedKeys_del k _
    | with_reducible exact fun k => sortedKeys_filter k _

theorem Keeps.snoop (h : Keeps s₀ s) (requester key : Nat) (kind : SnoopKind) :
    Keeps s₀ (State.snoop s requester key kind) := by
  unfold State.snoop
  repeat' first
    | with_reducible assumption
    | with_reducible first | apply Keeps.count | apply Keeps.satReg | apply Keeps.send
    | fail_if_no_progress (with_reducible apply Keeps.upd)

theorem Keeps.dropDir (h : Keeps s₀ s) (key : Nat) : Keeps s₀ (State.dropDir s key) := by
  unfold State.dropDir
  repeat' first
    | with_reducible assumption
    | fail_if_no_progress (with_reducible apply Keeps.upd)

theorem Keeps.invalidateHosts (h : Keeps s₀ s) (room page line : Nat) :
    Keeps s₀ (State.invalidateHosts s room page line) := by
  unfold State.invalidateHosts
  repeat' first
    | with_reducible assumption
    | (intro x; clear_value x)
    | with_reducible first | apply Keeps.dropDir | apply Keeps.snoop
    | fail_if_no_progress (with_reducible apply Keeps.upd)
    | with_reducible refine Keeps.foldl ?_ fun s x h => ?_
    | with_reducible refine Keeps.foldlFst ?_ fun s x h => ?_
    | with_reducible refine Keeps.foldlSnd ?_ fun s x h => ?_
    | split
    | lift_lets

theorem Keeps.invalidatePage (h : Keeps s₀ s) (room page : Nat) : Keeps s₀ (State.invalidatePage s room page) := by
  unfold State.invalidatePage
  repeat' first
    | with_reducible assumption
    | with_reducible first | apply Keeps.invalidateHosts
    | with_reducible refine Keeps.foldl ?_ fun s x h => ?_

theorem Keeps.demote (h : Keeps s₀ s) (room page : Nat) : Keeps s₀ (State.demote s room page) := by
  unfold State.demote
  repeat' first
    | with_reducible assumption
    | with_reducible first | apply Keeps.count | apply Keeps.satReg | apply Keeps.setPage

theorem Keeps.sweep (h : Keeps s₀ s) (w : Nat) : Keeps s₀ (State.sweep s w) := by
  unfold State.sweep
  repeat' first
    | with_reducible assumption
    | (intro x; refine Keeps.inTiers x ?_; subst x)
    | (intro x; clear_value x)
    | with_reducible first | apply Keeps.demote | apply Keeps.setPage
    | fail_if_no_progress (with_reducible apply Keeps.upd)
    | with_reducible refine Keeps.foldl ?_ fun s x h => ?_
    | with_reducible refine Keeps.foldlFst ?_ fun s x h => ?_
    | with_reducible refine Keeps.foldlSnd ?_ fun s x h => ?_
    | split
    | lift_lets

theorem Keeps.keepFree (h : Keeps s₀ s) (w : Nat) : Keeps s₀ (State.keepFree s w) := by
  unfold State.keepFree
  repeat' first
    | with_reducible assumption
    | with_reducible first | apply Keeps.sweep
    | split

theorem Keeps.takeSlot (h : Keeps s₀ s) (room page : Nat) : Keeps s₀ (State.takeSlot s room page) := by
  unfold State.takeSlot
  repeat' first
    | with_reducible assumption
    | (intro s; refine Keeps.cut (a := s₀) s ?_ ?_ <;> [subst s; (intro h; clear_value s)])
    | (intro x; refine Keeps.inTiers x ?_; subst x)
    | (intro x; clear_value x)
    | with_reducible first | apply Keeps.keepFree | apply Keeps.setPage
    | fail_if_no_progress (with_reducible apply Keeps.upd)
    | fail_if_no_progress (with_reducible apply Keeps.draw)
    | split
    | lift_lets

theorem Keeps.useFrame (h : Keeps s₀ s) (a : FrameAddr) (room index home role st : Nat) :
    Keeps s₀ (State.useFrame s a room index home role st) := by
  unfold State.useFrame
  repeat' first
    | with_reducible assumption
    | with_reducible first | apply Keeps.setFrame
    | fail_if_no_progress (with_reducible apply Keeps.upd)
    | split

theorem Keeps.queueOp (h : Keeps s₀ s) (o : MediaOp) : Keeps s₀ (State.queueOp s o) := by
  unfold State.queueOp
  repeat' first
    | with_reducible assumption
    | fail_if_no_progress (with_reducible apply Keeps.upd)

theorem Keeps.freeFrame (h : Keeps s₀ s) (a : FrameAddr) : Keeps s₀ (State.freeFrame s a) := by
  unfold State.freeFrame
  repeat' first
    | with_reducible assumption
    | (intro s; refine Keeps.cut (a := s₀) s ?_ ?_ <;> [subst s; (intro h; clear_value s)])
    | (intro x; refine Keeps.inMedia x ?_; subst x)
    | (intro x; clear_value x)
    | (intro x; subst x)
    | with_reducible first | apply Keeps.queueOp | apply Keeps.setFrame
    | fail_if_no_progress (with_reducible apply Keeps.upd)
    | split
    | lift_lets

theorem Keeps.retireFrame (h : Keeps s₀ s) (a : FrameAddr) : Keeps s₀ (State.retireFrame s a) := by
  unfold State.retireFrame
  repeat' first
    | with_reducible assumption
    | with_reducible first | apply Keeps.count | apply Keeps.emit | apply Keeps.setFrame | apply Keeps.spareLevels
    | fail_if_no_progress (with_reducible apply Keeps.upd)
    | split

theorem Keeps.allocParity (h : Keeps s₀ s) (room stripe : Nat) : Keeps s₀ (State.allocParity s room stripe) := by
  unfold State.allocParity
  repeat' first
    | with_reducible assumption
    | (intro x; clear_value x)
    | with_reducible first | apply Keeps.setStripe | apply Keeps.useFrame
    | fail_if_no_progress (with_reducible apply Keeps.upd)
    | split
    | lift_lets

theorem KeepsO.allocPage (h : Keeps s₀ s) (c : RoomCfg) (room page : Nat) :
    KeepsO s₀ (State.allocPage s c room page) := by
  unfold State.allocPage
  repeat' first
    | with_reducible assumption
    | (intro s; refine Keeps.cut (a := s₀) s ?_ ?_ <;> [subst s; (intro h; clear_value s)])
    | with_reducible apply KeepsO.some
    | with_reducible apply KeepsO.none
    | with_reducible first | apply Keeps.allocParity | apply Keeps.journalEntry | apply Keeps.roomCount
                           | apply Keeps.setPage | apply Keeps.setStripe | apply Keeps.useFrame
    | fail_if_no_progress (with_reducible apply Keeps.upd)
    | split
    | lift_lets

theorem Keeps.discardWrite (h : Keeps s₀ s) (requester room page line : Nat) :
    Keeps s₀ (State.discardWrite s requester room page line) := by
  unfold State.discardWrite
  repeat' first
    | with_reducible assumption
    | with_reducible first | apply Keeps.dropPageSlices | apply Keeps.emitReq | apply Keeps.journalEntry
                           | apply Keeps.modRoom | apply Keeps.setPage

theorem Keeps.sendDelta (h : Keeps s₀ s) (c : RoomCfg) (room page line : Nat) (old new : Line × Mac) (free : Option FrameAddr := none) :
    Keeps s₀ (State.sendDelta s c room page line old new free) := by
  unfold State.sendDelta
  repeat' first
    | with_reducible assumption
    | with_reducible first | apply Keeps.count | apply Keeps.free
    | fail_if_no_progress (with_reducible apply Keeps.upd)
    | split

theorem Keeps.sealInto (h : Keeps s₀ s) (c : RoomCfg) (key : Key) (room page line : Nat) (data : Line) (poison dirty : Bool) (old : Line × Mac) :
    Keeps s₀ (State.sealInto s c key room page line data poison dirty old) := by
  unfold State.sealInto
  repeat' first
    | with_reducible assumption
    | with_reducible first | apply Keeps.count | apply Keeps.sendDelta | apply Keeps.setPage

theorem Keeps.reencrypt (h : Keeps s₀ s) (c : RoomCfg) (key : Key) (room page : Nat) (dirty : Bool) :
    Keeps s₀ (State.reencrypt s c key room page dirty) := by
  unfold State.reencrypt
  repeat' first
    | with_reducible assumption
    | (intro x; clear_value x)
    | with_reducible first | apply Keeps.count | apply Keeps.emit | apply Keeps.journalEntry | apply Keeps.satReg
                           | apply Keeps.sealInto | apply Keeps.setBlock | apply Keeps.setPage
    | fail_if_no_progress (with_reducible apply Keeps.upd)
    | with_reducible refine Keeps.foldl ?_ fun s x h => ?_
    | with_reducible refine Keeps.foldlFst ?_ fun s x h => ?_
    | with_reducible refine Keeps.foldlSnd ?_ fun s x h => ?_
    | split
    | lift_lets
    | refine Keeps.fstOf ?_ (by with_reducible assumption)

theorem Keeps.advance (h : Keeps s₀ s) (c : RoomCfg) (room page line : Nat) :
    Keeps s₀ (State.advance s c room page line) := by
  unfold State.advance
  repeat' first
    | with_reducible assumption
    | with_reducible first | apply Keeps.setBlock | apply Keeps.setPage

theorem Keeps.poisonOthers (h : Keeps s₀ s) (c : RoomCfg) (key : Key) (room page line : Nat) (dirty : Bool) :
    Keeps s₀ (State.poisonOthers s c key room page line dirty) := by
  unfold State.poisonOthers
  repeat' first
    | with_reducible assumption
    | with_reducible first | apply Keeps.advance | apply Keeps.listPoison | apply Keeps.sealInto | apply Keeps.setPage
    | fail_if_no_progress (with_reducible apply Keeps.upd)
    | with_reducible refine Keeps.foldl ?_ fun s x h => ?_
    | with_reducible refine Keeps.foldlFst ?_ fun s x h => ?_
    | with_reducible refine Keeps.foldlSnd ?_ fun s x h => ?_
    | split

theorem Keeps.becomeDirty (h : Keeps s₀ s) (room page : Nat) (was : Bool) :
    Keeps s₀ (State.becomeDirty s room page was) := by
  unfold State.becomeDirty
  repeat' first
    | with_reducible assumption
    | with_reducible first | apply Keeps.count | apply Keeps.journalPage | apply Keeps.setPage
    | fail_if_no_progress (with_reducible apply Keeps.upd)
    | split

theorem Keeps.logWrite (h : Keeps s₀ s) (c : RoomCfg) (room page line : Nat) :
    Keeps s₀ (State.logWrite s c room page line) := by
  unfold State.logWrite
  repeat' first
    | with_reducible assumption
    | with_reducible first | apply Keeps.count
    | fail_if_no_progress (with_reducible apply Keeps.upd)

theorem Keeps.promote (h : Keeps s₀ s) (room page : Nat) (pin : Bool) : Keeps s₀ (State.promote s room page pin) := by
  unfold State.promote
  repeat' first
    | with_reducible assumption
    | (intro s; refine Keeps.cut (a := s₀) s ?_ ?_ <;> [subst s; (intro h; clear_value s)])
    | (intro x; clear_value x)
    | with_reducible first | apply Keeps.setPage | apply Keeps.takeSlot
    | fail_if_no_progress (with_reducible apply Keeps.upd)
    | split
    | lift_lets

theorem Keeps.pinPolicy (h : Keeps s₀ s) (c : RoomCfg) (room page : Nat) :
    Keeps s₀ (State.pinPolicy s c room page) := by
  unfold State.pinPolicy
  repeat' first
    | with_reducible assumption
    | (intro x; clear_value x)
    | with_reducible first | apply Keeps.promote | apply Keeps.setFlag
    | fail_if_no_progress (with_reducible apply Keeps.upd)
    | split
    | lift_lets

theorem Keeps.repin (h : Keeps s₀ s) : Keeps s₀ (State.repin s) := by
  unfold State.repin
  dsimp only
  split
  · exact h
  · refine Keeps.foldl h fun s x h => ?_
    split
    all_goals (try split)
    all_goals first
      | exact h
      | (split
         · exact h
         · split
           · exact h.promote _ _ _
           · exact h.pinPolicy _ _ _)

theorem Keeps.sketchWrite (h : Keeps s₀ s) (c : RoomCfg) (room page : Nat) :
    Keeps s₀ (State.sketchWrite s c room page) := by
  unfold State.sketchWrite
  repeat' first
    | with_reducible assumption
    | (intro s; refine Keeps.cut (a := s₀) s ?_ ?_ <;> [subst s; (intro h; clear_value s)])
    | (intro x; refine Keeps.inTiers x ?_; subst x)
    | (intro x; clear_value x)
    | with_reducible first | apply Keeps.promote
    | fail_if_no_progress (with_reducible apply Keeps.upd)
    | split
    | lift_lets

theorem Keeps.sketchRead (h : Keeps s₀ s) (c : RoomCfg) (room page : Nat) :
    Keeps s₀ (State.sketchRead s c room page) := by
  unfold State.sketchRead
  repeat' first
    | with_reducible assumption
    | (intro s; refine Keeps.cut (a := s₀) s ?_ ?_ <;> [subst s; (intro h; clear_value s)])
    | (intro x; refine Keeps.inTiers x ?_; subst x)
    | (intro x; clear_value x)
    | with_reducible first | apply Keeps.promote
    | fail_if_no_progress (with_reducible apply Keeps.upd)
    | split
    | lift_lets

theorem Keeps.noteRewritten (h : Keeps s₀ s) (room page line : Nat) (full : Bool) :
    Keeps s₀ (State.noteRewritten s room page line full) := by
  unfold State.noteRewritten
  repeat' first
    | with_reducible assumption
    | (intro x; clear_value x)
    | with_reducible first | apply Keeps.journalEntry | apply Keeps.setPage
    | fail_if_no_progress (with_reducible apply Keeps.upd)
    | split
    | lift_lets

theorem Keeps.putLine (h : Keeps s₀ s) (c : RoomCfg) (key : Key) (room page line : Nat) (data : Line) (mask : BitVec 64) (poison : Bool) :
    Keeps s₀ (State.putLine s c key room page line data mask poison) := by
  unfold State.putLine
  repeat' first
    | with_reducible assumption
    | with_reducible first | apply Keeps.advance | apply Keeps.becomeDirty | apply Keeps.dropSlices
                           | apply Keeps.install | apply Keeps.listPoison | apply Keeps.logWrite
                           | apply Keeps.noteRewritten | apply Keeps.pinPolicy | apply Keeps.poisonOthers
                           | apply Keeps.reencrypt | apply Keeps.sealInto | apply Keeps.setPage
                           | apply Keeps.sketchWrite | apply Keeps.takeSlot | apply Keeps.unlistPoison
    | fail_if_no_progress (with_reducible apply Keeps.upd)
    | split

theorem Keeps.storeLine (h : Keeps s₀ s) (requester room page line : Nat) (data : Line) (mask : BitVec 64) (poison : Bool) :
    Keeps s₀ (State.storeLine s requester room page line data mask poison) := by
  unfold State.storeLine
  repeat' first
    | with_reducible assumption
    | (intro s; refine Keeps.cut (a := s₀) s ?_ ?_ <;> [subst s; (intro h; clear_value s)])
    | (intro x; clear_value x)
    | with_reducible first | apply KeepsO.allocPage | apply Keeps.discardWrite | apply Keeps.freeFrame
                           | apply Keeps.putLine | apply Keeps.setPage
    | fail_if_no_progress (with_reducible apply Keeps.upd)
    | split
    | lift_lets
    | refine Keeps.fstOf ?_ (by with_reducible assumption)
    | refine Keeps.sndOf ?_ (by with_reducible assumption)
    | refine Keeps.someOf ?_ (by with_reducible assumption)

theorem Keeps.releaseFrame (h : Keeps s₀ s) (c : RoomCfg) (room page : Nat) (p : Page) (secure : Bool) :
    Keeps s₀ (State.releaseFrame s c room page p secure).1 := by
  unfold State.releaseFrame
  repeat' first
    | with_reducible assumption
    | (intro s; refine Keeps.cut (a := s₀) s ?_ ?_ <;> [subst s; (intro h; clear_value s)])
    | (intro x; refine Keeps.inMedia x ?_; subst x)
    | (intro x; clear_value x)
    | with_reducible first | apply Keeps.freeFrame | apply Keeps.sendDelta | apply Keeps.setFrame
                           | apply Keeps.setStripe
    | fail_if_no_progress (with_reducible apply Keeps.upd)
    | with_reducible refine Keeps.foldl ?_ fun s x h => ?_
    | with_reducible refine Keeps.foldlFst ?_ fun s x h => ?_
    | with_reducible refine Keeps.foldlSnd ?_ fun s x h => ?_
    | split
    | lift_lets

theorem Keeps.releasePage (h : Keeps s₀ s) (room page : Nat) (secure : Bool) :
    Keeps s₀ (State.releasePage s room page secure).1 := by
  unfold State.releasePage
  repeat' first
    | with_reducible assumption
    | (intro s; refine Keeps.cut (a := s₀) s ?_ ?_ <;> [subst s; (intro h; clear_value s)])
    | (intro x; clear_value x)
    | with_reducible first | apply Keeps.count | apply Keeps.dropPageSlices | apply Keeps.emit
                           | apply Keeps.freeFrame | apply Keeps.invalidatePage | apply Keeps.journalEntry
                           | apply Keeps.journalPage | apply Keeps.modRoom | apply Keeps.releaseFrame
                           | apply Keeps.roomCount | apply Keeps.satReg | apply Keeps.setBlock | apply Keeps.setPage
                           | apply Keeps.spareLevels
    | fail_if_no_progress (with_reducible apply Keeps.upd)
    | with_reducible refine Keeps.foldl ?_ fun s x h => ?_
    | with_reducible refine Keeps.foldlFst ?_ fun s x h => ?_
    | with_reducible refine Keeps.foldlSnd ?_ fun s x h => ?_
    | split
    | lift_lets

theorem Keeps.releasePages (h : Keeps s₀ s) (room : Nat) (pages : List Nat) (secure : Bool) :
    Keeps s₀ (State.releasePages s room pages secure).1 := by
  unfold State.releasePages
  repeat' first
    | with_reducible assumption
    | with_reducible first | apply Keeps.releasePage
    | with_reducible refine Keeps.foldl ?_ fun s x h => ?_
    | with_reducible refine Keeps.foldlFst ?_ fun s x h => ?_

end Sys2Proof.Machine
end

