-- ==== Sys2Proof/Laws/KeepsMediaOps.lean ====
section
/-! SUPPORT. What the operations of Machine/MediaOps.lean keep, in the sense of Laws/Keeps.lean. -/

namespace Sys2Proof.Machine

variable {s₀ s t : State}

theorem Keeps.queueParity (h : Keeps s₀ s) (room stripe position : Nat) :
    Keeps s₀ (State.queueParity s room stripe position) := by
  unfold State.queueParity
  repeat' first
    | with_reducible assumption
    | (intro x; clear_value x)
    | with_reducible first | apply Keeps.queueOp | apply Keeps.setStripe
    | fail_if_no_progress (with_reducible apply Keeps.upd)
    | with_reducible refine Keeps.foldl ?_ fun s x h => ?_
    | with_reducible refine Keeps.foldlFst ?_ fun s x h => ?_
    | with_reducible refine Keeps.foldlSnd ?_ fun s x h => ?_
    | split
    | lift_lets

theorem Keeps.becomeClean (h : Keeps s₀ s) (room page : Nat) : Keeps s₀ (State.becomeClean s room page) := by
  unfold State.becomeClean
  repeat' first
    | with_reducible assumption
    | (intro s; refine Keeps.cut (a := s₀) s ?_ ?_ <;> [subst s; (intro h; clear_value s)])
    | (intro x; refine Keeps.inOption x ?_; subst x)
    | (intro x; refine Keeps.inTiers x ?_; subst x)
    | (intro x; clear_value x)
    | with_reducible first | apply Keeps.count | apply Keeps.journalPage | apply Keeps.queueParity
                           | apply Keeps.satReg | apply Keeps.setPage
    | fail_if_no_progress (with_reducible apply Keeps.upd)
    | split
    | lift_lets

theorem Keeps.writeBackAway (h : Keeps s₀ s) (c : RoomCfg) (room page : Nat) :
    Keeps s₀ (State.writeBackAway s c room page) := by
  unfold State.writeBackAway
  repeat' first
    | with_reducible assumption
    | with_reducible first | apply Keeps.becomeClean | apply Keeps.journalEntry | apply Keeps.setPage
                           | apply Keeps.setStripe
    | fail_if_no_progress (with_reducible apply Keeps.upd)
    | split

theorem Keeps.queueWriteBack (h : Keeps s₀ s) (room page position : Nat) :
    Keeps s₀ (State.queueWriteBack s room page position) := by
  unfold State.queueWriteBack
  repeat' first
    | with_reducible assumption
    | (intro x; clear_value x)
    | with_reducible first | apply Keeps.queueOp | apply Keeps.writeBackAway
    | fail_if_no_progress (with_reducible apply Keeps.upd)
    | with_reducible refine Keeps.foldl ?_ fun s x h => ?_
    | with_reducible refine Keeps.foldlFst ?_ fun s x h => ?_
    | with_reducible refine Keeps.foldlSnd ?_ fun s x h => ?_
    | split
    | lift_lets

theorem Keeps.writeBackAll (h : Keeps s₀ s) (position : Nat) : Keeps s₀ (State.writeBackAll s position) := by
  unfold State.writeBackAll
  repeat' first
    | with_reducible assumption
    | with_reducible first | apply Keeps.queueWriteBack
    | fail_if_no_progress (with_reducible apply Keeps.upd)
    | with_reducible refine Keeps.foldl ?_ fun s x h => ?_

theorem Keeps.spend (h : Keeps s₀ s) (o : MediaOp) : Keeps s₀ (State.spend s o) := by
  unfold State.spend
  repeat' first
    | with_reducible assumption
    | (intro x; refine Keeps.inPair x ?_; subst x)
    | (intro x; refine Keeps.inMedia x ?_; subst x)
    | fail_if_no_progress (with_reducible apply Keeps.upd)
    | fail_if_no_progress (with_reducible apply Keeps.draw)
    | split
    | lift_lets

theorem Keeps.issue (h : Keeps s₀ s) (o : MediaOp) (lines : SMap StoredLine) : Keeps s₀ (State.issue s o lines) := by
  unfold State.issue
  repeat' first
    | with_reducible assumption
    | (intro s; refine Keeps.cut (a := s₀) s ?_ ?_ <;> [subst s; (intro h; clear_value s)])
    | (intro x; refine Keeps.inMedia x ?_; subst x)
    | (intro x; clear_value x)
    | with_reducible first | apply Keeps.count | apply Keeps.setFrame | apply Keeps.spend
    | fail_if_no_progress (with_reducible apply Keeps.upd)
    | split
    | lift_lets

theorem Keeps.programLines (h : Keeps s₀ s) (a : FrameAddr) (lines : SMap StoredLine) :
    Keeps s₀ (State.programLines s a lines) := by
  unfold State.programLines
  repeat' first
    | with_reducible assumption
    | with_reducible first | apply Keeps.setFrame
    | fail_if_no_progress (with_reducible apply Keeps.upd)
    | with_reducible refine Keeps.foldl ?_ fun s x h => ?_
    | with_reducible refine Keeps.foldlFst ?_ fun s x h => ?_
    | with_reducible refine Keeps.foldlSnd ?_ fun s x h => ?_
    | split

theorem Keeps.wroteBack (h : Keeps s₀ s) (k : Nat) (o : MediaOp) : Keeps s₀ (State.wroteBack s k o) := by
  unfold State.wroteBack
  repeat' first
    | with_reducible assumption
    | (intro s; refine Keeps.cut (a := s₀) s ?_ ?_ <;> [subst s; (intro h; clear_value s)])
    | (intro x; clear_value x)
    | with_reducible first | apply Keeps.becomeClean | apply Keeps.count | apply Keeps.programLines
                           | apply Keeps.setPage
    | fail_if_no_progress (with_reducible apply Keeps.upd)
    | split
    | lift_lets

theorem Keeps.leaveFrame (h : Keeps s₀ s) (a : FrameAddr) : Keeps s₀ (State.leaveFrame s a) := by
  unfold State.leaveFrame
  dsimp only
  split
  · exact h
  · refine iteInduction (fun _ => h) fun _ => iteInduction (fun _ => Keeps.queueOp ?_ _) fun _ => ?_
    · exact h.mem id id id id
    · exact h.mem id id id id

theorem Keeps.overwritten (h : Keeps s₀ s) (a : FrameAddr) : Keeps s₀ (State.overwritten s a) := by
  unfold State.overwritten
  dsimp only
  split
  · exact h.mem id id id id
  · refine iteInduction (fun _ => Keeps.freeFrame ?_ _) fun _ => ?_
    · exact Keeps.setFrame (h.mem id id id id) _ _
    · exact Keeps.setFrame (h.mem id id id id) _ _

theorem Keeps.rebuiltMember (h : Keeps s₀ s) (k : Nat) (o : MediaOp) : Keeps s₀ (State.rebuiltMember s k o) := by
  unfold State.rebuiltMember
  repeat' first
    | with_reducible assumption
    | with_reducible first | apply Keeps.count | apply Keeps.journalEntry | apply Keeps.leaveFrame | apply Keeps.programLines
                           | apply Keeps.setPage | apply Keeps.setStripe
    | fail_if_no_progress (with_reducible apply Keeps.upd)
    | split

theorem Keeps.opDone (h : Keeps s₀ s) (o : MediaOp) : Keeps s₀ (State.opDone s o) := by
  unfold State.opDone
  repeat' first
    | with_reducible assumption
    | (intro s; refine Keeps.cut (a := s₀) s ?_ ?_ <;> [subst s; (intro h; clear_value s)])
    | (intro x; refine Keeps.inMedia x ?_; subst x)
    | (intro x; clear_value x)
    | with_reducible first | apply Keeps.count | apply Keeps.overwritten | apply Keeps.programLines | apply Keeps.rebuiltMember
                           | apply Keeps.satReg | apply Keeps.setFrame | apply Keeps.setStripe
                           | apply Keeps.spareLevels | apply Keeps.wroteBack
    | fail_if_no_progress (with_reducible apply Keeps.upd)
    | fail_if_no_progress (with_reducible apply Keeps.draw)
    | split
    | lift_lets

theorem Keeps.useSpare (h : Keeps s₀ s) (a : FrameAddr) (room index home : Nat) :
    Keeps s₀ (State.useSpare s a room index home) := by
  unfold State.useSpare
  repeat' first
    | with_reducible assumption
    | with_reducible first | apply Keeps.useFrame
    | fail_if_no_progress (with_reducible apply Keeps.upd)

theorem Keeps.retireMove (h : Keeps s₀ s) (a : FrameAddr) (extra : SMap StoredLine) :
    Keeps s₀ (State.retireMove s a extra) := by
  unfold State.retireMove
  repeat' first
    | with_reducible assumption
    | (intro s; refine Keeps.cut (a := s₀) s ?_ ?_ <;> [subst s; (intro h; clear_value s)])
    | (intro x; refine Keeps.inOption x ?_; subst x)
    | (intro x; clear_value x)
    | with_reducible first | apply Keeps.becomeClean | apply Keeps.journalEntry | apply Keeps.programLines
                           | apply Keeps.retireFrame | apply Keeps.setPage | apply Keeps.setStripe
                           | apply Keeps.useFrame | apply Keeps.useSpare
    | fail_if_no_progress (with_reducible apply Keeps.upd)
    | with_reducible refine Keeps.foldl ?_ fun s x h => ?_
    | with_reducible refine Keeps.foldlFst ?_ fun s x h => ?_
    | with_reducible refine Keeps.foldlSnd ?_ fun s x h => ?_
    | split
    | lift_lets

theorem Keeps.opFailed (h : Keeps s₀ s) (o : MediaOp) : Keeps s₀ (State.opFailed s o) := by
  unfold State.opFailed
  repeat' first
    | with_reducible assumption
    | (intro s; refine Keeps.cut (a := s₀) s ?_ ?_ <;> [subst s; (intro h; clear_value s)])
    | (intro x; refine Keeps.inMedia x ?_; subst x)
    | (intro x; clear_value x)
    | with_reducible first | apply Keeps.allocParity | apply Keeps.emit | apply Keeps.queueParity
                           | apply Keeps.retireFrame | apply Keeps.retireMove | apply Keeps.satReg
                           | apply Keeps.setReg | apply Keeps.setStripe
    | fail_if_no_progress (with_reducible apply Keeps.upd)
    | split
    | lift_lets

end Sys2Proof.Machine
end

