-- ==== Sys2Proof/Laws/KeepsHostReq.lean ====
section
/-! SUPPORT. What the operations of Machine/HostReq.lean keep, in the sense of Laws/Keeps.lean. -/

namespace Sys2Proof.Machine

variable {s₀ s t : State}

theorem Keeps.answer (h : Keeps s₀ s) (room : Nat) (o : Out) : Keeps s₀ (State.answer s room o) := by
  unfold State.answer
  repeat' first
    | with_reducible assumption
    | with_reducible first | apply Keeps.send
    | fail_if_no_progress (with_reducible apply Keeps.upd)
    | split

theorem Keeps.credit (h : Keeps s₀ s) (room : Nat) : Keeps s₀ (State.credit s room) := by
  unfold State.credit
  repeat' first
    | with_reducible assumption
    | with_reducible first | apply Keeps.modRoom

theorem Keeps.answerLines (h : Keeps s₀ s) (got : List (Line × Bool)) : Keeps s₀ (State.answerLines s got).2 := by
  unfold State.answerLines
  repeat' first
    | with_reducible assumption
    | fail_if_no_progress (with_reducible apply Keeps.upd)
    | fail_if_no_progress (with_reducible apply Keeps.draw)
    | with_reducible refine Keeps.foldl ?_ fun s x h => ?_
    | with_reducible refine Keeps.foldlFst ?_ fun s x h => ?_
    | with_reducible refine Keeps.foldlSnd ?_ fun s x h => ?_
    | split

theorem Keeps.sampleRecord (h : Keeps s₀ s) (who room page line type source flags : Nat) :
    Keeps s₀ (State.sampleRecord s who room page line type source flags) := by
  unfold State.sampleRecord
  repeat' first
    | with_reducible assumption
    | (intro s; refine Keeps.cut (a := s₀) s ?_ ?_ <;> [subst s; (intro h; clear_value s)])
    | (intro x; clear_value x)
    | with_reducible first | apply Keeps.satReg | apply Keeps.setFlag | apply Keeps.setReg
    | fail_if_no_progress (with_reducible apply Keeps.upd)
    | fail_if_no_progress (with_reducible apply Keeps.draw)
    | split
    | lift_lets

theorem Keeps.sample (h : Keeps s₀ s) (q : Req) (page line : Nat) : Keeps s₀ (State.sample s q page line) := by
  unfold State.sample
  repeat' first
    | with_reducible assumption
    | with_reducible first | apply Keeps.sampleRecord
    | split

theorem Keeps.respond (h : Keeps s₀ s) (q : Req) (kind : RespKind) (page line : Nat) :
    Keeps s₀ (State.respond s q kind page line) := by
  unfold State.respond
  repeat' first
    | with_reducible assumption
    | with_reducible first | apply Keeps.answer | apply Keeps.answerLines | apply Keeps.count | apply Keeps.credit
                           | apply Keeps.roomCount | apply Keeps.sample
    | split

theorem Keeps.refuse (h : Keeps s₀ s) (requester tag : Nat) (kind : ReqKind) (addrKind address : Nat) (room : Option Nat) :
    Keeps s₀ (State.refuse s requester tag kind addrKind address room) := by
  unfold State.refuse
  repeat' first
    | with_reducible assumption
    | with_reducible first | apply Keeps.answer | apply Keeps.count | apply Keeps.emitReq | apply Keeps.roomCount
                           | apply Keeps.satReg
    | fail_if_no_progress (with_reducible apply Keeps.upd)
    | split

theorem Keeps.discardQuietly (h : Keeps s₀ s) (requester tag : Nat) (kind : ReqKind) :
    Keeps s₀ (State.discardQuietly s requester tag kind) := by
  unfold State.discardQuietly
  repeat' first
    | with_reducible assumption
    | with_reducible first | apply Keeps.answer

theorem Keeps.setDir (h : Keeps s₀ s) (key : Nat) (e : DirEntry) : Keeps s₀ (State.setDir s key e) := by
  unfold State.setDir
  repeat' first
    | with_reducible assumption
    | fail_if_no_progress (with_reducible apply Keeps.upd)

theorem Keeps.markHolder (h : Keeps s₀ s) (w requester : Nat) : Keeps s₀ (State.markHolder s w requester) := by
  unfold State.markHolder
  repeat' first
    | with_reducible assumption
    | with_reducible first | apply Keeps.setReg

theorem Keeps.grant (h : Keeps s₀ s) (q : Req) (key : Nat) : Keeps s₀ (State.grant s q key).1 := by
  unfold State.grant
  repeat' first
    | with_reducible assumption
    | (intro x; clear_value x)
    | with_reducible first | apply Keeps.dropDir | apply Keeps.dropSlices | apply Keeps.markHolder
                           | apply Keeps.setDir | apply Keeps.shareCopies
    | fail_if_no_progress (with_reducible apply Keeps.upd)
    | split
    | lift_lets

theorem Keeps.evictEntry (h : Keeps s₀ s) (key : Nat) : Keeps s₀ (State.evictEntry s key) := by
  unfold State.evictEntry
  repeat' first
    | with_reducible assumption
    | (intro x; clear_value x)
    | with_reducible first | apply Keeps.count | apply Keeps.dropDir | apply Keeps.dropSlices | apply Keeps.free
                           | apply Keeps.satReg | apply Keeps.snoop
    | fail_if_no_progress (with_reducible apply Keeps.upd)
    | with_reducible refine Keeps.foldl ?_ fun s x h => ?_
    | with_reducible refine Keeps.foldlFst ?_ fun s x h => ?_
    | with_reducible refine Keeps.foldlSnd ?_ fun s x h => ?_
    | split
    | lift_lets
    | refine Keeps.fstOf ?_ (by with_reducible assumption)
    | refine Keeps.sndOf ?_ (by with_reducible assumption)
    | refine Keeps.someOf ?_ (by with_reducible assumption)
    | dsimp only

theorem Keeps.makeEntry (h : Keeps s₀ s) (key : Nat) : Keeps s₀ (State.makeEntry s key).1 := by
  unfold State.makeEntry
  repeat' first
    | with_reducible assumption
    | (intro s; refine Keeps.cut (a := s₀) s ?_ ?_ <;> [subst s; (intro h; clear_value s)])
    | (intro x; clear_value x)
    | with_reducible first | apply Keeps.evictEntry
    | split
    | lift_lets

theorem Keeps.own (h : Keeps s₀ s) (v room page line : Nat) (data : Line) :
    Keeps s₀ (State.own s v room page line data) := by
  unfold State.own
  repeat' first
    | with_reducible assumption
    | (intro s; refine Keeps.cut (a := s₀) s ?_ ?_ <;> [subst s; (intro h; clear_value s)])
    | (intro x; clear_value x)
    | with_reducible first | apply Keeps.dropSlices | apply Keeps.install | apply Keeps.makeEntry
    | fail_if_no_progress (with_reducible apply Keeps.upd)
    | split
    | lift_lets

theorem Keeps.ownWritten (h : Keeps s₀ s) (v room page line : Nat) :
    Keeps s₀ (State.ownWritten s v room page line) := by
  unfold State.ownWritten
  repeat' first
    | with_reducible assumption
    | with_reducible first | apply Keeps.own
    | fail_if_no_progress (with_reducible apply Keeps.upd)
    | split

theorem Keeps.forwarded (h : Keeps s₀ s) (room page line : Nat) : Keeps s₀ (State.forwarded s room page line) := by
  unfold State.forwarded
  dsimp only
  split
  · split
    · refine ((Keeps.satReg ?_ _ _ _).count _ _)
      exact h.mem id (sortedKeys_adjust · _ _) id id
    · exact h
  · exact h
theorem Keeps.share (h : Keeps s₀ s) (v room page line : Nat) (data : Line) :
    Keeps s₀ (State.share s v room page line data) := by
  unfold State.share
  dsimp only
  split
  · exact h
  · generalize hm : (s.forwarded room page line).makeEntry (lineKey room page line) = m
    have h1 : Keeps s₀ m.1 := hm ▸ (h.forwarded ..).makeEntry _
    exact (h1.install _ _ _ _ _).mem id id id id

theorem Keeps.setReq (h : Keeps s₀ s) (q : Req) : Keeps s₀ (State.setReq s q) := by
  unfold State.setReq
  repeat' first
    | with_reducible assumption
    | fail_if_no_progress (with_reducible apply Keeps.upd)

theorem Keeps.dropReq (h : Keeps s₀ s) (q : Req) : Keeps s₀ (State.dropReq s q) := by
  unfold State.dropReq
  repeat' first
    | with_reducible assumption
    | fail_if_no_progress (with_reducible apply Keeps.upd)

theorem Keeps.lineDone (h : Keeps s₀ s) (q : Req) (data : Option (Line × Bool)) :
    Keeps s₀ (State.lineDone s q data).1 := by
  unfold State.lineDone
  repeat' first
    | with_reducible assumption
    | with_reducible first | apply Keeps.dropReq | apply Keeps.grant | apply Keeps.respond | apply Keeps.setReq
    | fail_if_no_progress (with_reducible apply Keeps.upd)
    | split

theorem Keeps.touch (h : Keeps s₀ s) (room page : Nat) : Keeps s₀ (State.touch s room page) := by
  unfold State.touch
  repeat' first
    | with_reducible assumption
    | (intro x; clear_value x)
    | with_reducible first | apply Keeps.setPage
    | fail_if_no_progress (with_reducible apply Keeps.upd)
    | split
    | lift_lets

theorem Keeps.panLoc (h : Keeps s₀ s) (w key kind : Nat) : Keeps s₀ (State.panLoc s w key kind) := by
  unfold State.panLoc
  repeat' first
    | with_reducible assumption
    | with_reducible first | apply Keeps.free | apply Keeps.setReg

theorem Keeps.panDirtyLost (h : Keeps s₀ s) (w key : Nat) : Keeps s₀ (State.panDirtyLost s w key) := by
  unfold State.panDirtyLost
  repeat' first
    | with_reducible assumption
    | (intro s; refine Keeps.cut (a := s₀) s ?_ ?_ <;> [subst s; (intro h; clear_value s)])
    | (intro x; refine Keeps.inFun x ?_; subst x)
    | (intro x; clear_value x)
    | with_reducible first | apply Keeps.dropSlice | apply Keeps.emit | apply Keeps.listPoison | apply Keeps.panLoc
                           | apply Keeps.satReg | apply Keeps.setFlag | apply Keeps.setPage
    | fail_if_no_progress (with_reducible apply Keeps.upd)
    | split
    | lift_lets

theorem Keeps.pantryChecked (h : Keeps s₀ s) (room page line : Nat) (check : PantryCheck) :
    Keeps s₀ (State.pantryChecked s room page line check) := by
  unfold State.pantryChecked
  repeat' first
    | with_reducible assumption
    | (intro x; refine Keeps.inFun x ?_; subst x)
    | (intro x; clear_value x)
    | with_reducible first | apply Keeps.dropSlice | apply Keeps.emit | apply Keeps.panDirtyLost
                           | apply Keeps.panLoc | apply Keeps.satReg
    | fail_if_no_progress (with_reducible apply Keeps.upd)
    | with_reducible refine Keeps.foldl ?_ fun s x h => ?_
    | with_reducible refine Keeps.foldlFst ?_ fun s x h => ?_
    | with_reducible refine Keeps.foldlSnd ?_ fun s x h => ?_
    | split
    | lift_lets
    | refine Keeps.fstOf ?_ (by with_reducible assumption)
    | refine Keeps.sndOf ?_ (by with_reducible assumption)
    | refine Keeps.someOf ?_ (by with_reducible assumption)
    | dsimp only

theorem Keeps.countRead (h : Keeps s₀ s) (room page line source : Nat) (poison : Bool) :
    Keeps s₀ (State.countRead s room page line source poison) := by
  unfold State.countRead
  repeat' first
    | with_reducible assumption
    | with_reducible first | apply Keeps.count | apply Keeps.emit | apply Keeps.forwarded | apply Keeps.listPoison
                           | apply Keeps.roomCount | apply Keeps.satReg | apply Keeps.setPage
    | fail_if_no_progress (with_reducible apply Keeps.upd)
    | split

theorem Keeps.atomicOn (h : Keeps s₀ s) (requester room page line w : Nat) (a : AtomicCmd) :
    Keeps s₀ (State.atomicOn s requester room page line w a).1 := by
  unfold State.atomicOn
  repeat' first
    | with_reducible assumption
    | (intro s; refine Keeps.cut (a := s₀) s ?_ ?_ <;> [subst s; (intro h; clear_value s)])
    | with_reducible first | apply Keeps.own | apply Keeps.storeLine
    | fail_if_no_progress (with_reducible apply Keeps.upd)
    | split
    | lift_lets

theorem Keeps.runAtomic (h : Keeps s₀ s) (q : Req) (c : RoomCfg) (o : LineOp) :
    Keeps s₀ (State.runAtomic s q c o) := by
  unfold State.runAtomic
  repeat' first
    | with_reducible assumption
    | with_reducible first | apply Keeps.atomicOn | apply Keeps.count | apply Keeps.roomCount | apply Keeps.satReg
                           | apply Keeps.storeLine
    | fail_if_no_progress (with_reducible apply Keeps.upd)
    | split

theorem Keeps.hold (h : Keeps s₀ s) (q : Req) (why : Wait) : Keeps s₀ (State.hold s q why) := by
  unfold State.hold
  repeat' first
    | with_reducible assumption
    | with_reducible first | apply Keeps.count | apply Keeps.roomCount | apply Keeps.satReg | apply Keeps.setReq
    | fail_if_no_progress (with_reducible apply Keeps.upd)
    | split

theorem Keeps.sendSnoops (h : Keeps s₀ s) (q : Req) (key : Nat) (targets : List Nat) (kind : SnoopKind) :
    Keeps s₀ (State.sendSnoops s q key targets kind) := by
  unfold State.sendSnoops
  repeat' first
    | with_reducible assumption
    | with_reducible first | apply Keeps.setReq | apply Keeps.snoop
    | fail_if_no_progress (with_reducible apply Keeps.upd)
    | with_reducible refine Keeps.foldl ?_ fun s x h => ?_
    | with_reducible refine Keeps.foldlFst ?_ fun s x h => ?_
    | with_reducible refine Keeps.foldlSnd ?_ fun s x h => ?_
    | split

theorem Keeps.noteReceived (h : Keeps s₀ s) (q : Req) (o : LineOp) : Keeps s₀ (State.noteReceived s q o) := by
  unfold State.noteReceived
  repeat' first
    | with_reducible assumption
    | fail_if_no_progress (with_reducible apply Keeps.upd)
    | split

theorem Keeps.serveWrite (h : Keeps s₀ s) (q : Req) (c : RoomCfg) (o : LineOp) :
    Keeps s₀ (State.serveWrite s q c o) := by
  unfold State.serveWrite
  repeat' first
    | with_reducible assumption
    | with_reducible first | apply Keeps.emitReq | apply Keeps.noteReceived | apply Keeps.storeLine
    | split

theorem Keeps.countWrite (h : Keeps s₀ s) (q : Req) (o : LineOp) : Keeps s₀ (State.countWrite s q o) := by
  unfold State.countWrite
  repeat' first
    | with_reducible assumption
    | with_reducible first | apply Keeps.roomCount

theorem Keeps.doneWith (h : Keeps s₀ s) (q : Req) (data : Option (Line × Bool)) :
    Keeps s₀ (State.doneWith s q data).1 := by
  unfold State.doneWith
  repeat' first
    | with_reducible assumption
    | with_reducible first | apply Keeps.lineDone

theorem Keeps.serveForward (h : Keeps s₀ s) (q : Req) (o : LineOp) : Keeps s₀ (State.serveForward s q o).1 := by
  unfold State.serveForward
  repeat' first
    | with_reducible assumption
    | with_reducible first | apply Keeps.doneWith | apply Keeps.send
    | fail_if_no_progress (with_reducible apply Keeps.upd)
    | fail_if_no_progress (with_reducible apply Keeps.draw)

theorem Keeps.serveAtomic (h : Keeps s₀ s) (q : Req) (c : RoomCfg) (o : LineOp) :
    Keeps s₀ (State.serveAtomic s q c o) := by
  unfold State.serveAtomic
  repeat' first
    | with_reducible assumption
    | (intro s; refine Keeps.cut (a := s₀) s ?_ ?_ <;> [subst s; (intro h; clear_value s)])
    | (intro x; clear_value x)
    | with_reducible first | apply Keeps.dropDir | apply Keeps.dropReq | apply Keeps.hold | apply Keeps.respond
                           | apply Keeps.runAtomic | apply Keeps.sendSnoops | apply Keeps.snoop
    | fail_if_no_progress (with_reducible apply Keeps.upd)
    | with_reducible refine Keeps.foldl ?_ fun s x h => ?_
    | with_reducible refine Keeps.foldlFst ?_ fun s x h => ?_
    | with_reducible refine Keeps.foldlSnd ?_ fun s x h => ?_
    | split
    | lift_lets

theorem Keeps.serveDescriptor (h : Keeps s₀ s) (q : Req) (o : LineOp) : Keeps s₀ (State.serveDescriptor s q o).1 := by
  unfold State.serveDescriptor
  repeat' first
    | with_reducible assumption
    | (intro x; clear_value x)
    | with_reducible first | apply Keeps.dropReq | apply Keeps.respond | apply Keeps.setReq
    | fail_if_no_progress (with_reducible apply Keeps.upd)
    | split
    | lift_lets

theorem Keeps.serveRead (h : Keeps s₀ s) (q : Req) (o : LineOp) : Keeps s₀ (State.serveRead s q o).1 := by
  unfold State.serveRead
  repeat' first
    | with_reducible assumption
    | (intro s; refine Keeps.cut (a := s₀) s ?_ ?_ <;> [subst s; (intro h; clear_value s)])
    | (intro x; clear_value x)
    | with_reducible first | apply Keeps.countRead | apply Keeps.doneWith | apply Keeps.hold
                           | apply Keeps.pantryChecked | apply Keeps.touch
    | fail_if_no_progress (with_reducible apply Keeps.upd)
    | split
    | lift_lets

theorem Keeps.serveStore (h : Keeps s₀ s) (q : Req) (c : RoomCfg) (o : LineOp) :
    Keeps s₀ (State.serveStore s q c o).1 := by
  unfold State.serveStore
  repeat' first
    | with_reducible assumption
    | with_reducible first | apply Keeps.countWrite | apply Keeps.doneWith | apply Keeps.hold | apply Keeps.serveWrite
    | split

theorem Keeps.serveOpen (h : Keeps s₀ s) (q : Req) (c : RoomCfg) (o : LineOp) (key : Nat) :
    Keeps s₀ (State.serveOpen s q c o key).1 := by
  unfold State.serveOpen
  repeat' first
    | with_reducible assumption
    | (intro x; refine Keeps.inPair x ?_; subst x)
    | with_reducible first | apply Keeps.doneWith | apply Keeps.hold | apply Keeps.makeEntry
                           | apply Keeps.sendSnoops | apply Keeps.serveDescriptor | apply Keeps.serveRead
                           | apply Keeps.serveStore | apply Keeps.snoop
    | split
    | lift_lets

theorem Keeps.serveLine (h : Keeps s₀ s) (q : Req) : Keeps s₀ (State.serveLine s q).1 := by
  unfold State.serveLine
  repeat' first
    | with_reducible assumption
    | (intro x; clear_value x)
    | with_reducible first | apply Keeps.hold | apply Keeps.serveAtomic | apply Keeps.serveForward
                           | apply Keeps.serveOpen | apply Keeps.snoop
    | fail_if_no_progress (with_reducible apply Keeps.upd)
    | split
    | lift_lets

theorem Keeps.serve (n : Nat) (h : Keeps s₀ s) (q : Req) : Keeps s₀ (State.serve n s q) := by
  induction n generalizing s q with
  | zero => exact h
  | succ n ih =>
    have h1 := h.serveLine q
    unfold State.serve
    split
    · next e => exact ih (by rw [e] at h1; exact h1) _
    · next e => rw [e] at h1; exact h1

theorem Keeps.pass (h : Keeps s₀ s) : Keeps s₀ (State.pass s) := by
  unfold State.pass
  repeat' first
    | with_reducible assumption
    | with_reducible first | apply Keeps.serve
    | fail_if_no_progress (with_reducible apply Keeps.upd)
    | with_reducible refine Keeps.foldl ?_ fun s x h => ?_
    | with_reducible refine Keeps.foldlFst ?_ fun s x h => ?_
    | with_reducible refine Keeps.foldlSnd ?_ fun s x h => ?_
    | split

theorem Keeps.admitOne (h : Keeps s₀ s) : Keeps s₀ (State.admitOne s) := by
  unfold State.admitOne
  repeat' first
    | with_reducible assumption
    | with_reducible first | apply Keeps.count | apply Keeps.modRoom
    | fail_if_no_progress (with_reducible apply Keeps.upd)
    | split

theorem Keeps.settleN (n : Nat) (h : Keeps s₀ s) : Keeps s₀ (State.settleN n s) := by
  induction n generalizing s with
  | zero => exact h
  | succ n ih => exact ih h.admitOne.pass

theorem Keeps.paceLevel (h : Keeps s₀ s) : Keeps s₀ (State.paceLevel s) := by
  unfold State.paceLevel
  repeat' first
    | with_reducible assumption
    | with_reducible first | apply Keeps.level

theorem Keeps.settle (h : Keeps s₀ s) : Keeps s₀ (State.settle s) := by
  unfold State.settle
  repeat' first
    | with_reducible assumption
    | with_reducible first | apply Keeps.paceLevel | apply Keeps.settleN

theorem Keeps.ideFailed (h : Keeps s₀ s) (uio : Bool) : Keeps s₀ (State.ideFailed s uio) := by
  unfold State.ideFailed
  repeat' first
    | with_reducible assumption
    | with_reducible first | apply Keeps.count | apply Keeps.emit | apply Keeps.setFlag | apply Keeps.setReg
    | fail_if_no_progress (with_reducible apply Keeps.upd)
    | split

theorem Keeps.enqueue (h : Keeps s₀ s) (requester room tag : Nat) (kind : ReqKind) (mv : Meta) (ops : List LineOp) (skip length : Nat) (check : PantryCheck) :
    Keeps s₀ (State.enqueue s requester room tag kind mv ops skip length check) := by
  unfold State.enqueue
  repeat' first
    | with_reducible assumption
    | fail_if_no_progress (with_reducible apply Keeps.upd)

theorem Keeps.accept (h : Keeps s₀ s) (requester room tag : Nat) (kind : ReqKind) (mv : Meta) (ops : List LineOp) (skip length : Nat) (check : PantryCheck) :
    Keeps s₀ (State.accept s requester room tag kind mv ops skip length check) := by
  unfold State.accept
  repeat' first
    | with_reducible assumption
    | with_reducible first | apply Keeps.discardQuietly | apply Keeps.enqueue | apply Keeps.satReg
                           | apply Keeps.settle
    | fail_if_no_progress (with_reducible apply Keeps.upd)
    | split

theorem Keeps.hostRequest (h : Keeps s₀ s) (h : HostReq) (kind : ReqKind) (mv : Meta) (length : Nat) (ops : Nat → List LineOp) :
    Keeps s₀ (State.hostRequest s h kind mv length ops) := by
  unfold State.hostRequest
  repeat' first
    | with_reducible assumption
    | (intro s; refine Keeps.cut (a := s₀) s ?_ ?_ <;> [subst s; (intro h; clear_value s)])
    | (intro x; clear_value x)
    | with_reducible first | apply Keeps.accept | apply Keeps.count | apply Keeps.ideFailed | apply Keeps.refuse
    | fail_if_no_progress (with_reducible apply Keeps.upd)
    | split
    | lift_lets

theorem KeepsR.execMemRd (h : Keeps s₀ s) (q : HostReq) (mv : Meta) :
    KeepsR s₀ (Sys2Proof.Machine.execMemRd q mv s) := by
  unfold Sys2Proof.Machine.execMemRd
  repeat' first
    | with_reducible assumption
    | with_reducible apply KeepsR.next
    | with_reducible exact KeepsR.fault
    | with_reducible first | apply Keeps.hostRequest

theorem KeepsR.execMemRdData (h : Keeps s₀ s) (q : HostReq) : KeepsR s₀ (Sys2Proof.Machine.execMemRdData q s) := by
  unfold Sys2Proof.Machine.execMemRdData
  repeat' first
    | with_reducible assumption
    | with_reducible apply KeepsR.next
    | with_reducible exact KeepsR.fault
    | with_reducible first | apply Keeps.hostRequest

theorem KeepsR.execMemWr (h : Keeps s₀ s) (q : HostReq) (mv : Meta) (data : Line) (poison : Bool) :
    KeepsR s₀ (Sys2Proof.Machine.execMemWr q mv data poison s) := by
  unfold Sys2Proof.Machine.execMemWr
  repeat' first
    | with_reducible assumption
    | with_reducible apply KeepsR.next
    | with_reducible exact KeepsR.fault
    | with_reducible first | apply Keeps.hostRequest

theorem KeepsR.execMemWrPtl (h : Keeps s₀ s) (q : HostReq) (mv : Meta) (data : Line) (enables : BitVec 64) (poison : Bool) :
    KeepsR s₀ (Sys2Proof.Machine.execMemWrPtl q mv data enables poison s) := by
  unfold Sys2Proof.Machine.execMemWrPtl
  repeat' first
    | with_reducible assumption
    | with_reducible apply KeepsR.next
    | with_reducible exact KeepsR.fault
    | with_reducible first | apply Keeps.hostRequest

theorem KeepsR.execMemInv (h : Keeps s₀ s) (q : HostReq) (mv : Meta) :
    KeepsR s₀ (Sys2Proof.Machine.execMemInv q mv s) := by
  unfold Sys2Proof.Machine.execMemInv
  repeat' first
    | with_reducible assumption
    | with_reducible apply KeepsR.next
    | with_reducible exact KeepsR.fault
    | with_reducible first | apply Keeps.hostRequest

theorem KeepsR.execMemInvNt (h : Keeps s₀ s) (q : HostReq) (mv : Meta) :
    KeepsR s₀ (Sys2Proof.Machine.execMemInvNt q mv s) := by
  unfold Sys2Proof.Machine.execMemInvNt
  repeat' first
    | with_reducible assumption
    | with_reducible apply KeepsR.next
    | with_reducible exact KeepsR.fault
    | with_reducible first | apply Keeps.hostRequest

theorem KeepsR.execUioRead (h : Keeps s₀ s) (q : HostReq) (length : Nat) :
    KeepsR s₀ (Sys2Proof.Machine.execUioRead q length s) := by
  unfold Sys2Proof.Machine.execUioRead
  repeat' first
    | with_reducible assumption
    | with_reducible apply KeepsR.next
    | with_reducible exact KeepsR.fault
    | with_reducible first | apply Keeps.hostRequest
    | split

theorem KeepsR.execUioWrite (h : Keeps s₀ s) (q : HostReq) (bytes : List Byte) :
    KeepsR s₀ (Sys2Proof.Machine.execUioWrite q bytes s) := by
  unfold Sys2Proof.Machine.execUioWrite
  repeat' first
    | with_reducible assumption
    | with_reducible apply KeepsR.next
    | with_reducible exact KeepsR.fault
    | with_reducible first | apply Keeps.hostRequest
    | split

theorem KeepsR.execAtomicDescriptor (h : Keeps s₀ s) (requester : Requester) (room : RoomNo) (slot : Fin 32) (data : Line) :
    KeepsR s₀ (Sys2Proof.Machine.execAtomicDescriptor requester room slot data s) := by
  unfold Sys2Proof.Machine.execAtomicDescriptor
  repeat' first
    | with_reducible assumption
    | (intro s; refine Keeps.cut (a := s₀) s ?_ ?_ <;> [subst s; (intro h; clear_value s)])
    | (intro x; clear_value x)
    | with_reducible apply KeepsR.next
    | with_reducible exact KeepsR.fault
    | with_reducible first | apply Keeps.accept | apply Keeps.count | apply Keeps.refuse
    | fail_if_no_progress (with_reducible apply Keeps.upd)
    | split
    | lift_lets

end Sys2Proof.Machine
end

