-- ==== Sys2Proof/Laws/KeepsStores.lean ====
section
/-! SUPPORT. What the operations of Machine/Stores.lean keep, in the sense of Laws/Keeps.lean. -/

namespace Sys2Proof.Machine

variable {s₀ s t : State}

theorem Keeps.applyRecord (h : Keeps s₀ s) (r : CpbRecord) : Keeps s₀ (s.applyRecord r) := by
  unfold State.applyRecord
  cases r <;> first | exact h | exact h.upd

theorem Keeps.setCpbPage (h : Keeps s₀ s) (page : Nat) (v : BitVec 512) : Keeps s₀ (State.setCpbPage s page v) := by
  unfold State.setCpbPage
  repeat' first
    | with_reducible assumption
    | fail_if_no_progress (with_reducible apply Keeps.upd)
    | fail_if_no_progress (with_reducible apply Keeps.mem)
    | with_reducible exact fun k => k
    | with_reducible exact fun k => pagesOk_set k _ _
    | with_reducible exact fun k => pagesOk_filter k _
    | with_reducible exact fun k => pagesOk_mapPages k.1 _
    | with_reducible exact fun k => sortedKeys_put k _ _
    | with_reducible exact fun k => sortedKeys_del k _
    | with_reducible exact fun k => sortedKeys_filter k _
    | with_reducible exact fun k => sortedKeys_adjust k _ _
    | with_reducible exact fun k => sortedKeys_mapAll k _
    | with_reducible exact fun k => cupboardOk_set k _ _

theorem Keeps.saturate (h : Keeps s₀ s) (k : Nat) : Keeps s₀ (State.saturate s k) := by
  unfold State.saturate
  repeat' first
    | with_reducible assumption
    | (intro x; clear_value x)
    | with_reducible first | apply Keeps.emit | apply Keeps.setReg
    | split
    | lift_lets

theorem Keeps.queuePage (h : Keeps s₀ s) (w : PageWrite) : Keeps s₀ (State.queuePage s w) := by
  unfold State.queuePage
  repeat' first
    | with_reducible assumption
    | fail_if_no_progress (with_reducible apply Keeps.upd)

theorem Keeps.advanceCounter (h : Keeps s₀ s) (k value : Nat) : Keeps s₀ (State.advanceCounter s k value) := by
  unfold State.advanceCounter
  repeat' first
    | with_reducible assumption
    | (intro x; refine Keeps.inOption x ?_; subst x)
    | (intro x; clear_value x)
    | with_reducible first | apply Keeps.queuePage | apply Keeps.saturate
    | fail_if_no_progress (with_reducible apply Keeps.upd)
    | split
    | lift_lets

theorem Keeps.queueCopy (h : Keeps s₀ s) (pages : List Nat) (seq : Nat) (r : CpbRecord) :
    Keeps s₀ (State.queueCopy s pages seq r) := by
  unfold State.queueCopy
  repeat' first
    | with_reducible assumption
    | with_reducible first | apply Keeps.queuePage
    | fail_if_no_progress (with_reducible apply Keeps.upd)
    | fail_if_no_progress (with_reducible apply Keeps.draw)
    | with_reducible refine Keeps.foldl ?_ fun s x h => ?_

theorem Keeps.queueRecord (h : Keeps s₀ s) (copy0 copy1 : List Nat) (r : CpbRecord) :
    Keeps s₀ (State.queueRecord s copy0 copy1 r) := by
  unfold State.queueRecord
  repeat' first
    | with_reducible assumption
    | with_reducible first | apply Keeps.queueCopy

theorem Keeps.queueWorn (h : Keeps s₀ s) (k : Nat) : Keeps s₀ (State.queueWorn s k) := by
  unfold State.queueWorn
  repeat' first
    | with_reducible assumption
    | with_reducible first | apply Keeps.queueRecord

theorem Keeps.answerCpb (h : Keeps s₀ s) (x : Nat × Nat × Nat × Half) : Keeps s₀ (State.answerCpb s x) := by
  unfold State.answerCpb
  repeat' first
    | with_reducible assumption
    | with_reducible first | apply Keeps.deliver

theorem Keeps.pageEnd (h : Keeps s₀ s) (ok : Bool) : Keeps s₀ (State.pageEnd s ok) := by
  unfold State.pageEnd
  repeat' first
    | with_reducible assumption
    | (intro s; refine Keeps.cut (a := s₀) s ?_ ?_ <;> [subst s; (intro h; clear_value s)])
    | (intro x; refine Keeps.inCupboard x ?_; subst x)
    | (intro x; clear_value x)
    | with_reducible first | apply Keeps.applyRecord | apply Keeps.count | apply Keeps.emit | apply Keeps.queueWorn
                           | apply Keeps.satReg | apply Keeps.saturate | apply Keeps.setCpbPage
                           | apply Keeps.setFlag
    | fail_if_no_progress (with_reducible apply Keeps.upd)
    | fail_if_no_progress (with_reducible apply Keeps.draw)
    | split
    | lift_lets

theorem Keeps.pageDone (h : Keeps s₀ s) (ok : Bool) : Keeps s₀ (State.pageDone s ok) := by
  unfold State.pageDone
  repeat' first
    | with_reducible assumption
    | with_reducible first | apply Keeps.answerCpb | apply Keeps.pageEnd
    | fail_if_no_progress (with_reducible apply Keeps.upd)
    | with_reducible refine Keeps.foldl ?_ fun s x h => ?_

theorem Keeps.finishPages (n : Nat) (h : Keeps s₀ s) : Keeps s₀ (State.finishPages n s) := by
  induction n generalizing s with
  | zero => exact h
  | succ n ih =>
    unfold State.finishPages
    split
    · exact h
    · exact ih (h.pageDone true)

theorem Keeps.cupboardOff (h : Keeps s₀ s) : Keeps s₀ (State.cupboardOff s) := by
  unfold State.cupboardOff
  repeat' first
    | with_reducible assumption
    | with_reducible first | apply Keeps.setCpbPage
    | fail_if_no_progress (with_reducible apply Keeps.upd)
    | fail_if_no_progress (with_reducible apply Keeps.draw)
    | split

theorem Keeps.attic (h : Keeps s₀ s) (r : AtticRec) : Keeps s₀ (State.attic s r) := by
  unfold State.attic
  repeat' first
    | with_reducible assumption
    | with_reducible first | apply Keeps.count | apply Keeps.emit | apply Keeps.satReg
    | fail_if_no_progress (with_reducible apply Keeps.upd)
    | split

theorem Keeps.atticNote (h : Keeps s₀ s) (part severity type : Nat) (body : List Word) :
    Keeps s₀ (State.atticNote s part severity type body) := by
  unfold State.atticNote
  repeat' first
    | with_reducible assumption
    | with_reducible first | apply Keeps.attic

theorem Keeps.flushOne (h : Keeps s₀ s) (r : AtticRec) : Keeps s₀ (State.flushOne s r) := by
  unfold State.flushOne
  repeat' first
    | with_reducible assumption
    | (intro x; refine Keeps.inOption x ?_; subst x)
    | (intro x; clear_value x)
    | with_reducible first | apply Keeps.satReg
    | fail_if_no_progress (with_reducible apply Keeps.upd)
    | split
    | lift_lets

theorem Keeps.flushAttic (h : Keeps s₀ s) : Keeps s₀ (State.flushAttic s) := by
  unfold State.flushAttic
  repeat' first
    | with_reducible assumption
    | with_reducible first | apply Keeps.count | apply Keeps.flushOne | apply Keeps.satReg
    | fail_if_no_progress (with_reducible apply Keeps.upd)
    | with_reducible refine Keeps.foldl ?_ fun s x h => ?_

theorem Keeps.putSlotTable (h : Keeps s₀ s) (t : SMap KeySlot) : Keeps s₀ (State.putSlotTable s t) := by
  unfold State.putSlotTable
  repeat' first
    | with_reducible assumption
    | fail_if_no_progress (with_reducible apply Keeps.upd)

theorem Keeps.checkpointNow (h : Keeps s₀ s) : Keeps s₀ (State.checkpointNow s) := by
  unfold State.checkpointNow
  dsimp only
  refine (Keeps.setReg ?_ _ _ _).setReg _ _ _
  split
  · exact h.mem (fun k => pagesOk_mapPages k.1 _) id (sortedKeys_mapAll · _) id
  · exact (h.mem (fun k => pagesOk_mapPages k.1 _) id (sortedKeys_mapAll · _) id).putSlotTable _

theorem Keeps.anchorNow (h : Keeps s₀ s) : Keeps s₀ (State.anchorNow s) := by
  unfold State.anchorNow
  repeat' first
    | with_reducible assumption
    | with_reducible first | apply Keeps.advanceCounter | apply Keeps.queueCopy | apply Keeps.queueRecord
    | fail_if_no_progress (with_reducible apply Keeps.upd)
    | split

end Sys2Proof.Machine
end

