-- ==== Sys2Proof/Laws/KeepsUnits.lean ====
section
/-! SUPPORT. What the operations of Machine/Units.lean keep, in the sense of Laws/Keeps.lean. -/

namespace Sys2Proof.Machine

variable {s₀ s t : State}

theorem Keeps.losePage (h : Keeps s₀ s) (room page : Nat) : Keeps s₀ (State.losePage s room page) := by
  unfold State.losePage
  repeat' first
    | with_reducible assumption
    | (intro s; refine Keeps.cut (a := s₀) s ?_ ?_ <;> [subst s; (intro h; clear_value s)])
    | (intro x; refine Keeps.inTiers x ?_; subst x)
    | (intro x; refine Keeps.inMedia x ?_; subst x)
    | (intro x; clear_value x)
    | with_reducible first | apply Keeps.dropPageSlices | apply Keeps.journalEntry | apply Keeps.setPage
    | fail_if_no_progress (with_reducible apply Keeps.upd)
    | split
    | lift_lets

theorem Keeps.queueRebuild (h : Keeps s₀ s) (room page : Nat) (wings skip : List Nat) :
    Keeps s₀ (State.queueRebuild s room page wings skip) := by
  unfold State.queueRebuild
  repeat' first
    | with_reducible assumption
    | (intro s; refine Keeps.cut (a := s₀) s ?_ ?_ <;> [subst s; (intro h; clear_value s)])
    | (intro x; clear_value x)
    | with_reducible first | apply Keeps.queueOp | apply Keeps.setStripe | apply Keeps.useFrame
    | fail_if_no_progress (with_reducible apply Keeps.upd)
    | split
    | lift_lets

theorem Keeps.loseFrames (h : Keeps s₀ s) (hit : FrameAddr → Bool) : Keeps s₀ (State.loseFrames s hit) := by
  unfold State.loseFrames
  repeat' first
    | with_reducible assumption
    | with_reducible first | apply Keeps.losePage | apply Keeps.writeBackAway
    | fail_if_no_progress (with_reducible apply Keeps.upd)
    | with_reducible refine Keeps.foldl ?_ fun s x h => ?_
    | with_reducible refine Keeps.foldlFst ?_ fun s x h => ?_
    | with_reducible refine Keeps.foldlSnd ?_ fun s x h => ?_
    | split

theorem Keeps.rebuildFrames (h : Keeps s₀ s) (wing cellar : Nat) (pages : List (Nat × Nat)) :
    Keeps s₀ (State.rebuildFrames s wing cellar pages) := by
  unfold State.rebuildFrames
  repeat' first
    | with_reducible assumption
    | with_reducible first | apply Keeps.queueRebuild
    | with_reducible refine Keeps.foldl ?_ fun s x h => ?_
    | with_reducible refine Keeps.foldlFst ?_ fun s x h => ?_
    | with_reducible refine Keeps.foldlSnd ?_ fun s x h => ?_
    | split

theorem Keeps.setSvc (h : Keeps s₀ s) (u state cause : Nat) : Keeps s₀ (State.setSvc s u state cause) := by
  unfold State.setSvc
  repeat' first
    | with_reducible assumption
    | with_reducible first | apply Keeps.setReg

theorem Keeps.loseCellar (h : Keeps s₀ s) (c : Nat) : Keeps s₀ (State.loseCellar s c) := by
  unfold State.loseCellar
  repeat' first
    | with_reducible assumption
    | with_reducible first | apply Keeps.loseFrames | apply Keeps.rebuildFrames | apply Keeps.setReg
                           | apply Keeps.setSvc | apply Keeps.settle
    | split

theorem Keeps.losePackage (h : Keeps s₀ s) (c p : Nat) : Keeps s₀ (State.losePackage s c p) := by
  unfold State.losePackage
  repeat' first
    | with_reducible assumption
    | (intro s; refine Keeps.cut (a := s₀) s ?_ ?_ <;> [subst s; (intro h; clear_value s)])
    | (intro x; refine Keeps.inFun x ?_; subst x)
    | (intro x; clear_value x)
    | with_reducible first | apply Keeps.emit | apply Keeps.loseCellar | apply Keeps.loseFrames
                           | apply Keeps.rebuildFrames | apply Keeps.setFlag | apply Keeps.setReg
                           | apply Keeps.settle
    | split
    | lift_lets

theorem Keeps.poisonPage (h : Keeps s₀ s) (room page : Nat) (cause : Bool) :
    Keeps s₀ (State.poisonPage s room page cause) := by
  unfold State.poisonPage
  repeat' first
    | with_reducible assumption
    | with_reducible first | apply Keeps.dropPageSlices | apply Keeps.journalEntry | apply Keeps.setPage
    | fail_if_no_progress (with_reducible apply Keeps.upd)

theorem Keeps.larderGone (h : Keeps s₀ s) (x : Nat × Page) : Keeps s₀ (State.larderGone s x) := by
  unfold State.larderGone
  repeat' first
    | with_reducible assumption
    | (intro x; clear_value x)
    | with_reducible first | apply Keeps.emit | apply Keeps.losePage | apply Keeps.poisonPage | apply Keeps.setPage
    | fail_if_no_progress (with_reducible apply Keeps.upd)
    | fail_if_no_progress (with_reducible apply Keeps.draw)
    | with_reducible refine Keeps.foldl ?_ fun s x h => ?_
    | with_reducible refine Keeps.foldlFst ?_ fun s x h => ?_
    | with_reducible refine Keeps.foldlSnd ?_ fun s x h => ?_
    | split
    | lift_lets

theorem Keeps.dropDirOf (h : Keeps s₀ s) (w : Nat) : Keeps s₀ (State.dropDirOf s w) := by
  unfold State.dropDirOf
  repeat' first
    | with_reducible assumption
    | fail_if_no_progress (with_reducible apply Keeps.upd)

theorem Keeps.dropSliceOf (h : Keeps s₀ s) (w : Nat) : Keeps s₀ (State.dropSliceOf s w) := by
  unfold State.dropSliceOf
  repeat' first
    | with_reducible assumption
    | fail_if_no_progress (with_reducible apply Keeps.upd)
    | fail_if_no_progress (with_reducible apply Keeps.mem)
    | with_reducible exact fun k => k
    | with_reducible exact fun k => pagesOk_set k _ _
    | with_reducible exact fun k => pagesOk_filter k _
    | with_reducible exact fun k => pagesOk_mapPages k.1 _
    | with_reducible exact fun k => sortedKeys_put k _ _
    | with_reducible exact fun k => sortedKeys_del k _
    | with_reducible exact fun k => sortedKeys_filter k _

theorem Keeps.openWindow (h : Keeps s₀ s) (w : Nat) : Keeps s₀ (State.openWindow s w) := by
  unfold State.openWindow
  repeat' first
    | with_reducible assumption
    | with_reducible first | apply Keeps.emit
    | fail_if_no_progress (with_reducible apply Keeps.upd)
    | split

theorem Keeps.answerLost (h : Keeps s₀ s) : Keeps s₀ (State.answerLost s) := by
  unfold State.answerLost
  repeat' first
    | with_reducible assumption
    | with_reducible first | apply Keeps.settle

theorem Keeps.loseLarder (h : Keeps s₀ s) (w : Nat) : Keeps s₀ (State.loseLarder s w) := by
  unfold State.loseLarder
  repeat' first
    | with_reducible assumption
    | with_reducible first | apply Keeps.answerLost | apply Keeps.dropDirOf | apply Keeps.dropSliceOf
                           | apply Keeps.emit | apply Keeps.larderGone | apply Keeps.openWindow
                           | apply Keeps.setFlag | apply Keeps.setSvc
    | with_reducible refine Keeps.foldl ?_ fun s x h => ?_
    | with_reducible refine Keeps.foldlFst ?_ fun s x h => ?_
    | with_reducible refine Keeps.foldlSnd ?_ fun s x h => ?_
    | split

theorem Keeps.loseChannels (h : Keeps s₀ s) (w : Nat) : Keeps s₀ (State.loseChannels s w) := by
  unfold State.loseChannels
  repeat' first
    | with_reducible assumption
    | fail_if_no_progress (with_reducible apply Keeps.upd)

theorem Keeps.loseWing (h : Keeps s₀ s) (w : Nat) : Keeps s₀ (State.loseWing s w) := by
  unfold State.loseWing
  repeat' first
    | with_reducible assumption
    | with_reducible first | apply Keeps.answerLost | apply Keeps.dropDirOf | apply Keeps.dropSliceOf
                           | apply Keeps.emit | apply Keeps.larderGone | apply Keeps.loseChannels
                           | apply Keeps.loseFrames | apply Keeps.openWindow | apply Keeps.setFlag
                           | apply Keeps.setReg | apply Keeps.setSvc
    | with_reducible refine Keeps.foldl ?_ fun s x h => ?_
    | with_reducible refine Keeps.foldlFst ?_ fun s x h => ?_
    | with_reducible refine Keeps.foldlSnd ?_ fun s x h => ?_
    | split

end Sys2Proof.Machine
end

