-- ==== Sys2Proof/Laws/KeepsDrain.lean ====
section
/-! SUPPORT. What the operations of Machine/Drain.lean keep, in the sense of Laws/Keeps.lean. -/

namespace Sys2Proof.Machine

variable {s₀ s t : State}

theorem Keeps.powerRegs (h : Keeps s₀ s) (wake : Bool) : Keeps s₀ (s.powerRegs wake) :=
  ⟨h.pending, h.part, h.out, h.fresh, fun k => regsOk_filter (h.regs k) _, h.flash, h.pages, h.pantry, h.frames,
    h.cupboard⟩

theorem Keeps.charger (h : Keeps s₀ s) : Keeps s₀ (State.charger s) := by
  unfold State.charger
  repeat' first
    | with_reducible assumption
    | with_reducible first | apply Keeps.setFlag

theorem Keeps.stopMonitors (h : Keeps s₀ s) (wait : BitVec 32) : Keeps s₀ (State.stopMonitors s wait) := by
  unfold State.stopMonitors
  repeat' first
    | with_reducible assumption
    | with_reducible first | apply Keeps.setReg
    | with_reducible refine Keeps.foldl ?_ fun s x h => ?_

theorem Keeps.dropStep (h : Keeps s₀ s) (hall : Bool) (k : Nat) : Keeps s₀ (State.dropStep s hall k) := by
  unfold State.dropStep
  repeat' first
    | with_reducible assumption
    | with_reducible first | apply Keeps.stopMonitors
    | fail_if_no_progress (with_reducible apply Keeps.upd)

theorem Keeps.reverse (h : Keeps s₀ s) (phase : Nat) : Keeps s₀ (State.reverse s phase) := by
  unfold State.reverse
  repeat' first
    | with_reducible assumption
    | with_reducible first | apply Keeps.dropStep | apply Keeps.setReg
    | fail_if_no_progress (with_reducible apply Keeps.upd)

theorem Keeps.powerLost (h : Keeps s₀ s) (keepLarder : Bool) : Keeps s₀ (s.powerLost keepLarder) := by
  have k := h.cupboardOff
  unfold State.powerLost
  exact ⟨k.pending, k.part, k.out, k.fresh, k.regs, k.flash, fun x => pagesOk_mapPages (k.pages x).1 _,
    fun _ => sortedKeys_nil, k.frames, k.cupboard⟩

theorem Keeps.dropEnables (h : Keeps s₀ s) : Keeps s₀ (State.dropEnables s) := by
  unfold State.dropEnables
  repeat' first
    | with_reducible assumption
    | with_reducible first | apply Keeps.setReg
    | fail_if_no_progress (with_reducible apply Keeps.upd)
    | with_reducible refine Keeps.foldl ?_ fun s x h => ?_
    | with_reducible refine Keeps.foldlFst ?_ fun s x h => ?_
    | with_reducible refine Keeps.foldlSnd ?_ fun s x h => ?_
    | split

theorem Keeps.raiseStep (h : Keeps s₀ s) (hall : Bool) (k : Nat) : Keeps s₀ (State.raiseStep s hall k) := by
  unfold State.raiseStep
  repeat' first
    | with_reducible assumption
    | with_reducible first | apply Keeps.setFlag | apply Keeps.setReg
    | fail_if_no_progress (with_reducible apply Keeps.upd)
    | with_reducible refine Keeps.foldl ?_ fun s x h => ?_
    | with_reducible refine Keeps.foldlFst ?_ fun s x h => ?_
    | with_reducible refine Keeps.foldlSnd ?_ fun s x h => ?_
    | split

theorem Keeps.fixedMons (h : Keeps s₀ s) : Keeps s₀ (State.fixedMons s) := by
  unfold State.fixedMons
  repeat' first
    | with_reducible assumption
    | with_reducible first | apply Keeps.setReg
    | with_reducible refine Keeps.foldl ?_ fun s x h => ?_

theorem Keeps.enterPowering (h : Keeps s₀ s) : Keeps s₀ (State.enterPowering s) := by
  unfold State.enterPowering
  repeat' first
    | with_reducible assumption
    | with_reducible first | apply Keeps.charger | apply Keeps.fixedMons | apply Keeps.goto | apply Keeps.powerRegs
                           | apply Keeps.raiseStep | apply Keeps.setReg
    | fail_if_no_progress (with_reducible apply Keeps.upd)

theorem Keeps.tryPower (h : Keeps s₀ s) : Keeps s₀ (State.tryPower s) := by
  unfold State.tryPower
  repeat' first
    | with_reducible assumption
    | with_reducible first | apply Keeps.enterPowering
    | split

theorem Keeps.poweredOff (h : Keeps s₀ s) : Keeps s₀ (State.poweredOff s) := by
  unfold State.poweredOff
  repeat' first
    | with_reducible assumption
    | with_reducible first | apply Keeps.charger | apply Keeps.goto | apply Keeps.powerLost | apply Keeps.setFlag
                           | apply Keeps.setReg | apply Keeps.tryPower
    | fail_if_no_progress (with_reducible apply Keeps.upd)
    | split

theorem Keeps.wingsOff (h : Keeps s₀ s) : Keeps s₀ s.wingsOff := by
  unfold State.wingsOff
  dsimp only
  split
  · refine (Keeps.setFlag (Keeps.upd ?_) _ _ _).reverse _
    refine ((Keeps.setReg ?_ _ _ _).setFlag _ _ _).setReg _ _ _
    refine (Keeps.setReg ?_ _ _ _).setReg _ _ _
    exact h.mem (fun k => pagesOk_mapPages k.1 _) (fun _ => sortedKeys_nil) id id
  · refine Keeps.charger ?_
    refine ((Keeps.setReg ?_ _ _ _).setFlag _ _ _).setReg _ _ _
    refine (Keeps.setReg ?_ _ _ _).setReg _ _ _
    exact h.mem (fun k => pagesOk_mapPages k.1 _) (fun _ => sortedKeys_nil) id id

theorem Keeps.bootRailsOff (h : Keeps s₀ s) : Keeps s₀ (State.bootRailsOff s) := by
  unfold State.bootRailsOff
  repeat' first
    | with_reducible assumption
    | with_reducible first | apply Keeps.setFlag | apply Keeps.setReg
    | fail_if_no_progress (with_reducible apply Keeps.upd)

theorem Keeps.dropPaced (h : Keeps s₀ s) : Keeps s₀ (State.dropPaced s) := by
  unfold State.dropPaced
  repeat' first
    | with_reducible assumption
    | with_reducible first | apply Keeps.count | apply Keeps.credit | apply Keeps.dropReq
    | with_reducible refine Keeps.foldl ?_ fun s x h => ?_

theorem Keeps.dropPacedN (n : Nat) (h : Keeps s₀ s) : Keeps s₀ (State.dropPacedN n s) := by
  induction n generalizing s with
  | zero => exact h
  | succ n ih =>
    unfold State.dropPacedN
    split
    · exact ih h.dropPaced.settle
    · exact h

theorem Keeps.dropIngress (h : Keeps s₀ s) : Keeps s₀ (State.dropIngress s) := by
  unfold State.dropIngress
  repeat' first
    | with_reducible assumption
    | with_reducible first | apply Keeps.dropPacedN | apply Keeps.count
    | fail_if_no_progress (with_reducible apply Keeps.upd)

theorem Keeps.endFreeze (h : Keeps s₀ s) : Keeps s₀ (State.endFreeze s) := by
  unfold State.endFreeze
  repeat' first
    | with_reducible assumption
    | fail_if_no_progress (with_reducible apply Keeps.upd)

theorem Keeps.abandonTest (h : Keeps s₀ s) : Keeps s₀ (State.abandonTest s) := by
  unfold State.abandonTest
  repeat' first
    | with_reducible assumption
    | fail_if_no_progress (with_reducible apply Keeps.upd)
    | split

theorem Keeps.startPowerDown (h : Keeps s₀ s) : Keeps s₀ (State.startPowerDown s) := by
  unfold State.startPowerDown
  repeat' first
    | with_reducible assumption
    | with_reducible first | apply Keeps.poweredOff | apply Keeps.reverse | apply Keeps.wingsOff
    | split

theorem Keeps.skipRest (h : Keeps s₀ s) : Keeps s₀ (State.skipRest s) := by
  unfold State.skipRest
  repeat' first
    | with_reducible assumption
    | with_reducible first | apply Keeps.atticNote
    | fail_if_no_progress (with_reducible apply Keeps.upd)
    | with_reducible refine Keeps.foldl ?_ fun s x h => ?_

theorem Keeps.putMarker (h : Keeps s₀ s) (m : Marker) : Keeps s₀ (State.putMarker s m) := by
  unfold State.putMarker
  repeat' first
    | with_reducible assumption
    | fail_if_no_progress (with_reducible apply Keeps.upd)

theorem Keeps.putUnitRecord (h : Keeps s₀ s) : Keeps s₀ (State.putUnitRecord s) := by
  unfold State.putUnitRecord
  repeat' first
    | with_reducible assumption
    | fail_if_no_progress (with_reducible apply Keeps.upd)
    | split

theorem Keeps.lockFinish (h : Keeps s₀ s) : Keeps s₀ (State.lockFinish s) := by
  unfold State.lockFinish
  repeat' first
    | with_reducible assumption
    | with_reducible first | apply Keeps.atticNote | apply Keeps.setReg
    | fail_if_no_progress (with_reducible apply Keeps.upd)
    | split

theorem Keeps.finishDrain (h : Keeps s₀ s) : Keeps s₀ (State.finishDrain s) := by
  unfold State.finishDrain
  repeat' first
    | with_reducible assumption
    | with_reducible first | apply Keeps.anchorNow | apply Keeps.checkpointNow | apply Keeps.finishPages
                           | apply Keeps.flushAttic | apply Keeps.lockFinish | apply Keeps.putMarker
                           | apply Keeps.putUnitRecord | apply Keeps.setFlag | apply Keeps.setReg
                           | apply Keeps.skipRest | apply Keeps.startPowerDown
    | fail_if_no_progress (with_reducible apply Keeps.upd)
    | fail_if_no_progress (with_reducible apply Keeps.draw)
    | with_reducible refine Keeps.foldl ?_ fun s x h => ?_
    | with_reducible refine Keeps.foldlFst ?_ fun s x h => ?_
    | with_reducible refine Keeps.foldlSnd ?_ fun s x h => ?_
    | split

theorem Keeps.drainPantry (h : Keeps s₀ s) : Keeps s₀ (State.drainPantry s) := by
  unfold State.drainPantry
  repeat' first
    | with_reducible assumption
    | with_reducible first | apply Keeps.storeLine
    | with_reducible refine Keeps.foldl ?_ fun s x h => ?_

theorem Keeps.drainWrites (h : Keeps s₀ s) : Keeps s₀ (State.drainWrites s) := by
  unfold State.drainWrites
  repeat' first
    | with_reducible assumption
    | with_reducible first | apply Keeps.drainPantry | apply Keeps.queueParity | apply Keeps.setReg
                           | apply Keeps.writeBackAll
    | with_reducible refine Keeps.foldl ?_ fun s x h => ?_

theorem Keeps.drainTrackers (h : Keeps s₀ s) : Keeps s₀ (State.drainTrackers s) := by
  unfold State.drainTrackers
  split
  · exact h.drainWrites
  · exact h

theorem Keeps.drainEnd (h : Keeps s₀ s) : Keeps s₀ (State.drainEnd s) := by
  unfold State.drainEnd
  split
  · exact h.finishDrain
  · exact h

theorem Keeps.drainAdvance (h : Keeps s₀ s) : Keeps s₀ (State.drainAdvance s) := by
  unfold State.drainAdvance
  split
  · exact ((Keeps.dropPacedN _ h).drainTrackers).drainEnd
  · exact h.drainEnd

theorem Keeps.abortBist (h : Keeps s₀ s) : Keeps s₀ (State.abortBist s) := by
  unfold State.abortBist
  repeat' first
    | with_reducible assumption
    | (intro s; refine Keeps.cut (a := s₀) s ?_ ?_ <;> [subst s; (intro h; clear_value s)])
    | with_reducible first | apply Keeps.setReg
    | fail_if_no_progress (with_reducible apply Keeps.upd)
    | with_reducible refine Keeps.foldl ?_ fun s x h => ?_
    | with_reducible refine Keeps.foldlFst ?_ fun s x h => ?_
    | with_reducible refine Keeps.foldlSnd ?_ fun s x h => ?_
    | split
    | lift_lets

theorem Keeps.drainStart (h : Keeps s₀ s) (stop : Nat) (endsIn : DevState) :
    Keeps s₀ (State.drainStart s stop endsIn) := by
  unfold State.drainStart
  repeat' first
    | with_reducible assumption
    | with_reducible first | apply Keeps.abandonTest | apply Keeps.abortBist | apply Keeps.charger
                           | apply Keeps.drainAdvance | apply Keeps.dropIngress | apply Keeps.endFreeze
                           | apply Keeps.goto | apply Keeps.setReg | apply Keeps.settle
    | fail_if_no_progress (with_reducible apply Keeps.upd)
    | split

theorem Keeps.drainCut (h : Keeps s₀ s) : Keeps s₀ (State.drainCut s) := by
  unfold State.drainCut
  repeat' first
    | with_reducible assumption
    | with_reducible first | apply Keeps.dropEnables | apply Keeps.poweredOff
    | fail_if_no_progress (with_reducible apply Keeps.upd)

theorem Keeps.viralOut (h : Keeps s₀ s) : Keeps s₀ (State.viralOut s) := by
  unfold State.viralOut
  repeat' first
    | with_reducible assumption
    | with_reducible first | apply Keeps.send | apply Keeps.setFlag

theorem Keeps.halt (h : Keeps s₀ s) (cause : Nat) : Keeps s₀ (State.halt s cause) := by
  unfold State.halt
  repeat' first
    | with_reducible assumption
    | with_reducible first | apply Keeps.drainStart | apply Keeps.goto | apply Keeps.lockFinish | apply Keeps.setReg
                           | apply Keeps.viralOut
    | fail_if_no_progress (with_reducible apply Keeps.upd)
    | split

theorem Keeps.lockdown (h : Keeps s₀ s) (room index line kind wing : Nat) :
    Keeps s₀ (State.lockdown s room index line kind wing) := by
  unfold State.lockdown
  repeat' first
    | with_reducible assumption
    | with_reducible first | apply Keeps.advanceCounter | apply Keeps.halt | apply Keeps.post | apply Keeps.setFlag
    | fail_if_no_progress (with_reducible apply Keeps.upd)
    | split

end Sys2Proof.Machine
end

