-- ==== Sys2Proof/Laws/KeepsPower.lean ====
section
/-! SUPPORT. What the operations of Machine/Power.lean keep, in the sense of Laws/Keeps.lean. -/

namespace Sys2Proof.Machine

variable {s₀ s t : State}

theorem KeepsR.execVstbyRise (h : Keeps s₀ s) : KeepsR s₀ (Sys2Proof.Machine.execVstbyRise s) := by
  unfold Sys2Proof.Machine.execVstbyRise
  repeat' first
    | with_reducible assumption
    | with_reducible apply KeepsR.next
    | with_reducible exact KeepsR.fault
    | with_reducible first | apply Keeps.goto
    | fail_if_no_progress (with_reducible apply Keeps.upd)
    | with_reducible apply Keeps.clear
    | split

theorem KeepsR.execVstbyLoss (h : Keeps s₀ s) : KeepsR s₀ (Sys2Proof.Machine.execVstbyLoss s) := by
  unfold Sys2Proof.Machine.execVstbyLoss
  repeat' first
    | with_reducible assumption
    | with_reducible apply KeepsR.next
    | with_reducible exact KeepsR.fault
    | with_reducible first | apply Keeps.powerLost
    | fail_if_no_progress (with_reducible apply Keeps.upd)
    | with_reducible apply Keeps.clear
    | split

theorem KeepsR.execStrapSample (h : Keeps s₀ s) (straps : BitVec 8) :
    KeepsR s₀ (Sys2Proof.Machine.execStrapSample straps s) := by
  unfold Sys2Proof.Machine.execStrapSample
  repeat' first
    | with_reducible assumption
    | with_reducible apply KeepsR.next
    | with_reducible exact KeepsR.fault
    | with_reducible first | apply Keeps.charger
    | fail_if_no_progress (with_reducible apply Keeps.upd)
    | split

theorem Keeps.standby (h : Keeps s₀ s) : Keeps s₀ (State.standby s) := by
  unfold State.standby
  repeat' first
    | with_reducible assumption
    | with_reducible first | apply Keeps.goto | apply Keeps.setFlag | apply Keeps.tryPower
    | split

theorem KeepsR.execMinimumOffTimeExpiry (h : Keeps s₀ s) :
    KeepsR s₀ (Sys2Proof.Machine.execMinimumOffTimeExpiry s) := by
  unfold Sys2Proof.Machine.execMinimumOffTimeExpiry
  repeat' first
    | with_reducible assumption
    | with_reducible apply KeepsR.next
    | with_reducible exact KeepsR.fault
    | with_reducible first | apply Keeps.standby
    | fail_if_no_progress (with_reducible apply Keeps.upd)
    | split

theorem Keeps.enterOff (h : Keeps s₀ s) : Keeps s₀ (State.enterOff s) := by
  unfold State.enterOff
  repeat' first
    | with_reducible assumption
    | (intro s; refine Keeps.cut (a := s₀) s ?_ ?_ <;> [subst s; (intro h; clear_value s)])
    | with_reducible first | apply Keeps.charger | apply Keeps.goto | apply Keeps.setFlag | apply Keeps.standby
    | split
    | lift_lets

theorem Keeps.reverseToOff (h : Keeps s₀ s) : Keeps s₀ (State.reverseToOff s) := by
  unfold State.reverseToOff
  repeat' first
    | with_reducible assumption
    | (intro s; refine Keeps.cut (a := s₀) s ?_ ?_ <;> [subst s; (intro h; clear_value s)])
    | (intro x; clear_value x)
    | with_reducible first | apply Keeps.poweredOff | apply Keeps.reverse | apply Keeps.setFlag
    | fail_if_no_progress (with_reducible apply Keeps.upd)
    | split
    | lift_lets

theorem Keeps.offInPowerUp (h : Keeps s₀ s) : Keeps s₀ (State.offInPowerUp s) := by
  unfold State.offInPowerUp
  repeat' first
    | with_reducible assumption
    | with_reducible first | apply Keeps.reverseToOff | apply Keeps.setFlag
    | split

theorem Keeps.breakSelfRefresh (h : Keeps s₀ s) : Keeps s₀ (State.breakSelfRefresh s) := by
  unfold State.breakSelfRefresh
  repeat' first
    | with_reducible assumption
    | with_reducible first | apply Keeps.powerLost | apply Keeps.setFlag
    | fail_if_no_progress (with_reducible apply Keeps.upd)

theorem Keeps.offRequest (h : Keeps s₀ s) : Keeps s₀ (State.offRequest s) := by
  unfold State.offRequest
  repeat' first
    | with_reducible assumption
    | (intro s; refine Keeps.cut (a := s₀) s ?_ ?_ <;> [subst s; (intro h; clear_value s)])
    | (intro x; clear_value x)
    | with_reducible first | apply Keeps.breakSelfRefresh | apply Keeps.drainStart | apply Keeps.enterOff
                           | apply Keeps.offInPowerUp | apply Keeps.reverseToOff | apply Keeps.setFlag
                           | apply Keeps.standby
    | fail_if_no_progress (with_reducible apply Keeps.upd)
    | fail_if_no_progress (with_reducible apply Keeps.draw)
    | split
    | lift_lets

theorem Keeps.onRequest (h : Keeps s₀ s) : Keeps s₀ (State.onRequest s) := by
  unfold State.onRequest
  repeat' first
    | with_reducible assumption
    | with_reducible first | apply Keeps.setFlag | apply Keeps.setReg | apply Keeps.standby | apply Keeps.tryPower
    | fail_if_no_progress (with_reducible apply Keeps.upd)
    | split

theorem KeepsR.execOnRequest (h : Keeps s₀ s) : KeepsR s₀ (Sys2Proof.Machine.execOnRequest s) := by
  unfold Sys2Proof.Machine.execOnRequest
  repeat' first
    | with_reducible assumption
    | with_reducible apply KeepsR.next
    | with_reducible exact KeepsR.fault
    | with_reducible first | apply Keeps.onRequest
    | fail_if_no_progress (with_reducible apply Keeps.upd)

theorem KeepsR.execOffRequest (h : Keeps s₀ s) : KeepsR s₀ (Sys2Proof.Machine.execOffRequest s) := by
  unfold Sys2Proof.Machine.execOffRequest
  repeat' first
    | with_reducible assumption
    | with_reducible apply KeepsR.next
    | with_reducible exact KeepsR.fault
    | with_reducible first | apply Keeps.offRequest
    | fail_if_no_progress (with_reducible apply Keeps.upd)

theorem KeepsR.execOffReqWrite (h : Keeps s₀ s) : KeepsR s₀ (Sys2Proof.Machine.execOffReqWrite s) := by
  unfold Sys2Proof.Machine.execOffReqWrite
  repeat' first
    | with_reducible assumption
    | with_reducible apply KeepsR.next
    | with_reducible exact KeepsR.fault
    | with_reducible first | apply Keeps.offRequest

theorem Keeps.convert (h : Keeps s₀ s) (m reading : Nat) : Keeps s₀ (State.convert s m reading) := by
  unfold State.convert
  repeat' first
    | with_reducible assumption
    | with_reducible first | apply Keeps.setFlag | apply Keeps.setReg
    | fail_if_no_progress (with_reducible apply Keeps.upd)

theorem KeepsR.execMonitorConversion (h : Keeps s₀ s) (mon : Mon) (reading : BitVec 12) :
    KeepsR s₀ (Sys2Proof.Machine.execMonitorConversion mon reading s) := by
  unfold Sys2Proof.Machine.execMonitorConversion
  repeat' first
    | with_reducible assumption
    | with_reducible apply KeepsR.next
    | with_reducible exact KeepsR.fault
    | with_reducible first | apply Keeps.convert
    | split

theorem Keeps.snapRails (h : Keeps s₀ s) : Keeps s₀ (State.snapRails s) := by
  unfold State.snapRails
  repeat' first
    | with_reducible assumption
    | with_reducible first | apply Keeps.setFlag | apply Keeps.setReg
    | with_reducible refine Keeps.foldl ?_ fun s x h => ?_

theorem Keeps.railFault (h : Keeps s₀ s) (m kind : Nat) : Keeps s₀ (State.railFault s m kind) := by
  unfold State.railFault
  repeat' first
    | with_reducible assumption
    | (intro s; refine Keeps.cut (a := s₀) s ?_ ?_ <;> [subst s; (intro h; clear_value s)])
    | (intro x; clear_value x)
    | with_reducible first | apply Keeps.charger | apply Keeps.dropEnables | apply Keeps.enterOff | apply Keeps.goto
                           | apply Keeps.powerLost | apply Keeps.setFlag | apply Keeps.setReg
                           | apply Keeps.snapRails
    | fail_if_no_progress (with_reducible apply Keeps.upd)
    | split
    | lift_lets

theorem KeepsR.execRailFault (h : Keeps s₀ s) (mon : Mon) : KeepsR s₀ (Sys2Proof.Machine.execRailFault mon s) := by
  unfold Sys2Proof.Machine.execRailFault
  repeat' first
    | with_reducible assumption
    | (intro x; clear_value x)
    | (intro x; subst x)
    | with_reducible apply KeepsR.next
    | with_reducible exact KeepsR.fault
    | with_reducible first | apply Keeps.drainCut | apply Keeps.railFault
    | split
    | lift_lets

theorem KeepsR.execLrefLoss (h : Keeps s₀ s) : KeepsR s₀ (Sys2Proof.Machine.execLrefLoss s) := by
  unfold Sys2Proof.Machine.execLrefLoss
  repeat' first
    | with_reducible assumption
    | with_reducible apply KeepsR.next
    | with_reducible exact KeepsR.fault
    | with_reducible first | apply Keeps.railFault | apply Keeps.standby
    | fail_if_no_progress (with_reducible apply Keeps.upd)
    | split

theorem Keeps.sequenceFault (h : Keeps s₀ s) (m : Nat) : Keeps s₀ (State.sequenceFault s m) := by
  unfold State.sequenceFault
  repeat' first
    | with_reducible assumption
    | with_reducible first | apply Keeps.goto | apply Keeps.reverse | apply Keeps.setReg
    | fail_if_no_progress (with_reducible apply Keeps.upd)

theorem KeepsR.execStepTimeout (h : Keeps s₀ s) : KeepsR s₀ (Sys2Proof.Machine.execStepTimeout s) := by
  unfold Sys2Proof.Machine.execStepTimeout
  repeat' first
    | with_reducible assumption
    | with_reducible apply KeepsR.next
    | with_reducible exact KeepsR.fault
    | with_reducible first | apply Keeps.reverseToOff | apply Keeps.satReg | apply Keeps.sequenceFault
    | fail_if_no_progress (with_reducible apply Keeps.upd)
    | split

theorem Keeps.stepDown (h : Keeps s₀ s) : Keeps s₀ (State.stepDown s) := by
  unfold State.stepDown
  repeat' first
    | with_reducible assumption
    | (intro x; clear_value x)
    | with_reducible first | apply Keeps.bootRailsOff | apply Keeps.dropStep | apply Keeps.poweredOff
                           | apply Keeps.setFlag | apply Keeps.setReg | apply Keeps.wingsOff
    | split
    | lift_lets

theorem KeepsR.execPowerDownStepDelay (h : Keeps s₀ s) : KeepsR s₀ (Sys2Proof.Machine.execPowerDownStepDelay s) := by
  unfold Sys2Proof.Machine.execPowerDownStepDelay
  repeat' first
    | with_reducible assumption
    | with_reducible apply KeepsR.next
    | with_reducible exact KeepsR.fault
    | with_reducible first | apply Keeps.stepDown
    | split

theorem KeepsR.execSeqFaultRetry (h : Keeps s₀ s) : KeepsR s₀ (Sys2Proof.Machine.execSeqFaultRetry s) := by
  unfold Sys2Proof.Machine.execSeqFaultRetry
  repeat' first
    | with_reducible assumption
    | (intro x; clear_value x)
    | with_reducible apply KeepsR.next
    | with_reducible exact KeepsR.fault
    | with_reducible first | apply Keeps.enterPowering | apply Keeps.setReg
    | split
    | lift_lets

theorem Keeps.switchGroup (h : Keeps s₀ s) (g : Nat) (on : Bool) : Keeps s₀ (State.switchGroup s g on) := by
  unfold State.switchGroup
  repeat' first
    | with_reducible assumption
    | with_reducible first | apply Keeps.setFlag
    | fail_if_no_progress (with_reducible apply Keeps.upd)

theorem KeepsR.execGroupSwitchDone (h : Keeps s₀ s) (group : Fin 46) :
    KeepsR s₀ (Sys2Proof.Machine.execGroupSwitchDone group s) := by
  unfold Sys2Proof.Machine.execGroupSwitchDone
  repeat' first
    | with_reducible assumption
    | with_reducible apply KeepsR.next
    | with_reducible exact KeepsR.fault
    | with_reducible first | apply Keeps.setFlag | apply Keeps.setReg
    | fail_if_no_progress (with_reducible apply Keeps.upd)
    | with_reducible refine Keeps.foldl ?_ fun s x h => ?_
    | with_reducible refine Keeps.foldlFst ?_ fun s x h => ?_
    | with_reducible refine Keeps.foldlSnd ?_ fun s x h => ?_
    | split

end Sys2Proof.Machine
end

