-- ==== Sys2Proof/Laws/KeepsReservoir.lean ====
section
/-! SUPPORT. What the operations of Machine/Reservoir.lean keep, in the sense of Laws/Keeps.lean. -/

namespace Sys2Proof.Machine

variable {s₀ s t : State}

theorem Keeps.writeThroughEntry (h : Keeps s₀ s) : Keeps s₀ (State.writeThroughEntry s) := by
  unfold State.writeThroughEntry
  repeat' first
    | with_reducible assumption
    | (intro s; refine Keeps.cut (a := s₀) s ?_ ?_ <;> [subst s; (intro h; clear_value s)])
    | with_reducible first | apply Keeps.level | apply Keeps.setFlag | apply Keeps.writeBackAll
    | split
    | lift_lets

theorem Keeps.writeThroughExit (h : Keeps s₀ s) : Keeps s₀ (State.writeThroughExit s) := by
  unfold State.writeThroughExit
  repeat' first
    | with_reducible assumption
    | with_reducible first | apply Keeps.level | apply Keeps.setFlag
    | split

theorem Keeps.budgetStep (h : Keeps s₀ s) (before : Nat) : Keeps s₀ (State.budgetStep s before) := by
  unfold State.budgetStep
  repeat' first
    | with_reducible assumption
    | with_reducible first | apply Keeps.emit | apply Keeps.settle | apply Keeps.writeThroughEntry
                           | apply Keeps.writeThroughExit
    | split

theorem Keeps.computeBudget (h : Keeps s₀ s) : Keeps s₀ (State.computeBudget s) := by
  unfold State.computeBudget
  repeat' first
    | with_reducible assumption
    | with_reducible first | apply Keeps.budgetStep | apply Keeps.setFlag | apply Keeps.setReg
    | split

theorem Keeps.setReservoir (h : Keeps s₀ s) (r : ResState) : Keeps s₀ (State.setReservoir s r) := by
  unfold State.setReservoir
  repeat' first
    | with_reducible assumption
    | with_reducible first | apply Keeps.charger | apply Keeps.computeBudget | apply Keeps.level
    | fail_if_no_progress (with_reducible apply Keeps.upd)

theorem Keeps.recharge (h : Keeps s₀ s) : Keeps s₀ (State.recharge s) := by
  unfold State.recharge
  repeat' first
    | with_reducible assumption
    | with_reducible first | apply Keeps.setReg | apply Keeps.setReservoir
    | fail_if_no_progress (with_reducible apply Keeps.upd)

theorem Keeps.reservoirFails (h : Keeps s₀ s) (cause : Nat) (ntcOnly : Bool) :
    Keeps s₀ (State.reservoirFails s cause ntcOnly) := by
  unfold State.reservoirFails
  repeat' first
    | with_reducible assumption
    | with_reducible first | apply Keeps.setReg | apply Keeps.setReservoir
    | fail_if_no_progress (with_reducible apply Keeps.upd)

theorem KeepsR.execResSenseSample (h : Keeps s₀ s) (millivolts : Nat) :
    KeepsR s₀ (Sys2Proof.Machine.execResSenseSample millivolts s) := by
  unfold Sys2Proof.Machine.execResSenseSample
  repeat' first
    | with_reducible assumption
    | with_reducible apply KeepsR.next
    | with_reducible exact KeepsR.fault
    | with_reducible first | apply Keeps.setReg
    | split

theorem KeepsR.execReservoirReady (h : Keeps s₀ s) : KeepsR s₀ (Sys2Proof.Machine.execReservoirReady s) := by
  unfold Sys2Proof.Machine.execReservoirReady
  repeat' first
    | with_reducible assumption
    | with_reducible apply KeepsR.next
    | with_reducible exact KeepsR.fault
    | with_reducible first | apply Keeps.setReservoir
    | fail_if_no_progress (with_reducible apply Keeps.upd)
    | split

theorem KeepsR.execChgLimitExpiry (h : Keeps s₀ s) : KeepsR s₀ (Sys2Proof.Machine.execChgLimitExpiry s) := by
  unfold Sys2Proof.Machine.execChgLimitExpiry
  repeat' first
    | with_reducible assumption
    | with_reducible apply KeepsR.next
    | with_reducible exact KeepsR.fault
    | with_reducible first | apply Keeps.reservoirFails
    | split

theorem KeepsR.execReservoirAbsent (h : Keeps s₀ s) : KeepsR s₀ (Sys2Proof.Machine.execReservoirAbsent s) := by
  unfold Sys2Proof.Machine.execReservoirAbsent
  repeat' first
    | with_reducible assumption
    | with_reducible apply KeepsR.next
    | with_reducible exact KeepsR.fault
    | with_reducible first | apply Keeps.setReservoir
    | split

theorem KeepsR.execResNtcSample (h : Keeps s₀ s) (ohms : Nat) :
    KeepsR s₀ (Sys2Proof.Machine.execResNtcSample ohms s) := by
  unfold Sys2Proof.Machine.execResNtcSample
  repeat' first
    | with_reducible assumption
    | (intro s; refine Keeps.cut (a := s₀) s ?_ ?_ <;> [subst s; (intro h; clear_value s)])
    | (intro x; clear_value x)
    | with_reducible apply KeepsR.next
    | with_reducible exact KeepsR.fault
    | with_reducible first | apply Keeps.abandonTest | apply Keeps.charger | apply Keeps.recharge
                           | apply Keeps.reservoirFails | apply Keeps.setReg | apply Keeps.setReservoir
    | fail_if_no_progress (with_reducible apply Keeps.upd)
    | split
    | lift_lets

theorem Keeps.startTest (h : Keeps s₀ s) : Keeps s₀ (State.startTest s) := by
  unfold State.startTest
  repeat' first
    | with_reducible assumption
    | with_reducible first | apply Keeps.setReservoir
    | fail_if_no_progress (with_reducible apply Keeps.upd)

theorem KeepsR.execChargeTestStart (h : Keeps s₀ s) : KeepsR s₀ (Sys2Proof.Machine.execChargeTestStart s) := by
  unfold Sys2Proof.Machine.execChargeTestStart
  repeat' first
    | with_reducible assumption
    | with_reducible apply KeepsR.next
    | with_reducible exact KeepsR.fault
    | with_reducible first | apply Keeps.startTest
    | split

theorem KeepsR.execChargeTestFallEnd (h : Keeps s₀ s) (drop10mV ms : Nat) :
    KeepsR s₀ (Sys2Proof.Machine.execChargeTestFallEnd drop10mV ms s) := by
  unfold Sys2Proof.Machine.execChargeTestFallEnd
  repeat' first
    | with_reducible assumption
    | with_reducible apply KeepsR.next
    | with_reducible exact KeepsR.fault
    | with_reducible first | apply Keeps.charger | apply Keeps.setFlag | apply Keeps.setReservoir
    | fail_if_no_progress (with_reducible apply Keeps.upd)
    | split

theorem KeepsR.execChargeTestRiseEnd (h : Keeps s₀ s) (ms : Nat) :
    KeepsR s₀ (Sys2Proof.Machine.execChargeTestRiseEnd ms s) := by
  unfold Sys2Proof.Machine.execChargeTestRiseEnd
  repeat' first
    | with_reducible assumption
    | with_reducible apply KeepsR.next
    | with_reducible exact KeepsR.fault
    | with_reducible first | apply Keeps.count | apply Keeps.emit | apply Keeps.queueRecord | apply Keeps.satReg
                           | apply Keeps.setFlag | apply Keeps.setReg | apply Keeps.setReservoir
    | fail_if_no_progress (with_reducible apply Keeps.upd)
    | split

theorem KeepsR.execChargeTestRiseTimeout (h : Keeps s₀ s) :
    KeepsR s₀ (Sys2Proof.Machine.execChargeTestRiseTimeout s) := by
  unfold Sys2Proof.Machine.execChargeTestRiseTimeout
  repeat' first
    | with_reducible assumption
    | with_reducible apply KeepsR.next
    | with_reducible exact KeepsR.fault
    | with_reducible first | apply Keeps.reservoirFails
    | split

theorem KeepsR.execTestNow (h : Keeps s₀ s) : KeepsR s₀ (Sys2Proof.Machine.execTestNow s) := by
  unfold Sys2Proof.Machine.execTestNow
  repeat' first
    | with_reducible assumption
    | with_reducible apply KeepsR.next
    | with_reducible exact KeepsR.fault
    | with_reducible first | apply Keeps.recharge | apply Keeps.startTest
    | fail_if_no_progress (with_reducible apply Keeps.upd)
    | split

end Sys2Proof.Machine
end

