-- ==== Sys2Proof/Laws/KeepsPorch.lean ====
section
/-! SUPPORT. What the operations of Machine/Porch.lean keep, in the sense of Laws/Keeps.lean. -/

namespace Sys2Proof.Machine

variable {s₀ s t : State}

theorem KeepsR.execVinSample (h : Keeps s₀ s) (reading : BitVec 12) :
    KeepsR s₀ (Sys2Proof.Machine.execVinSample reading s) := by
  unfold Sys2Proof.Machine.execVinSample
  repeat' first
    | with_reducible assumption
    | (intro s; refine Keeps.cut (a := s₀) s ?_ ?_ <;> [subst s; (intro h; clear_value s)])
    | (intro x; clear_value x)
    | with_reducible apply KeepsR.next
    | with_reducible exact KeepsR.fault
    | with_reducible first | apply Keeps.count | apply Keeps.emit | apply Keeps.satReg | apply Keeps.setFlag
                           | apply Keeps.setReg
    | fail_if_no_progress (with_reducible apply Keeps.upd)
    | split
    | lift_lets

theorem KeepsR.execInputFailure (h : Keeps s₀ s) : KeepsR s₀ (Sys2Proof.Machine.execInputFailure s) := by
  unfold Sys2Proof.Machine.execInputFailure
  repeat' first
    | with_reducible assumption
    | (intro s; refine Keeps.cut (a := s₀) s ?_ ?_ <;> [subst s; (intro h; clear_value s)])
    | (intro x; clear_value x)
    | with_reducible apply KeepsR.next
    | with_reducible exact KeepsR.fault
    | with_reducible first | apply Keeps.breakSelfRefresh | apply Keeps.drainStart | apply Keeps.emit
                           | apply Keeps.offInPowerUp | apply Keeps.reverseToOff | apply Keeps.satReg
                           | apply Keeps.standby
    | fail_if_no_progress (with_reducible apply Keeps.upd)
    | fail_if_no_progress (with_reducible apply Keeps.draw)
    | split
    | lift_lets

theorem KeepsR.execReservoirExhausted (h : Keeps s₀ s) : KeepsR s₀ (Sys2Proof.Machine.execReservoirExhausted s) := by
  unfold Sys2Proof.Machine.execReservoirExhausted
  repeat' first
    | with_reducible assumption
    | (intro x; clear_value x)
    | with_reducible apply KeepsR.next
    | with_reducible exact KeepsR.fault
    | with_reducible first | apply Keeps.drainCut
    | split
    | lift_lets

theorem KeepsR.execVinGood (h : Keeps s₀ s) : KeepsR s₀ (Sys2Proof.Machine.execVinGood s) := by
  unfold Sys2Proof.Machine.execVinGood
  repeat' first
    | with_reducible assumption
    | with_reducible apply KeepsR.next
    | with_reducible exact KeepsR.fault
    | with_reducible first | apply Keeps.setFlag | apply Keeps.tryPower
    | split

theorem Keeps.wake (h : Keeps s₀ s) : Keeps s₀ (State.wake s) := by
  unfold State.wake
  repeat' first
    | with_reducible assumption
    | with_reducible first | apply Keeps.tryPower
    | fail_if_no_progress (with_reducible apply Keeps.upd)
    | split

theorem KeepsR.execWakeN (h : Keeps s₀ s) : KeepsR s₀ (Sys2Proof.Machine.execWakeN s) := by
  unfold Sys2Proof.Machine.execWakeN
  repeat' first
    | with_reducible assumption
    | with_reducible apply KeepsR.next
    | with_reducible exact KeepsR.fault
    | with_reducible first | apply Keeps.setFlag | apply Keeps.wake
    | split

theorem KeepsR.execWakeWrite (h : Keeps s₀ s) : KeepsR s₀ (Sys2Proof.Machine.execWakeWrite s) := by
  unfold Sys2Proof.Machine.execWakeWrite
  repeat' first
    | with_reducible assumption
    | with_reducible apply KeepsR.next
    | with_reducible exact KeepsR.fault
    | with_reducible first | apply Keeps.wake

theorem KeepsR.execWakeBeat (h : Keeps s₀ s) : KeepsR s₀ (Sys2Proof.Machine.execWakeBeat s) := by
  unfold Sys2Proof.Machine.execWakeBeat
  repeat' first
    | with_reducible assumption
    | with_reducible apply KeepsR.next
    | with_reducible exact KeepsR.fault
    | with_reducible first | apply Keeps.wake
    | split

theorem KeepsR.execSlumberReq (h : Keeps s₀ s) : KeepsR s₀ (Sys2Proof.Machine.execSlumberReq s) := by
  unfold Sys2Proof.Machine.execSlumberReq
  repeat' first
    | with_reducible assumption
    | with_reducible apply KeepsR.next
    | with_reducible exact KeepsR.fault
    | with_reducible first | apply Keeps.drainStart | apply Keeps.emit | apply Keeps.setFlag
    | fail_if_no_progress (with_reducible apply Keeps.upd)
    | split

end Sys2Proof.Machine
end

