-- ==== Sys2Proof/Laws/KeepsThermal.lean ====
section
/-! SUPPORT. What the operations of Machine/Thermal.lean keep, in the sense of Laws/Keeps.lean. -/

namespace Sys2Proof.Machine

variable {s₀ s t : State}

theorem Keeps.setStage (h : Keeps s₀ s) (k : Nat) : Keeps s₀ (State.setStage s k) := by
  unfold State.setStage
  repeat' first
    | with_reducible assumption
    | with_reducible first | apply Keeps.count | apply Keeps.setReg | apply Keeps.settle
    | fail_if_no_progress (with_reducible apply Keeps.upd)
    | split

theorem Keeps.thermalShutdown (h : Keeps s₀ s) : Keeps s₀ (State.thermalShutdown s) := by
  unfold State.thermalShutdown
  repeat' first
    | with_reducible assumption
    | with_reducible first | apply Keeps.breakSelfRefresh | apply Keeps.drainStart | apply Keeps.offInPowerUp
                           | apply Keeps.setFlag | apply Keeps.setStage | apply Keeps.standby
    | fail_if_no_progress (with_reducible apply Keeps.upd)
    | fail_if_no_progress (with_reducible apply Keeps.draw)
    | split

theorem Keeps.thermalLevels (h : Keeps s₀ s) : Keeps s₀ (State.thermalLevels s) := by
  unfold State.thermalLevels
  repeat' first
    | with_reducible assumption
    | with_reducible first | apply Keeps.level | apply Keeps.setFlag | apply Keeps.setStage
                           | apply Keeps.thermalShutdown | apply Keeps.tryPower
    | split

theorem KeepsR.execSensorConversion (h : Keeps s₀ s) (ts : Sensor) (count : BitVec 16) :
    KeepsR s₀ (Sys2Proof.Machine.execSensorConversion ts count s) := by
  unfold Sys2Proof.Machine.execSensorConversion
  repeat' first
    | with_reducible assumption
    | (intro s; refine Keeps.cut (a := s₀) s ?_ ?_ <;> [subst s; (intro h; clear_value s)])
    | (intro x; clear_value x)
    | with_reducible apply KeepsR.next
    | with_reducible exact KeepsR.fault
    | with_reducible first | apply Keeps.count | apply Keeps.level | apply Keeps.setFlag | apply Keeps.setReg
                           | apply Keeps.thermalLevels
    | fail_if_no_progress (with_reducible apply Keeps.upd)
    | split
    | lift_lets

theorem KeepsR.execStageStep (h : Keeps s₀ s) : KeepsR s₀ (Sys2Proof.Machine.execStageStep s) := by
  unfold Sys2Proof.Machine.execStageStep
  repeat' first
    | with_reducible assumption
    | with_reducible apply KeepsR.next
    | with_reducible exact KeepsR.fault
    | with_reducible first | apply Keeps.setStage
    | split

end Sys2Proof.Machine
end

