-- ==== Sys2Proof/Laws/KeepsRackTime.lean ====
section
/-! SUPPORT. What the operations of Machine/RackTime.lean keep, in the sense of Laws/Keeps.lean. -/

namespace Sys2Proof.Machine

variable {s₀ s t : State}

theorem Keeps.setTime (h : Keeps s₀ s) (t : Nat) : Keeps s₀ (State.setTime s t) := by
  unfold State.setTime
  repeat' first
    | with_reducible assumption
    | with_reducible first | apply Keeps.level | apply Keeps.setReg

theorem Keeps.addCorrection (h : Keeps s₀ s) (c : Correction) : Keeps s₀ (State.addCorrection s c) := by
  unfold State.addCorrection
  repeat' first
    | with_reducible assumption
    | with_reducible first | apply Keeps.queueRecord
    | fail_if_no_progress (with_reducible apply Keeps.upd)

theorem Keeps.correct (h : Keeps s₀ s) (shift : Int) (spread : Nat) : Keeps s₀ (State.correct s shift spread) := by
  unfold State.correct
  repeat' first
    | with_reducible assumption
    | with_reducible first | apply Keeps.addCorrection

theorem Keeps.thaw (h : Keeps s₀ s) : Keeps s₀ (State.thaw s) := by
  unfold State.thaw
  repeat' first
    | with_reducible assumption
    | with_reducible first | apply Keeps.correct | apply Keeps.setTime
    | split

theorem Keeps.atBeat (h : Keeps s₀ s) : Keeps s₀ (State.atBeat s) := by
  unfold State.atBeat
  repeat' first
    | with_reducible assumption
    | with_reducible first | apply Keeps.computeBudget | apply Keeps.setReg
    | fail_if_no_progress (with_reducible apply Keeps.upd)
    | split

theorem Keeps.countBeat (h : Keeps s₀ s) : Keeps s₀ (State.countBeat s) := by
  unfold State.countBeat
  repeat' first
    | with_reducible assumption
    | with_reducible first | apply Keeps.atBeat | apply Keeps.setReg | apply Keeps.thaw
    | fail_if_no_progress (with_reducible apply Keeps.upd)
    | split

theorem Keeps.fracNow (h : Keeps s₀ s) : Keeps s₀ (State.fracNow s).2 := by
  unfold State.fracNow
  repeat' first
    | with_reducible assumption
    | with_reducible first | apply Keeps.free | apply Keeps.setReg
    | split

theorem Keeps.learn (h : Keeps s₀ s) (interval : Nat) : Keeps s₀ (State.learn s interval) := by
  unfold State.learn
  repeat' first
    | with_reducible assumption
    | with_reducible first | apply Keeps.setReg
    | fail_if_no_progress (with_reducible apply Keeps.upd)

theorem KeepsR.execRbeatEdge (h : Keeps s₀ s) (interval10ns : Nat) :
    KeepsR s₀ (Sys2Proof.Machine.execRbeatEdge interval10ns s) := by
  unfold Sys2Proof.Machine.execRbeatEdge
  repeat' first
    | with_reducible assumption
    | (intro s; refine Keeps.cut (a := s₀) s ?_ ?_ <;> [subst s; (intro h; clear_value s)])
    | (intro x; clear_value x)
    | with_reducible apply KeepsR.next
    | with_reducible exact KeepsR.fault
    | with_reducible first | apply Keeps.countBeat | apply Keeps.learn | apply Keeps.satReg | apply Keeps.setReg
                           | apply Keeps.setTime
    | fail_if_no_progress (with_reducible apply Keeps.upd)
    | split
    | lift_lets

theorem KeepsR.execMissingBeat (h : Keeps s₀ s) : KeepsR s₀ (Sys2Proof.Machine.execMissingBeat s) := by
  unfold Sys2Proof.Machine.execMissingBeat
  repeat' first
    | with_reducible assumption
    | with_reducible apply KeepsR.next
    | with_reducible exact KeepsR.fault
    | with_reducible first | apply Keeps.countBeat | apply Keeps.satReg | apply Keeps.setTime
    | fail_if_no_progress (with_reducible apply Keeps.upd)
    | split

theorem Keeps.takeStep (h : Keeps s₀ s) (d : Int) : Keeps s₀ (State.takeStep s d) := by
  unfold State.takeStep
  repeat' first
    | with_reducible assumption
    | with_reducible first | apply Keeps.correct | apply Keeps.emit | apply Keeps.satReg | apply Keeps.setReg
                           | apply Keeps.setTime
    | fail_if_no_progress (with_reducible apply Keeps.upd)
    | split

theorem Keeps.epochFrozen (h : Keeps s₀ s) (d : Int) : Keeps s₀ (State.epochFrozen s d) := by
  unfold State.epochFrozen
  repeat' first
    | with_reducible assumption
    | (intro s; refine Keeps.cut (a := s₀) s ?_ ?_ <;> [subst s; (intro h; clear_value s)])
    | (intro x; clear_value x)
    | with_reducible first | apply Keeps.emit | apply Keeps.satReg | apply Keeps.setReg | apply Keeps.thaw
    | fail_if_no_progress (with_reducible apply Keeps.upd)
    | split
    | lift_lets

theorem Keeps.epoch (h : Keeps s₀ s) (e p : Nat) : Keeps s₀ (State.epoch s e p) := by
  unfold State.epoch
  repeat' first
    | with_reducible assumption
    | (intro s; refine Keeps.cut (a := s₀) s ?_ ?_ <;> [subst s; (intro h; clear_value s)])
    | (intro x; clear_value x)
    | with_reducible first | apply Keeps.epochFrozen | apply Keeps.fracNow | apply Keeps.own | apply Keeps.setReg
                           | apply Keeps.setTime | apply Keeps.takeStep
    | fail_if_no_progress (with_reducible apply Keeps.upd)
    | split
    | lift_lets
    | refine Keeps.fstOf ?_ (by with_reducible assumption)
    | refine Keeps.sndOf ?_ (by with_reducible assumption)

end Sys2Proof.Machine
end

