-- ==== Sys2Proof/Laws/KeepsCalendar.lean ====
section
/-! SUPPORT. What the operations of Machine/Calendar.lean keep, in the sense of Laws/Keeps.lean. -/

namespace Sys2Proof.Machine

variable {s₀ s t : State}

theorem KeepsR.execCheckpoint (h : Keeps s₀ s) : KeepsR s₀ (Sys2Proof.Machine.execCheckpoint s) := by
  unfold Sys2Proof.Machine.execCheckpoint
  repeat' first
    | with_reducible assumption
    | with_reducible apply KeepsR.next
    | with_reducible exact KeepsR.fault
    | with_reducible first | apply Keeps.checkpointNow
    | split

theorem KeepsR.execDescriptorRewrite (h : Keeps s₀ s) (c : Cellar) (p : Pkg) (line : Nat) (copy : Fin 2) :
    KeepsR s₀ (Sys2Proof.Machine.execDescriptorRewrite c p line copy s) := by
  unfold Sys2Proof.Machine.execDescriptorRewrite
  repeat' first
    | with_reducible assumption
    | with_reducible apply KeepsR.next
    | with_reducible exact KeepsR.fault
    | with_reducible first | apply Keeps.queueOp
    | fail_if_no_progress (with_reducible apply Keeps.upd)
    | split

theorem KeepsR.execCupboardAnchor (h : Keeps s₀ s) : KeepsR s₀ (Sys2Proof.Machine.execCupboardAnchor s) := by
  unfold Sys2Proof.Machine.execCupboardAnchor
  repeat' first
    | with_reducible assumption
    | with_reducible apply KeepsR.next
    | with_reducible exact KeepsR.fault
    | with_reducible first | apply Keeps.anchorNow
    | split

theorem KeepsR.execAtticFlush (h : Keeps s₀ s) : KeepsR s₀ (Sys2Proof.Machine.execAtticFlush s) := by
  unfold Sys2Proof.Machine.execAtticFlush
  repeat' first
    | with_reducible assumption
    | with_reducible apply KeepsR.next
    | with_reducible exact KeepsR.fault
    | with_reducible first | apply Keeps.flushAttic
    | split

theorem Keeps.healthCellar (h : Keeps s₀ s) (c : Nat) : Keeps s₀ (State.healthCellar s c) := by
  unfold State.healthCellar
  repeat' first
    | with_reducible assumption
    | (intro s; refine Keeps.cut (a := s₀) s ?_ ?_ <;> [subst s; (intro h; clear_value s)])
    | with_reducible first | apply Keeps.satReg | apply Keeps.setReg
    | fail_if_no_progress (with_reducible apply Keeps.upd)
    | split
    | lift_lets

theorem Keeps.queueMigration (h : Keeps s₀ s) (a : FrameAddr) (hot : Bool) :
    Keeps s₀ (State.queueMigration s a hot) := by
  unfold State.queueMigration
  repeat' first
    | with_reducible assumption
    | (intro x; clear_value x)
    | with_reducible first | apply Keeps.queueOp | apply Keeps.useFrame
    | fail_if_no_progress (with_reducible apply Keeps.upd)
    | split
    | lift_lets

theorem KeepsR.execHealthSample (h : Keeps s₀ s) : KeepsR s₀ (Sys2Proof.Machine.execHealthSample s) := by
  unfold Sys2Proof.Machine.execHealthSample
  repeat' first
    | with_reducible assumption
    | with_reducible apply KeepsR.next
    | with_reducible exact KeepsR.fault
    | with_reducible first | apply Keeps.healthCellar | apply Keeps.queueMigration | apply Keeps.satReg
                           | apply Keeps.setReg | apply Keeps.spareLevels
    | fail_if_no_progress (with_reducible apply Keeps.upd)
    | with_reducible refine Keeps.foldl ?_ fun s x h => ?_
    | with_reducible refine Keeps.foldlFst ?_ fun s x h => ?_
    | with_reducible refine Keeps.foldlSnd ?_ fun s x h => ?_
    | split

theorem KeepsR.execBucketLeak (h : Keeps s₀ s) : KeepsR s₀ (Sys2Proof.Machine.execBucketLeak s) := by
  unfold Sys2Proof.Machine.execBucketLeak
  repeat' first
    | with_reducible assumption
    | (intro x; clear_value x)
    | with_reducible apply KeepsR.next
    | with_reducible exact KeepsR.fault
    | with_reducible first | apply Keeps.setReg
    | with_reducible refine Keeps.foldl ?_ fun s x h => ?_
    | with_reducible refine Keeps.foldlFst ?_ fun s x h => ?_
    | with_reducible refine Keeps.foldlSnd ?_ fun s x h => ?_
    | split
    | lift_lets

theorem KeepsR.execSketchDecay (h : Keeps s₀ s) (w : Wing) : KeepsR s₀ (Sys2Proof.Machine.execSketchDecay w s) := by
  unfold Sys2Proof.Machine.execSketchDecay
  repeat' first
    | with_reducible assumption
    | with_reducible apply KeepsR.next
    | with_reducible exact KeepsR.fault
    | fail_if_no_progress (with_reducible apply Keeps.upd)

theorem Keeps.scrubbed (h : Keeps s₀ s) (w : Nat) : Keeps s₀ (State.scrubbed s w) := by
  unfold State.scrubbed
  repeat' first
    | with_reducible assumption
    | with_reducible first | apply Keeps.count | apply Keeps.setReg
    | fail_if_no_progress (with_reducible apply Keeps.upd)
    | split

theorem KeepsR.execScrubPassStart (h : Keeps s₀ s) (w : Wing) :
    KeepsR s₀ (Sys2Proof.Machine.execScrubPassStart w s) := by
  unfold Sys2Proof.Machine.execScrubPassStart
  repeat' first
    | with_reducible assumption
    | (intro x; refine Keeps.inMedia x ?_; subst x)
    | (intro x; clear_value x)
    | with_reducible apply KeepsR.next
    | with_reducible exact KeepsR.fault
    | with_reducible first | apply Keeps.satReg | apply Keeps.setReg
    | fail_if_no_progress (with_reducible apply Keeps.upd)
    | split
    | lift_lets

theorem Keeps.queueRefresh (h : Keeps s₀ s) (a : FrameAddr) (horizon : Bool) :
    Keeps s₀ (State.queueRefresh s a horizon) := by
  unfold State.queueRefresh
  repeat' first
    | with_reducible assumption
    | fail_if_no_progress (with_reducible apply Keeps.upd)
    | fail_if_no_progress (with_reducible apply Keeps.draw)
    | split

theorem KeepsR.execAgeUnitTick (h : Keeps s₀ s) : KeepsR s₀ (Sys2Proof.Machine.execAgeUnitTick s) := by
  unfold Sys2Proof.Machine.execAgeUnitTick
  repeat' first
    | with_reducible assumption
    | (intro s; refine Keeps.cut (a := s₀) s ?_ ?_ <;> [subst s; (intro h; clear_value s)])
    | (intro x; clear_value x)
    | with_reducible apply KeepsR.next
    | with_reducible exact KeepsR.fault
    | with_reducible first | apply Keeps.queueRefresh
    | fail_if_no_progress (with_reducible apply Keeps.upd)
    | fail_if_no_progress (with_reducible apply Keeps.draw)
    | with_reducible refine Keeps.foldl ?_ fun s x h => ?_
    | with_reducible refine Keeps.foldlFst ?_ fun s x h => ?_
    | with_reducible refine Keeps.foldlSnd ?_ fun s x h => ?_
    | split
    | lift_lets

theorem KeepsR.execCadenceFrame (h : Keeps s₀ s) (w : Wing) : KeepsR s₀ (Sys2Proof.Machine.execCadenceFrame w s) := by
  unfold Sys2Proof.Machine.execCadenceFrame
  repeat' first
    | with_reducible assumption
    | with_reducible apply KeepsR.next
    | with_reducible exact KeepsR.fault
    | fail_if_no_progress (with_reducible apply Keeps.upd)

end Sys2Proof.Machine
end

