-- ==== Sys2Proof/Laws/KeepsMediaExec.lean ====
section
/-! SUPPORT. What the operations of Machine/MediaExec.lean keep, in the sense of Laws/Keeps.lean. -/

namespace Sys2Proof.Machine

variable {s₀ s t : State}

theorem Keeps.mediaStep (h : Keeps s₀ s) : Keeps s₀ (State.mediaStep s) := by
  unfold State.mediaStep
  repeat' first
    | with_reducible assumption
    | with_reducible first | apply Keeps.drainAdvance | apply Keeps.settle

theorem Keeps.tampered (h : Keeps s₀ s) (k line : Nat) : Keeps s₀ (State.tampered s k line) := by
  unfold State.tampered
  repeat' first
    | with_reducible assumption
    | with_reducible first | apply Keeps.lockdown
    | fail_if_no_progress (with_reducible apply Keeps.upd)
    | split

theorem Keeps.poisonedInMerge (h : Keeps s₀ s) (o : MediaOp) (lines : SMap StoredLine) :
    Keeps s₀ (State.poisonedInMerge s o lines) := by
  unfold State.poisonedInMerge
  repeat' first
    | with_reducible assumption
    | with_reducible first | apply Keeps.listPoison
    | fail_if_no_progress (with_reducible apply Keeps.upd)
    | with_reducible refine Keeps.foldl ?_ fun s x h => ?_
    | with_reducible refine Keeps.foldlFst ?_ fun s x h => ?_
    | with_reducible refine Keeps.foldlSnd ?_ fun s x h => ?_
    | split

theorem KeepsR.execProgramSlot (h : Keeps s₀ s) (c : Cellar) (macFails : BitVec 4) (readOk : Bool) :
    KeepsR s₀ (Sys2Proof.Machine.execProgramSlot c macFails readOk s) := by
  unfold Sys2Proof.Machine.execProgramSlot
  repeat' first
    | with_reducible assumption
    | (intro x; refine Keeps.inOption x ?_; subst x)
    | (intro x; clear_value x)
    | with_reducible apply KeepsR.next
    | with_reducible exact KeepsR.fault
    | with_reducible first | apply Keeps.issue | apply Keeps.mediaStep | apply Keeps.poisonedInMerge
                           | apply Keeps.queueOp | apply Keeps.tampered
    | fail_if_no_progress (with_reducible apply Keeps.upd)
    | split
    | lift_lets

theorem KeepsR.execWriteBackSelection (h : Keeps s₀ s) (w : Wing) :
    KeepsR s₀ (Sys2Proof.Machine.execWriteBackSelection w s) := by
  unfold Sys2Proof.Machine.execWriteBackSelection
  repeat' first
    | with_reducible assumption
    | with_reducible apply KeepsR.next
    | with_reducible exact KeepsR.fault
    | with_reducible first | apply Keeps.mediaStep | apply Keeps.queueWriteBack
    | fail_if_no_progress (with_reducible apply Keeps.upd)
    | split

theorem Keeps.errLoc (h : Keeps s₀ s) (a : FrameAddr) (ml kind bits : Nat) :
    Keeps s₀ (State.errLoc s a ml kind bits) := by
  unfold State.errLoc
  repeat' first
    | with_reducible assumption
    | with_reducible first | apply Keeps.setReg

theorem Keeps.celCount (h : Keeps s₀ s) (c k n : Nat) : Keeps s₀ (State.celCount s c k n) := by
  unfold State.celCount
  repeat' first
    | with_reducible assumption
    | with_reducible first | apply Keeps.count

theorem Keeps.busCrcs (h : Keeps s₀ s) (a : FrameAddr) (ml n : Nat) : Keeps s₀ (State.busCrcs s a ml n) := by
  unfold State.busCrcs
  repeat' first
    | with_reducible assumption
    | with_reducible first | apply Keeps.celCount | apply Keeps.emit | apply Keeps.errLoc | apply Keeps.satReg
    | split

theorem Keeps.settleFrame (h : Keeps s₀ s) (a : FrameAddr) (k : Nat) : Keeps s₀ (State.settleFrame s a k) := by
  unfold State.settleFrame
  repeat' first
    | with_reducible assumption
    | with_reducible first | apply Keeps.emit | apply Keeps.queueRefresh | apply Keeps.satReg | apply Keeps.setFrame
    | fail_if_no_progress (with_reducible apply Keeps.upd)
    | fail_if_no_progress (with_reducible apply Keeps.draw)
    | split

theorem Keeps.countOutcome (h : Keeps s₀ s) (a : FrameAddr) (ml : Nat) (plan : ReadPlan) (tries : Nat) (v : ReadEnd) :
    Keeps s₀ (State.countOutcome s a ml plan tries v) := by
  unfold State.countOutcome
  repeat' first
    | with_reducible assumption
    | (intro s; refine Keeps.cut (a := s₀) s ?_ ?_ <;> [subst s; (intro h; clear_value s)])
    | (intro x; clear_value x)
    | with_reducible first | apply Keeps.celCount | apply Keeps.count | apply Keeps.emit | apply Keeps.errLoc
                           | apply Keeps.queueRefresh | apply Keeps.satReg | apply Keeps.settleFrame
    | fail_if_no_progress (with_reducible apply Keeps.upd)
    | fail_if_no_progress (with_reducible apply Keeps.draw)
    | split
    | lift_lets

theorem Keeps.answerReads (h : Keeps s₀ s) (ids : List Nat) (source : Nat) (data : Line) (poison : Bool) :
    Keeps s₀ (State.answerReads s ids source data poison) := by
  unfold State.answerReads
  repeat' first
    | with_reducible assumption
    | (intro s; refine Keeps.cut (a := s₀) s ?_ ?_ <;> [subst s; (intro h; clear_value s)])
    | (intro x; clear_value x)
    | with_reducible first | apply Keeps.hold | apply Keeps.lineDone | apply Keeps.makeEntry | apply Keeps.snoop
    | fail_if_no_progress (with_reducible apply Keeps.upd)
    | with_reducible refine Keeps.foldl ?_ fun s x h => ?_
    | with_reducible refine Keeps.foldlFst ?_ fun s x h => ?_
    | with_reducible refine Keeps.foldlSnd ?_ fun s x h => ?_
    | split
    | lift_lets

theorem Keeps.poisonStored (h : Keeps s₀ s) (a : FrameAddr) (line : Nat) :
    Keeps s₀ (State.poisonStored s a line) := by
  unfold State.poisonStored
  repeat' first
    | with_reducible assumption
    | with_reducible first | apply Keeps.setFrame
    | fail_if_no_progress (with_reducible apply Keeps.upd)
    | split

theorem Keeps.uncorrLine (h : Keeps s₀ s) (c : RoomCfg) (key : Key) (room page line : Nat) (a : FrameAddr) (searched : Bool) :
    Keeps s₀ (State.uncorrLine s c key room page line a searched) := by
  unfold State.uncorrLine
  repeat' first
    | with_reducible assumption
    | (intro s; refine Keeps.cut (a := s₀) s ?_ ?_ <;> [subst s; (intro h; clear_value s)])
    | (intro x; clear_value x)
    | with_reducible first | apply Keeps.answerReads | apply Keeps.countRead | apply Keeps.listPoison
                           | apply Keeps.poisonStored | apply Keeps.queueOp
    | fail_if_no_progress (with_reducible apply Keeps.upd)
    | split
    | lift_lets

theorem Keeps.goodLine (h : Keeps s₀ s) (c : RoomCfg) (key : Key) (room page line : Nat) (x : StoredLine) (asked : Bool) :
    Keeps s₀ (State.goodLine s c key room page line x asked) := by
  unfold State.goodLine
  repeat' first
    | with_reducible assumption
    | with_reducible first | apply Keeps.answerReads | apply Keeps.count | apply Keeps.install
                           | apply Keeps.roomCount | apply Keeps.sketchRead
    | with_reducible refine Keeps.foldl ?_ fun s x h => ?_
    | with_reducible refine Keeps.foldlFst ?_ fun s x h => ?_
    | with_reducible refine Keeps.foldlSnd ?_ fun s x h => ?_
    | split

theorem Keeps.uncRead (h : Keeps s₀ s) (a : FrameAddr) : Keeps s₀ (State.uncRead s a) := by
  unfold State.uncRead
  repeat' first
    | with_reducible assumption
    | (intro s; refine Keeps.cut (a := s₀) s ?_ ?_ <;> [subst s; (intro h; clear_value s)])
    | (intro x; clear_value x)
    | with_reducible first | apply Keeps.retireMove | apply Keeps.setFrame
    | fail_if_no_progress (with_reducible apply Keeps.upd)
    | split
    | lift_lets

theorem Keeps.mediaLine (h : Keeps s₀ s) (a : FrameAddr) (room page ml : Nat) (v : ReadEnd) (searched : Bool) (arrived : Option (List StoredLine)) :
    Keeps s₀ (State.mediaLine s a room page ml v searched arrived) := by
  unfold State.mediaLine
  repeat' first
    | with_reducible assumption
    | (intro x; refine Keeps.inFun x ?_; subst x)
    | (intro x; clear_value x)
    | with_reducible first | apply Keeps.goodLine | apply Keeps.lockdown | apply Keeps.uncRead
                           | apply Keeps.uncorrLine
    | fail_if_no_progress (with_reducible apply Keeps.upd)
    | with_reducible refine Keeps.foldl ?_ fun s x h => ?_
    | with_reducible refine Keeps.foldlFst ?_ fun s x h => ?_
    | with_reducible refine Keeps.foldlSnd ?_ fun s x h => ?_
    | split
    | lift_lets

theorem Keeps.resumeBank (h : Keeps s₀ s) (a : FrameAddr) : Keeps s₀ (State.resumeBank s a) := by
  unfold State.resumeBank
  repeat' first
    | with_reducible assumption
    | fail_if_no_progress (with_reducible apply Keeps.upd)
    | split

theorem Keeps.clearMisses (h : Keeps s₀ s) (c p : Nat) (kinds : List Nat) :
    Keeps s₀ (State.clearMisses s c p kinds) := by
  unfold State.clearMisses
  repeat' first
    | with_reducible assumption
    | fail_if_no_progress (with_reducible apply Keeps.upd)

theorem KeepsR.execMediaReadData (h : Keeps s₀ s) (c : Cellar) (p : Pkg) (frame : Nat) (ml : MediaLineNo) (reads : List Decoded) (arrived : Option (List StoredLine)) :
    KeepsR s₀ (Sys2Proof.Machine.execMediaReadData c p frame ml reads arrived s) := by
  unfold Sys2Proof.Machine.execMediaReadData
  repeat' first
    | with_reducible assumption
    | (intro s; refine Keeps.cut (a := s₀) s ?_ ?_ <;> [subst s; (intro h; clear_value s)])
    | (intro x; refine Keeps.inOption x ?_; subst x)
    | (intro x; clear_value x)
    | with_reducible apply KeepsR.next
    | with_reducible exact KeepsR.fault
    | with_reducible first | apply Keeps.busCrcs | apply Keeps.clearMisses | apply Keeps.countOutcome
                           | apply Keeps.drainAdvance | apply Keeps.errLoc | apply Keeps.losePackage
                           | apply Keeps.mediaLine | apply Keeps.mediaStep | apply Keeps.resumeBank
                           | apply Keeps.satReg | apply Keeps.scrubbed | apply Keeps.settle
    | fail_if_no_progress (with_reducible apply Keeps.upd)
    | split
    | lift_lets

theorem KeepsR.execDoneNLow (h : Keeps s₀ s) (_c : Cellar) : KeepsR s₀ (Sys2Proof.Machine.execDoneNLow _c s) := by
  unfold Sys2Proof.Machine.execDoneNLow
  repeat' first
    | with_reducible assumption
    | with_reducible apply KeepsR.next

theorem Keeps.wornOut (h : Keeps s₀ s) (a : FrameAddr) : Keeps s₀ (State.wornOut s a) := by
  unfold State.wornOut
  repeat' first
    | with_reducible assumption
    | with_reducible first | apply Keeps.retireMove
    | fail_if_no_progress (with_reducible apply Keeps.upd)
    | split

theorem Keeps.statusOf (h : Keeps s₀ s) (o : MediaOp) (done verifyFail crcFail : BitVec 64) :
    Keeps s₀ (State.statusOf s o done verifyFail crcFail) := by
  unfold State.statusOf
  repeat' first
    | with_reducible assumption
    | with_reducible first | apply Keeps.busCrcs | apply Keeps.opDone | apply Keeps.opFailed | apply Keeps.wornOut
    | fail_if_no_progress (with_reducible apply Keeps.upd)
    | split

theorem Keeps.miss (h : Keeps s₀ s) (c p kind limit : Nat) : Keeps s₀ (State.miss s c p kind limit).1 := by
  unfold State.miss
  repeat' first
    | with_reducible assumption
    | fail_if_no_progress (with_reducible apply Keeps.upd)

theorem KeepsR.execStatusRecord (h : Keeps s₀ s) (c : Cellar) (p : Pkg) (done verifyFail crcFail : BitVec 64) (flags : Byte) (crcOk : Bool) :
    KeepsR s₀ (Sys2Proof.Machine.execStatusRecord c p done verifyFail crcFail flags crcOk s) := by
  unfold Sys2Proof.Machine.execStatusRecord
  repeat' first
    | with_reducible assumption
    | with_reducible apply KeepsR.next
    | with_reducible exact KeepsR.fault
    | with_reducible first | apply Keeps.busCrcs | apply Keeps.clearMisses | apply Keeps.losePackage
                           | apply Keeps.mediaStep | apply Keeps.miss | apply Keeps.statusOf
    | with_reducible refine Keeps.foldl ?_ fun s x h => ?_
    | with_reducible refine Keeps.foldlFst ?_ fun s x h => ?_
    | with_reducible refine Keeps.foldlSnd ?_ fun s x h => ?_
    | split

theorem Keeps.modOp (h : Keeps s₀ s) (c tag : Nat) (f : MediaOp → MediaOp) : Keeps s₀ (State.modOp s c tag f) := by
  unfold State.modOp
  repeat' first
    | with_reducible assumption
    | fail_if_no_progress (with_reducible apply Keeps.upd)

theorem KeepsR.execSuspendOp (h : Keeps s₀ s) (c : Cellar) (tag : Fin 64) :
    KeepsR s₀ (Sys2Proof.Machine.execSuspendOp c tag s) := by
  unfold Sys2Proof.Machine.execSuspendOp
  repeat' first
    | with_reducible assumption
    | with_reducible apply KeepsR.next
    | with_reducible exact KeepsR.fault
    | with_reducible first | apply Keeps.celCount | apply Keeps.modOp
    | fail_if_no_progress (with_reducible apply Keeps.upd)
    | split

theorem KeepsR.execBankSuspended (h : Keeps s₀ s) (c : Cellar) (tag : Fin 64) :
    KeepsR s₀ (Sys2Proof.Machine.execBankSuspended c tag s) := by
  unfold Sys2Proof.Machine.execBankSuspended
  repeat' first
    | with_reducible assumption
    | with_reducible apply KeepsR.next
    | with_reducible exact KeepsR.fault
    | with_reducible first | apply Keeps.modOp

theorem Keeps.holdLevels (h : Keeps s₀ s) (c : Nat) : Keeps s₀ (State.holdLevels s c) := by
  unfold State.holdLevels
  repeat' first
    | with_reducible assumption
    | (intro s; refine Keeps.cut (a := s₀) s ?_ ?_ <;> [subst s; (intro h; clear_value s)])
    | (intro x; clear_value x)
    | with_reducible first | apply Keeps.level | apply Keeps.setFlag
    | split
    | lift_lets

theorem KeepsR.execTempRead (h : Keeps s₀ s) (c : Cellar) (p : Pkg) (temp : Option (BitVec 16)) :
    KeepsR s₀ (Sys2Proof.Machine.execTempRead c p temp s) := by
  unfold Sys2Proof.Machine.execTempRead
  repeat' first
    | with_reducible assumption
    | with_reducible apply KeepsR.next
    | with_reducible exact KeepsR.fault
    | with_reducible first | apply Keeps.clearMisses | apply Keeps.holdLevels | apply Keeps.mediaStep
                           | apply Keeps.setReg
    | fail_if_no_progress (with_reducible apply Keeps.upd)
    | split

theorem KeepsR.execAlertN (h : Keeps s₀ s) (c : Cellar) : KeepsR s₀ (Sys2Proof.Machine.execAlertN c s) := by
  unfold Sys2Proof.Machine.execAlertN
  repeat' first
    | with_reducible assumption
    | with_reducible apply KeepsR.next
    | with_reducible exact KeepsR.fault
    | with_reducible first | apply Keeps.setFlag
    | split

theorem KeepsR.execMediaTimeout (h : Keeps s₀ s) (c : Cellar) (p : Pkg) (kind : TimeoutKind) :
    KeepsR s₀ (Sys2Proof.Machine.execMediaTimeout c p kind s) := by
  unfold Sys2Proof.Machine.execMediaTimeout
  repeat' first
    | with_reducible assumption
    | with_reducible apply KeepsR.next
    | with_reducible exact KeepsR.fault
    | with_reducible first | apply Keeps.errLoc | apply Keeps.losePackage | apply Keeps.mediaStep | apply Keeps.miss
                           | apply Keeps.satReg
    | fail_if_no_progress (with_reducible apply Keeps.upd)
    | split

theorem KeepsR.execFrameMigrationSwitch (h : Keeps s₀ s) (room : RoomNo) (page : Nat) :
    KeepsR s₀ (Sys2Proof.Machine.execFrameMigrationSwitch room page s) := by
  unfold Sys2Proof.Machine.execFrameMigrationSwitch
  repeat' first
    | with_reducible assumption
    | (intro s; refine Keeps.cut (a := s₀) s ?_ ?_ <;> [subst s; (intro h; clear_value s)])
    | (intro x; refine Keeps.inMedia x ?_; subst x)
    | (intro x; clear_value x)
    | with_reducible apply KeepsR.next
    | with_reducible exact KeepsR.fault
    | with_reducible first | apply Keeps.count | apply Keeps.emit | apply Keeps.leaveFrame | apply Keeps.journalEntry
                           | apply Keeps.mediaStep | apply Keeps.setFrame | apply Keeps.setPage
                           | apply Keeps.setStripe
    | fail_if_no_progress (with_reducible apply Keeps.upd)
    | split
    | lift_lets

end Sys2Proof.Machine
end

