-- ==== Sys2Proof/Laws/KeepsCoher.lean ====
section
/-! SUPPORT. What the operations of Machine/Coher.lean keep, in the sense of Laws/Keeps.lean. -/

namespace Sys2Proof.Machine

variable {s₀ s t : State}

theorem Keeps.barRefused (h : Keeps s₀ s) (requester offset : Nat) :
    Keeps s₀ (State.barRefused s requester offset) := by
  unfold State.barRefused
  repeat' first
    | with_reducible assumption
    | with_reducible first | apply Keeps.emitReq

theorem Keeps.hmbStop (h : Keeps s₀ s) : Keeps s₀ (State.hmbStop s) := by
  unfold State.hmbStop
  repeat' first
    | with_reducible assumption
    | with_reducible first | apply Keeps.emit | apply Keeps.satReg | apply Keeps.setFlag
    | fail_if_no_progress (with_reducible apply Keeps.upd)
    | split

theorem Keeps.placeLeaf (h : Keeps s₀ s) (owner addr : Nat) : Keeps s₀ (State.placeLeaf s owner addr) := by
  unfold State.placeLeaf
  repeat' first
    | with_reducible assumption
    | with_reducible first | apply Keeps.count | apply Keeps.send
    | fail_if_no_progress (with_reducible apply Keeps.upd)
    | fail_if_no_progress (with_reducible apply Keeps.draw)

theorem KeepsR.execHmbEnable (h : Keeps s₀ s) (requester owner : Requester) :
    KeepsR s₀ (Sys2Proof.Machine.execHmbEnable requester owner s) := by
  unfold Sys2Proof.Machine.execHmbEnable
  repeat' first
    | with_reducible assumption
    | (intro s; refine Keeps.cut (a := s₀) s ?_ ?_ <;> [subst s; (intro h; clear_value s)])
    | (intro x; clear_value x)
    | with_reducible apply KeepsR.next
    | with_reducible exact KeepsR.fault
    | with_reducible first | apply Keeps.barRefused | apply Keeps.placeLeaf | apply Keeps.setFlag | apply Keeps.setReg
    | fail_if_no_progress (with_reducible apply Keeps.upd)
    | with_reducible refine Keeps.foldl ?_ fun s x h => ?_
    | with_reducible refine Keeps.foldlFst ?_ fun s x h => ?_
    | with_reducible refine Keeps.foldlSnd ?_ fun s x h => ?_
    | split
    | lift_lets

theorem KeepsR.execHmbWithdrawal (h : Keeps s₀ s) (requester : Requester) :
    KeepsR s₀ (Sys2Proof.Machine.execHmbWithdrawal requester s) := by
  unfold Sys2Proof.Machine.execHmbWithdrawal
  repeat' first
    | with_reducible assumption
    | (intro s; refine Keeps.cut (a := s₀) s ?_ ?_ <;> [subst s; (intro h; clear_value s)])
    | (intro x; clear_value x)
    | with_reducible apply KeepsR.next
    | with_reducible exact KeepsR.fault
    | with_reducible first | apply Keeps.barRefused | apply Keeps.count | apply Keeps.setFlag | apply Keeps.settle
    | fail_if_no_progress (with_reducible apply Keeps.upd)
    | split
    | lift_lets

theorem KeepsR.execHmbFetchData (h : Keeps s₀ s) (room : RoomNo) (page : Nat) (macOk error : Bool) :
    KeepsR s₀ (Sys2Proof.Machine.execHmbFetchData room page macOk error s) := by
  unfold Sys2Proof.Machine.execHmbFetchData
  repeat' first
    | with_reducible assumption
    | with_reducible apply KeepsR.next
    | with_reducible exact KeepsR.fault
    | with_reducible first | apply Keeps.count | apply Keeps.hmbStop | apply Keeps.settle
    | fail_if_no_progress (with_reducible apply Keeps.upd)
    | split

theorem KeepsR.execHmbFetchTimeout (h : Keeps s₀ s) (room : RoomNo) (page : Nat) :
    KeepsR s₀ (Sys2Proof.Machine.execHmbFetchTimeout room page s) := by
  unfold Sys2Proof.Machine.execHmbFetchTimeout
  repeat' first
    | with_reducible assumption
    | with_reducible apply KeepsR.next
    | with_reducible exact KeepsR.fault
    | with_reducible first | apply Keeps.count | apply Keeps.hmbStop | apply Keeps.settle
    | split

theorem KeepsR.execBiRsp (h : Keeps s₀ s) (requester : Requester) (room : RoomNo) (page : Nat) (line : Fin 64) :
    KeepsR s₀ (Sys2Proof.Machine.execBiRsp requester room page line s) := by
  unfold Sys2Proof.Machine.execBiRsp
  repeat' first
    | with_reducible assumption
    | (intro x; clear_value x)
    | with_reducible apply KeepsR.next
    | with_reducible exact KeepsR.fault
    | with_reducible first | apply Keeps.count | apply Keeps.setDir | apply Keeps.settle
    | fail_if_no_progress (with_reducible apply Keeps.upd)
    | split
    | lift_lets

theorem KeepsR.execBisnpResend (h : Keeps s₀ s) (requester : Requester) (room : RoomNo) (page : Nat) (line : Fin 64) :
    KeepsR s₀ (Sys2Proof.Machine.execBisnpResend requester room page line s) := by
  unfold Sys2Proof.Machine.execBisnpResend
  repeat' first
    | with_reducible assumption
    | (intro x; clear_value x)
    | with_reducible apply KeepsR.next
    | with_reducible exact KeepsR.fault
    | with_reducible first | apply Keeps.count | apply Keeps.emit | apply Keeps.satReg | apply Keeps.send
                           | apply Keeps.snoop
    | fail_if_no_progress (with_reducible apply Keeps.upd)
    | split
    | lift_lets

theorem Keeps.failRequester (h : Keeps s₀ s) (requester : Nat) : Keeps s₀ (State.failRequester s requester) := by
  unfold State.failRequester
  repeat' first
    | with_reducible assumption
    | with_reducible first | apply Keeps.emitReq | apply Keeps.hmbStop | apply Keeps.satReg | apply Keeps.setDir
                           | apply Keeps.settle
    | fail_if_no_progress (with_reducible apply Keeps.upd)
    | with_reducible refine Keeps.foldl ?_ fun s x h => ?_
    | with_reducible refine Keeps.foldlFst ?_ fun s x h => ?_
    | with_reducible refine Keeps.foldlSnd ?_ fun s x h => ?_
    | split

theorem KeepsR.execRequesterFailed (h : Keeps s₀ s) (requester : Requester) :
    KeepsR s₀ (Sys2Proof.Machine.execRequesterFailed requester s) := by
  unfold Sys2Proof.Machine.execRequesterFailed
  repeat' first
    | with_reducible assumption
    | with_reducible apply KeepsR.next
    | with_reducible exact KeepsR.fault
    | with_reducible first | apply Keeps.failRequester
    | split

theorem KeepsR.execRefillRound (h : Keeps s₀ s) : KeepsR s₀ (Sys2Proof.Machine.execRefillRound s) := by
  unfold Sys2Proof.Machine.execRefillRound
  repeat' first
    | with_reducible assumption
    | with_reducible apply KeepsR.next
    | with_reducible exact KeepsR.fault
    | with_reducible first | apply Keeps.settle
    | fail_if_no_progress (with_reducible apply Keeps.upd)
    | split

theorem KeepsR.execGlobalPersistentFlush (h : Keeps s₀ s) (phase : Fin 2) :
    KeepsR s₀ (Sys2Proof.Machine.execGlobalPersistentFlush phase s) := by
  unfold Sys2Proof.Machine.execGlobalPersistentFlush
  repeat' first
    | with_reducible assumption
    | with_reducible apply KeepsR.next
    | with_reducible exact KeepsR.fault
    | with_reducible first | apply Keeps.send
    | split

end Sys2Proof.Machine
end

