-- ==== Sys2Proof/Laws/KeepsLarderExec.lean ====
section
/-! SUPPORT. What the operations of Machine/LarderExec.lean keep, in the sense of Laws/Keeps.lean. -/

namespace Sys2Proof.Machine

variable {s₀ s t : State}

theorem KeepsR.execPromotionDone (h : Keeps s₀ s) (room : RoomNo) (page : Nat) :
    KeepsR s₀ (Sys2Proof.Machine.execPromotionDone room page s) := by
  unfold Sys2Proof.Machine.execPromotionDone
  repeat' first
    | with_reducible assumption
    | (intro x; clear_value x)
    | with_reducible apply KeepsR.next
    | with_reducible exact KeepsR.fault
    | with_reducible first | apply Keeps.count | apply Keeps.satReg | apply Keeps.setPage | apply Keeps.settle
    | fail_if_no_progress (with_reducible apply Keeps.upd)
    | with_reducible refine Keeps.foldl ?_ fun s x h => ?_
    | with_reducible refine Keeps.foldlFst ?_ fun s x h => ?_
    | with_reducible refine Keeps.foldlSnd ?_ fun s x h => ?_
    | split
    | lift_lets
    | refine Keeps.fstOf ?_ (by with_reducible assumption)
    | refine Keeps.sndOf ?_ (by with_reducible assumption)
    | refine Keeps.someOf ?_ (by with_reducible assumption)
    | dsimp only

theorem Keeps.larLoc (h : Keeps s₀ s) (w burst device kind : Nat) :
    Keeps s₀ (State.larLoc s w burst device kind) := by
  unfold State.larLoc
  repeat' first
    | with_reducible assumption
    | with_reducible first | apply Keeps.free | apply Keeps.setReg

theorem Keeps.larLocAnywhere (h : Keeps s₀ s) (w device kind : Nat) :
    Keeps s₀ (State.larLocAnywhere s w device kind) := by
  unfold State.larLocAnywhere
  repeat' first
    | with_reducible assumption
    | with_reducible first | apply Keeps.free | apply Keeps.larLoc

theorem Keeps.larCorrected (h : Keeps s₀ s) (w device : Nat) : Keeps s₀ (State.larCorrected s w device) := by
  unfold State.larCorrected
  repeat' first
    | with_reducible assumption
    | with_reducible first | apply Keeps.count | apply Keeps.emit | apply Keeps.larLocAnywhere | apply Keeps.satReg

theorem Keeps.larUncorrectable (h : Keeps s₀ s) (w kind : Nat) : Keeps s₀ (State.larUncorrectable s w kind) := by
  unfold State.larUncorrectable
  repeat' first
    | with_reducible assumption
    | with_reducible first | apply Keeps.count | apply Keeps.emit | apply Keeps.larLocAnywhere | apply Keeps.satReg
    | split

theorem Keeps.larderLine (h : Keeps s₀ s) (c : RoomCfg) (key : Key) (room page line : Nat) (x : StoredLine) :
    Keeps s₀ (State.larderLine s c key room page line x) := by
  unfold State.larderLine
  repeat' first
    | with_reducible assumption
    | with_reducible first | apply Keeps.answerReads | apply Keeps.count | apply Keeps.install
                           | apply Keeps.roomCount | apply Keeps.touch
    | split

theorem Keeps.modSlot (h : Keeps s₀ s) (room page : Nat) (f : Slot → Slot) :
    Keeps s₀ (State.modSlot s room page f) := by
  unfold State.modSlot
  repeat' first
    | with_reducible assumption
    | with_reducible first | apply Keeps.setPage

theorem Keeps.larderUncorr (h : Keeps s₀ s) (c : RoomCfg) (key : Key) (room page line : Nat) (mirror : BurstOutcome) :
    Keeps s₀ (State.larderUncorr s c key room page line mirror) := by
  unfold State.larderUncorr
  repeat' first
    | with_reducible assumption
    | (intro s; refine Keeps.cut (a := s₀) s ?_ ?_ <;> [subst s; (intro h; clear_value s)])
    | (intro x; clear_value x)
    | with_reducible first | apply Keeps.dropSlices | apply Keeps.emit | apply Keeps.larUncorrectable
                           | apply Keeps.larderLine | apply Keeps.listPoison | apply Keeps.modSlot
                           | apply Keeps.satReg | apply Keeps.setPage
    | fail_if_no_progress (with_reducible apply Keeps.upd)
    | split
    | lift_lets

theorem Keeps.larderData (h : Keeps s₀ s) (c : RoomCfg) (room page line : Nat) (outcome mirror : BurstOutcome) (arrived : Option StoredLine) :
    Keeps s₀ (State.larderData s c room page line outcome mirror arrived) := by
  unfold State.larderData
  repeat' first
    | with_reducible assumption
    | (intro s; refine Keeps.cut (a := s₀) s ?_ ?_ <;> [subst s; (intro h; clear_value s)])
    | (intro x; clear_value x)
    | with_reducible first | apply Keeps.larCorrected | apply Keeps.larderLine | apply Keeps.larderUncorr
                           | apply Keeps.lockdown
    | fail_if_no_progress (with_reducible apply Keeps.upd)
    | split
    | lift_lets

theorem Keeps.mapEntryRead (h : Keeps s₀ s) (room page : Nat) (outcome media : BurstOutcome) :
    Keeps s₀ (State.mapEntryRead s room page outcome media) := by
  unfold State.mapEntryRead
  repeat' first
    | with_reducible assumption
    | with_reducible first | apply Keeps.larCorrected | apply Keeps.larUncorrectable | apply Keeps.poisonPage
    | fail_if_no_progress (with_reducible apply Keeps.upd)
    | split

theorem Keeps.treeLost (h : Keeps s₀ s) (c : RoomCfg) (room page level : Nat) :
    Keeps s₀ (State.treeLost s c room page level) := by
  unfold State.treeLost
  repeat' first
    | with_reducible assumption
    | with_reducible first | apply Keeps.emit | apply Keeps.level | apply Keeps.poisonPage | apply Keeps.satReg
                           | apply Keeps.setFlag | apply Keeps.setPage | apply Keeps.setReg
    | fail_if_no_progress (with_reducible apply Keeps.upd)
    | with_reducible refine Keeps.foldl ?_ fun s x h => ?_
    | with_reducible refine Keeps.foldlFst ?_ fun s x h => ?_
    | with_reducible refine Keeps.foldlSnd ?_ fun s x h => ?_
    | split

theorem Keeps.treeItemRead (h : Keeps s₀ s) (c : RoomCfg) (room page level : Nat) (outcome mirror : BurstOutcome) (altered : Bool) :
    Keeps s₀ (State.treeItemRead s c room page level outcome mirror altered) := by
  unfold State.treeItemRead
  repeat' first
    | with_reducible assumption
    | with_reducible first | apply Keeps.count | apply Keeps.emit | apply Keeps.larCorrected
                           | apply Keeps.larUncorrectable | apply Keeps.level | apply Keeps.lockdown
                           | apply Keeps.satReg | apply Keeps.setReg | apply Keeps.treeLost
    | fail_if_no_progress (with_reducible apply Keeps.upd)
    | split

theorem Keeps.dirLost (h : Keeps s₀ s) (w : Nat) : Keeps s₀ (State.dirLost s w) := by
  unfold State.dirLost
  extract_lets marked s1 s2 keep s3
  have h2 : Keeps s₀ s2 := (h.foldl fun _ x k => k.failRequester x : Keeps s₀ s1).dropDirOf w
  clear_value s2
  exact ((h2.mem id (sortedKeys_filter · _) id id).setFlag ..).level _ _

theorem Keeps.directoryRead (h : Keeps s₀ s) (w : Nat) (outcome mirror : BurstOutcome) :
    Keeps s₀ (State.directoryRead s w outcome mirror) := by
  unfold State.directoryRead
  repeat' first
    | with_reducible assumption
    | with_reducible first | apply Keeps.dirLost | apply Keeps.emit | apply Keeps.larCorrected
                           | apply Keeps.larUncorrectable | apply Keeps.satReg
    | fail_if_no_progress (with_reducible apply Keeps.upd)
    | split

theorem KeepsR.execLarderReadData (h : Keeps s₀ s) (room : RoomNo) (page : Nat) (line : Fin 64) (item : LarderItem) (outcome mirrorOutcome : BurstOutcome) (arrived : Option StoredLine) :
    KeepsR s₀ (Sys2Proof.Machine.execLarderReadData room page line item outcome mirrorOutcome arrived s) := by
  unfold Sys2Proof.Machine.execLarderReadData
  repeat' first
    | with_reducible assumption
    | (intro s; refine Keeps.cut (a := s₀) s ?_ ?_ <;> [subst s; (intro h; clear_value s)])
    | (intro x; clear_value x)
    | with_reducible apply KeepsR.next
    | with_reducible exact KeepsR.fault
    | with_reducible first | apply Keeps.directoryRead | apply Keeps.drainAdvance | apply Keeps.larderData
                           | apply Keeps.mapEntryRead | apply Keeps.settle | apply Keeps.treeItemRead
    | fail_if_no_progress (with_reducible apply Keeps.upd)
    | split
    | lift_lets

theorem KeepsR.execLarderPatrolScrub (h : Keeps s₀ s) (w : Wing) (burst : Nat) (outcome : BurstOutcome) (eccCounts : Nat) :
    KeepsR s₀ (Sys2Proof.Machine.execLarderPatrolScrub w burst outcome eccCounts s) := by
  unfold Sys2Proof.Machine.execLarderPatrolScrub
  repeat' first
    | with_reducible assumption
    | (intro s; refine Keeps.cut (a := s₀) s ?_ ?_ <;> [subst s; (intro h; clear_value s)])
    | (intro x; clear_value x)
    | with_reducible apply KeepsR.next
    | with_reducible exact KeepsR.fault
    | with_reducible first | apply Keeps.count | apply Keeps.emit | apply Keeps.larLoc | apply Keeps.satReg
    | fail_if_no_progress (with_reducible apply Keeps.upd)
    | split
    | lift_lets

theorem KeepsR.execLarderTempRead (h : Keeps s₀ s) (w : Wing) (device : Nat) (celsius4 : Int) :
    KeepsR s₀ (Sys2Proof.Machine.execLarderTempRead w device celsius4 s) := by
  unfold Sys2Proof.Machine.execLarderTempRead
  repeat' first
    | with_reducible assumption
    | (intro s; refine Keeps.cut (a := s₀) s ?_ ?_ <;> [subst s; (intro h; clear_value s)])
    | (intro x; refine Keeps.inTiers x ?_; subst x)
    | (intro x; clear_value x)
    | with_reducible apply KeepsR.next
    | with_reducible exact KeepsR.fault
    | with_reducible first | apply Keeps.level | apply Keeps.setFlag
    | fail_if_no_progress (with_reducible apply Keeps.upd)
    | split
    | lift_lets

theorem KeepsR.execPacedWriteAdmit (h : Keeps s₀ s) (w : Wing) :
    KeepsR s₀ (Sys2Proof.Machine.execPacedWriteAdmit w s) := by
  unfold Sys2Proof.Machine.execPacedWriteAdmit
  repeat' first
    | with_reducible assumption
    | with_reducible apply KeepsR.next
    | with_reducible exact KeepsR.fault
    | with_reducible first | apply Keeps.setReq | apply Keeps.settle
    | fail_if_no_progress (with_reducible apply Keeps.upd)
    | split

theorem Keeps.logApplied (h : Keeps s₀ s) (e : LogEntry) : Keeps s₀ (State.logApplied s e) := by
  unfold State.logApplied
  repeat' first
    | with_reducible assumption
    | (intro s; refine Keeps.cut (a := s₀) s ?_ ?_ <;> [subst s; (intro h; clear_value s)])
    | (intro x; clear_value x)
    | with_reducible first | apply Keeps.count | apply Keeps.programLines | apply Keeps.setFrame | apply Keeps.setPage
    | fail_if_no_progress (with_reducible apply Keeps.upd)
    | split
    | lift_lets

theorem KeepsR.execLogEntryApply (h : Keeps s₀ s) (w : Wing) :
    KeepsR s₀ (Sys2Proof.Machine.execLogEntryApply w s) := by
  unfold Sys2Proof.Machine.execLogEntryApply
  repeat' first
    | with_reducible assumption
    | with_reducible apply KeepsR.next
    | with_reducible exact KeepsR.fault
    | with_reducible first | apply Keeps.drainAdvance | apply Keeps.logApplied | apply Keeps.settle
    | fail_if_no_progress (with_reducible apply Keeps.upd)
    | split

theorem Keeps.moduleDown (h : Keeps s₀ s) (m : Module) : Keeps s₀ (State.moduleDown s m) := by
  unfold State.moduleDown
  repeat' first
    | with_reducible assumption
    | with_reducible first | apply Keeps.emit | apply Keeps.loseWing | apply Keeps.satReg | apply Keeps.setFlag
    | fail_if_no_progress (with_reducible apply Keeps.upd)
    | with_reducible refine Keeps.foldl ?_ fun s x h => ?_
    | with_reducible refine Keeps.foldlFst ?_ fun s x h => ?_
    | with_reducible refine Keeps.foldlSnd ?_ fun s x h => ?_
    | split

theorem KeepsR.execCorridorPacket (h : Keeps s₀ s) (m : Module) (crcOk : Bool) :
    KeepsR s₀ (Sys2Proof.Machine.execCorridorPacket m crcOk s) := by
  unfold Sys2Proof.Machine.execCorridorPacket
  repeat' first
    | with_reducible assumption
    | (intro s; refine Keeps.cut (a := s₀) s ?_ ?_ <;> [subst s; (intro h; clear_value s)])
    | (intro x; clear_value x)
    | with_reducible apply KeepsR.next
    | with_reducible exact KeepsR.fault
    | with_reducible first | apply Keeps.count | apply Keeps.emit | apply Keeps.moduleDown | apply Keeps.satReg
    | fail_if_no_progress (with_reducible apply Keeps.upd)
    | with_reducible refine Keeps.foldl ?_ fun s x h => ?_
    | with_reducible refine Keeps.foldlFst ?_ fun s x h => ?_
    | with_reducible refine Keeps.foldlSnd ?_ fun s x h => ?_
    | split
    | lift_lets

theorem KeepsR.execLaneRepair (h : Keeps s₀ s) (m : Module) : KeepsR s₀ (Sys2Proof.Machine.execLaneRepair m s) := by
  unfold Sys2Proof.Machine.execLaneRepair
  repeat' first
    | with_reducible assumption
    | with_reducible apply KeepsR.next
    | with_reducible exact KeepsR.fault
    | with_reducible first | apply Keeps.emit | apply Keeps.satReg
    | with_reducible refine Keeps.foldl ?_ fun s x h => ?_
    | with_reducible refine Keeps.foldlFst ?_ fun s x h => ?_
    | with_reducible refine Keeps.foldlSnd ?_ fun s x h => ?_
    | split

end Sys2Proof.Machine
end

