-- ==== Sys2Proof/Laws/KeepsLink.lean ====
section
/-! SUPPORT. What the operations of Machine/Link.lean keep, in the sense of Laws/Keeps.lean. -/

namespace Sys2Proof.Machine

variable {s₀ s t : State}

theorem KeepsR.execLinkTraining (h : Keeps s₀ s) (partner : Partner) :
    KeepsR s₀ (Sys2Proof.Machine.execLinkTraining partner s) := by
  unfold Sys2Proof.Machine.execLinkTraining
  repeat' first
    | with_reducible assumption
    | (intro s; refine Keeps.cut (a := s₀) s ?_ ?_ <;> [subst s; (intro h; clear_value s)])
    | (intro x; clear_value x)
    | with_reducible apply KeepsR.next
    | with_reducible exact KeepsR.fault
    | with_reducible first | apply Keeps.emit | apply Keeps.setFlag | apply Keeps.setReg | apply Keeps.settle
                           | apply Keeps.viralOut
    | fail_if_no_progress (with_reducible apply Keeps.upd)
    | split
    | lift_lets

theorem KeepsR.execTrainingRetry (h : Keeps s₀ s) : KeepsR s₀ (Sys2Proof.Machine.execTrainingRetry s) := by
  unfold Sys2Proof.Machine.execTrainingRetry
  repeat' first
    | with_reducible assumption
    | with_reducible apply KeepsR.next
    | with_reducible exact KeepsR.fault
    | fail_if_no_progress (with_reducible apply Keeps.upd)
    | split

theorem Keeps.linkRecovery (h : Keeps s₀ s) : Keeps s₀ (State.linkRecovery s) := by
  unfold State.linkRecovery
  repeat' first
    | with_reducible assumption
    | with_reducible first | apply Keeps.setFlag
    | fail_if_no_progress (with_reducible apply Keeps.upd)
    | split

theorem KeepsR.execLinkRecovery (h : Keeps s₀ s) : KeepsR s₀ (Sys2Proof.Machine.execLinkRecovery s) := by
  unfold Sys2Proof.Machine.execLinkRecovery
  repeat' first
    | with_reducible assumption
    | with_reducible apply KeepsR.next
    | with_reducible exact KeepsR.fault
    | with_reducible first | apply Keeps.linkRecovery

theorem KeepsR.execRetrain (h : Keeps s₀ s) : KeepsR s₀ (Sys2Proof.Machine.execRetrain s) := by
  unfold Sys2Proof.Machine.execRetrain
  repeat' first
    | with_reducible assumption
    | with_reducible apply KeepsR.next
    | with_reducible exact KeepsR.fault
    | with_reducible first | apply Keeps.linkRecovery

theorem KeepsR.execLinkL0 (h : Keeps s₀ s) : KeepsR s₀ (Sys2Proof.Machine.execLinkL0 s) := by
  unfold Sys2Proof.Machine.execLinkL0
  repeat' first
    | with_reducible assumption
    | with_reducible apply KeepsR.next
    | with_reducible exact KeepsR.fault
    | with_reducible first | apply Keeps.credit | apply Keeps.send | apply Keeps.setFlag | apply Keeps.settle
    | fail_if_no_progress (with_reducible apply Keeps.upd)
    | with_reducible refine Keeps.foldl ?_ fun s x h => ?_
    | with_reducible refine Keeps.foldlFst ?_ fun s x h => ?_
    | with_reducible refine Keeps.foldlSnd ?_ fun s x h => ?_
    | split

theorem KeepsR.execFlitReplay (h : Keeps s₀ s) (n : Nat) : KeepsR s₀ (Sys2Proof.Machine.execFlitReplay n s) := by
  unfold Sys2Proof.Machine.execFlitReplay
  repeat' first
    | with_reducible assumption
    | with_reducible apply KeepsR.next
    | with_reducible exact KeepsR.fault
    | with_reducible first | apply Keeps.emit | apply Keeps.satReg
    | split

theorem Keeps.dropSessions (h : Keeps s₀ s) : Keeps s₀ (State.dropSessions s) := by
  unfold State.dropSessions
  repeat' first
    | with_reducible assumption
    | fail_if_no_progress (with_reducible apply Keeps.upd)

theorem Keeps.dropLink (h : Keeps s₀ s) : Keeps s₀ (State.dropLink s) := by
  unfold State.dropLink
  repeat' first
    | with_reducible assumption
    | with_reducible first | apply Keeps.credit | apply Keeps.dropIngress | apply Keeps.dropSessions
                           | apply Keeps.hmbStop | apply Keeps.setFlag | apply Keeps.setReg | apply Keeps.settle
    | fail_if_no_progress (with_reducible apply Keeps.upd)
    | with_reducible refine Keeps.foldl ?_ fun s x h => ?_

theorem KeepsR.execDlDown (h : Keeps s₀ s) : KeepsR s₀ (Sys2Proof.Machine.execDlDown s) := by
  unfold Sys2Proof.Machine.execDlDown
  repeat' first
    | with_reducible assumption
    | with_reducible apply KeepsR.next
    | with_reducible exact KeepsR.fault
    | with_reducible first | apply Keeps.dropLink | apply Keeps.emit | apply Keeps.satReg
    | split

theorem Keeps.setMgmt (h : Keeps s₀ s) (list : Word) : Keeps s₀ (State.setMgmt s list) := by
  unfold State.setMgmt
  repeat' first
    | with_reducible assumption
    | with_reducible first | apply Keeps.setReg

theorem Keeps.loadMgmt (h : Keeps s₀ s) : Keeps s₀ (State.loadMgmt s) := by
  unfold State.loadMgmt
  repeat' first
    | with_reducible assumption
    | with_reducible first | apply Keeps.setMgmt
    | fail_if_no_progress (with_reducible apply Keeps.upd)
    | split

theorem Keeps.portReset (h : Keeps s₀ s) : Keeps s₀ (State.portReset s) := by
  unfold State.portReset
  repeat' first
    | with_reducible assumption
    | (intro s; refine Keeps.cut (a := s₀) s ?_ ?_ <;> [subst s; (intro h; clear_value s)])
    | (intro x; refine Keeps.inCupboard x ?_; subst x)
    | (intro x; clear_value x)
    | with_reducible first | apply Keeps.dropLink | apply Keeps.loadMgmt | apply Keeps.resetRegs | apply Keeps.setFlag
    | fail_if_no_progress (with_reducible apply Keeps.upd)
    | split
    | lift_lets

theorem KeepsR.execPerstN (h : Keeps s₀ s) : KeepsR s₀ (Sys2Proof.Machine.execPerstN s) := by
  unfold Sys2Proof.Machine.execPerstN
  repeat' first
    | with_reducible assumption
    | with_reducible apply KeepsR.next
    | with_reducible exact KeepsR.fault
    | with_reducible first | apply Keeps.emit | apply Keeps.portReset
    | fail_if_no_progress (with_reducible apply Keeps.upd)
    | split

theorem KeepsR.execHotReset (h : Keeps s₀ s) : KeepsR s₀ (Sys2Proof.Machine.execHotReset s) := by
  unfold Sys2Proof.Machine.execHotReset
  repeat' first
    | with_reducible assumption
    | with_reducible apply KeepsR.next
    | with_reducible exact KeepsR.fault
    | with_reducible first | apply Keeps.setFlag

theorem KeepsR.execViral (h : Keeps s₀ s) : KeepsR s₀ (Sys2Proof.Machine.execViral s) := by
  unfold Sys2Proof.Machine.execViral
  repeat' first
    | with_reducible assumption
    | with_reducible apply KeepsR.next
    | with_reducible exact KeepsR.fault
    | with_reducible first | apply Keeps.emit | apply Keeps.setFlag
    | split

theorem KeepsR.execIdeKeyProgram (h : Keeps s₀ s) (stream : Fin 5) :
    KeepsR s₀ (Sys2Proof.Machine.execIdeKeyProgram stream s) := by
  unfold Sys2Proof.Machine.execIdeKeyProgram
  repeat' first
    | with_reducible assumption
    | with_reducible apply KeepsR.next
    | with_reducible exact KeepsR.fault
    | with_reducible first | apply Keeps.setFlag | apply Keeps.setReg
    | fail_if_no_progress (with_reducible apply Keeps.upd)
    | split

theorem KeepsR.execSpdmGetMeasurements (h : Keeps s₀ s) (index : Nat) :
    KeepsR s₀ (Sys2Proof.Machine.execSpdmGetMeasurements index s) := by
  unfold Sys2Proof.Machine.execSpdmGetMeasurements
  repeat' first
    | with_reducible assumption
    | with_reducible apply KeepsR.next
    | with_reducible exact KeepsR.fault
    | with_reducible first | apply Keeps.send
    | fail_if_no_progress (with_reducible apply Keeps.upd)
    | split

theorem Keeps.msix (h : Keeps s₀ s) (v : Nat) : Keeps s₀ (State.msix s v) := by
  unfold State.msix
  repeat' first
    | with_reducible assumption
    | with_reducible first | apply Keeps.send
    | fail_if_no_progress (with_reducible apply Keeps.upd)
    | split

theorem Keeps.msixFlush (h : Keeps s₀ s) (v : Nat) : Keeps s₀ (State.msixFlush s v) := by
  unfold State.msixFlush
  repeat' first
    | with_reducible assumption
    | with_reducible first | apply Keeps.msix | apply Keeps.send
    | fail_if_no_progress (with_reducible apply Keeps.upd)
    | split

theorem KeepsR.execMsixDestValid (h : Keeps s₀ s) (v : Source) :
    KeepsR s₀ (Sys2Proof.Machine.execMsixDestValid v s) := by
  unfold Sys2Proof.Machine.execMsixDestValid
  repeat' first
    | with_reducible assumption
    | with_reducible apply KeepsR.next
    | with_reducible exact KeepsR.fault
    | with_reducible first | apply Keeps.msixFlush | apply Keeps.setFlag
    | split

theorem KeepsR.execMsixUnmask (h : Keeps s₀ s) (v : Source) : KeepsR s₀ (Sys2Proof.Machine.execMsixUnmask v s) := by
  unfold Sys2Proof.Machine.execMsixUnmask
  repeat' first
    | with_reducible assumption
    | with_reducible apply KeepsR.next
    | with_reducible exact KeepsR.fault
    | with_reducible first | apply Keeps.msixFlush
    | fail_if_no_progress (with_reducible apply Keeps.upd)
    | split

end Sys2Proof.Machine
end

