-- ==== Sys2Proof/Laws/KeepsMailbox.lean ====
section
/-! SUPPORT. What the operations of Machine/Mailbox.lean keep, in the sense of Laws/Keeps.lean. -/

namespace Sys2Proof.Machine

variable {s₀ s t : State}

theorem Keeps.mailAnswer (h : Keeps s₀ s) (f : Sender) (opcode : Nat) (code : RetCode) (payload : List Word) :
    Keeps s₀ (State.mailAnswer s f opcode code payload) := by
  unfold State.mailAnswer
  repeat' first
    | with_reducible assumption
    | with_reducible first | refine Keeps.mailbox ?_ _ _ fun s h => ?_ | apply Keeps.send

theorem Keeps.mailbox (h : Keeps s₀ s) (f : Sender) (opcode : Nat) {run : State → State × RetCode × List Word}
    (hr : ∀ s, Keeps s₀ s → Keeps s₀ (run s).1) : Keeps s₀ (s.mailbox f opcode run) := by
  unfold State.mailbox
  split
  · exact h
  · split
    · exact h.barRefused ..
    · exact (hr s h).mailAnswer ..

theorem Keeps.mailRead (h : Keeps s₀ s) (f : Sender) (opcode : Nat) (payload : State → List Word) :
    Keeps s₀ (s.mailRead f opcode payload) := h.mailbox f opcode fun _ k => k

theorem Keeps.mailUnsupported (h : Keeps s₀ s) (f : Sender) (opcode : Nat) :
    Keeps s₀ (s.mailUnsupported f opcode) := h.mailbox f opcode fun _ k => k

theorem KeepsR.execIdentify (h : Keeps s₀ s) (from_ : Sender) :
    KeepsR s₀ (Sys2Proof.Machine.execIdentify from_ s) := by
  unfold Sys2Proof.Machine.execIdentify
  repeat' first
    | with_reducible assumption
    | with_reducible apply KeepsR.next
    | with_reducible exact KeepsR.fault
    | with_reducible first | apply Keeps.mailRead

theorem KeepsR.execGetEventRecords (h : Keeps s₀ s) (from_ : Sender) (log : Fin 3) :
    KeepsR s₀ (Sys2Proof.Machine.execGetEventRecords from_ log s) := by
  unfold Sys2Proof.Machine.execGetEventRecords
  repeat' first
    | with_reducible assumption
    | with_reducible apply KeepsR.next
    | with_reducible exact KeepsR.fault
    | with_reducible first | apply Keeps.mailRead

theorem KeepsR.execClearEventRecords (h : Keeps s₀ s) (from_ : Sender) (log : Fin 3) :
    KeepsR s₀ (Sys2Proof.Machine.execClearEventRecords from_ log s) := by
  unfold Sys2Proof.Machine.execClearEventRecords
  repeat' first
    | with_reducible assumption
    | with_reducible apply KeepsR.next
    | with_reducible exact KeepsR.fault
    | with_reducible first | refine Keeps.mailbox ?_ _ _ fun s h => ?_
    | fail_if_no_progress (with_reducible apply Keeps.upd)

theorem KeepsR.execGetEventInterruptPolicy (h : Keeps s₀ s) (from_ : Sender) :
    KeepsR s₀ (Sys2Proof.Machine.execGetEventInterruptPolicy from_ s) := by
  unfold Sys2Proof.Machine.execGetEventInterruptPolicy
  repeat' first
    | with_reducible assumption
    | with_reducible apply KeepsR.next
    | with_reducible exact KeepsR.fault
    | with_reducible first | apply Keeps.mailRead

theorem KeepsR.execSetEventInterruptPolicy (h : Keeps s₀ s) (from_ : Sender) (policy : Word) :
    KeepsR s₀ (Sys2Proof.Machine.execSetEventInterruptPolicy from_ policy s) := by
  unfold Sys2Proof.Machine.execSetEventInterruptPolicy
  repeat' first
    | with_reducible assumption
    | with_reducible apply KeepsR.next
    | with_reducible exact KeepsR.fault
    | with_reducible first | refine Keeps.mailbox ?_ _ _ fun s h => ?_
    | fail_if_no_progress (with_reducible apply Keeps.upd)

theorem KeepsR.execGetFwInfo (h : Keeps s₀ s) (from_ : Sender) :
    KeepsR s₀ (Sys2Proof.Machine.execGetFwInfo from_ s) := by
  unfold Sys2Proof.Machine.execGetFwInfo
  repeat' first
    | with_reducible assumption
    | with_reducible apply KeepsR.next
    | with_reducible exact KeepsR.fault
    | with_reducible first | apply Keeps.mailRead

theorem KeepsR.execTransferFw (h : Keeps s₀ s) (from_ : Sender) :
    KeepsR s₀ (Sys2Proof.Machine.execTransferFw from_ s) := by
  unfold Sys2Proof.Machine.execTransferFw
  repeat' first
    | with_reducible assumption
    | with_reducible apply KeepsR.next
    | with_reducible exact KeepsR.fault
    | with_reducible first | apply Keeps.mailUnsupported

theorem KeepsR.execActivateFw (h : Keeps s₀ s) (from_ : Sender) :
    KeepsR s₀ (Sys2Proof.Machine.execActivateFw from_ s) := by
  unfold Sys2Proof.Machine.execActivateFw
  repeat' first
    | with_reducible assumption
    | with_reducible apply KeepsR.next
    | with_reducible exact KeepsR.fault
    | with_reducible first | apply Keeps.mailUnsupported

theorem KeepsR.execGetTimestamp (h : Keeps s₀ s) (from_ : Sender) :
    KeepsR s₀ (Sys2Proof.Machine.execGetTimestamp from_ s) := by
  unfold Sys2Proof.Machine.execGetTimestamp
  repeat' first
    | with_reducible assumption
    | with_reducible apply KeepsR.next
    | with_reducible exact KeepsR.fault
    | with_reducible first | apply Keeps.fracNow | refine Keeps.mailbox ?_ _ _ fun s h => ?_
    | split

theorem KeepsR.execSetTimestamp (h : Keeps s₀ s) (from_ : Sender) :
    KeepsR s₀ (Sys2Proof.Machine.execSetTimestamp from_ s) := by
  unfold Sys2Proof.Machine.execSetTimestamp
  repeat' first
    | with_reducible assumption
    | with_reducible apply KeepsR.next
    | with_reducible exact KeepsR.fault
    | with_reducible first | apply Keeps.mailUnsupported

theorem KeepsR.execGetSupportedLogs (h : Keeps s₀ s) (from_ : Sender) :
    KeepsR s₀ (Sys2Proof.Machine.execGetSupportedLogs from_ s) := by
  unfold Sys2Proof.Machine.execGetSupportedLogs
  repeat' first
    | with_reducible assumption
    | with_reducible apply KeepsR.next
    | with_reducible exact KeepsR.fault
    | with_reducible first | apply Keeps.mailRead

theorem KeepsR.execGetLog (h : Keeps s₀ s) (from_ : Sender) : KeepsR s₀ (Sys2Proof.Machine.execGetLog from_ s) := by
  unfold Sys2Proof.Machine.execGetLog
  repeat' first
    | with_reducible assumption
    | with_reducible apply KeepsR.next
    | with_reducible exact KeepsR.fault
    | with_reducible first | refine Keeps.mailbox ?_ _ _ fun s h => ?_
    | fail_if_no_progress (with_reducible apply Keeps.upd)
    | fail_if_no_progress (with_reducible apply Keeps.draw)

theorem KeepsR.execIdentifyMemoryDevice (h : Keeps s₀ s) (from_ : Sender) :
    KeepsR s₀ (Sys2Proof.Machine.execIdentifyMemoryDevice from_ s) := by
  unfold Sys2Proof.Machine.execIdentifyMemoryDevice
  repeat' first
    | with_reducible assumption
    | with_reducible apply KeepsR.next
    | with_reducible exact KeepsR.fault
    | with_reducible first | apply Keeps.mailRead

theorem KeepsR.execGetPartitionInfo (h : Keeps s₀ s) (from_ : Sender) :
    KeepsR s₀ (Sys2Proof.Machine.execGetPartitionInfo from_ s) := by
  unfold Sys2Proof.Machine.execGetPartitionInfo
  repeat' first
    | with_reducible assumption
    | with_reducible apply KeepsR.next
    | with_reducible exact KeepsR.fault
    | with_reducible first | apply Keeps.mailRead

theorem KeepsR.execGetHealthInfo (h : Keeps s₀ s) (from_ : Sender) :
    KeepsR s₀ (Sys2Proof.Machine.execGetHealthInfo from_ s) := by
  unfold Sys2Proof.Machine.execGetHealthInfo
  repeat' first
    | with_reducible assumption
    | with_reducible apply KeepsR.next
    | with_reducible exact KeepsR.fault
    | with_reducible first | apply Keeps.mailRead

theorem KeepsR.execGetAlertConfiguration (h : Keeps s₀ s) (from_ : Sender) :
    KeepsR s₀ (Sys2Proof.Machine.execGetAlertConfiguration from_ s) := by
  unfold Sys2Proof.Machine.execGetAlertConfiguration
  repeat' first
    | with_reducible assumption
    | with_reducible apply KeepsR.next
    | with_reducible exact KeepsR.fault
    | with_reducible first | apply Keeps.mailRead

theorem KeepsR.execSetAlertConfiguration (h : Keeps s₀ s) (from_ : Sender) (spare wear temp : BitVec 16) :
    KeepsR s₀ (Sys2Proof.Machine.execSetAlertConfiguration from_ spare wear temp s) := by
  unfold Sys2Proof.Machine.execSetAlertConfiguration
  repeat' first
    | with_reducible assumption
    | with_reducible apply KeepsR.next
    | with_reducible exact KeepsR.fault
    | with_reducible first | refine Keeps.mailbox ?_ _ _ fun s h => ?_
    | fail_if_no_progress (with_reducible apply Keeps.upd)

theorem KeepsR.execGetPoisonList (h : Keeps s₀ s) (from_ : Sender) (room : RoomNo) :
    KeepsR s₀ (Sys2Proof.Machine.execGetPoisonList from_ room s) := by
  unfold Sys2Proof.Machine.execGetPoisonList
  repeat' first
    | with_reducible assumption
    | with_reducible apply KeepsR.next
    | with_reducible exact KeepsR.fault
    | with_reducible first | apply Keeps.mailRead

theorem Keeps.deviceWrite (h : Keeps s₀ s) (room offset : Nat) (data : Line) (poison : Bool) :
    Keeps s₀ (State.deviceWrite s room offset data poison) := by
  unfold State.deviceWrite
  repeat' first
    | with_reducible assumption
    | with_reducible first | apply Keeps.invalidateHosts | apply Keeps.settle | apply Keeps.storeLine

theorem KeepsR.execInjectPoison (h : Keeps s₀ s) (from_ : Sender) (room : RoomNo) (offset : Nat) :
    KeepsR s₀ (Sys2Proof.Machine.execInjectPoison from_ room offset s) := by
  unfold Sys2Proof.Machine.execInjectPoison
  repeat' first
    | with_reducible assumption
    | with_reducible apply KeepsR.next
    | with_reducible exact KeepsR.fault
    | with_reducible first | apply Keeps.deviceWrite | refine Keeps.mailbox ?_ _ _ fun s h => ?_
    | split

theorem KeepsR.execClearPoison (h : Keeps s₀ s) (from_ : Sender) (room : RoomNo) (offset : Nat) (data : Line) :
    KeepsR s₀ (Sys2Proof.Machine.execClearPoison from_ room offset data s) := by
  unfold Sys2Proof.Machine.execClearPoison
  repeat' first
    | with_reducible assumption
    | with_reducible apply KeepsR.next
    | with_reducible exact KeepsR.fault
    | with_reducible first | apply Keeps.deviceWrite | refine Keeps.mailbox ?_ _ _ fun s h => ?_
    | split

theorem Keeps.newKey (h : Keeps s₀ s) : Keeps s₀ (State.newKey s).2 := by
  unfold State.newKey
  repeat' first
    | with_reducible assumption
    | fail_if_no_progress (with_reducible apply Keeps.upd)
    | fail_if_no_progress (with_reducible apply Keeps.draw)

theorem Keeps.releaseAll (h : Keeps s₀ s) (secure : Bool) : Keeps s₀ (State.releaseAll s secure) := by
  unfold State.releaseAll
  repeat' first
    | with_reducible assumption
    | with_reducible first | apply Keeps.releasePages
    | with_reducible refine Keeps.foldl ?_ fun s x h => ?_

theorem Keeps.emptyTrees (h : Keeps s₀ s) (room : Nat) : Keeps s₀ (State.emptyTrees s room) :=
  h.mem (fun k => pagesOk_mapPages k.1 _) id id id

theorem Keeps.fillSlot (h : Keeps s₀ s) (slot : Nat) (k : KeySlot) : Keeps s₀ (State.fillSlot s slot k) := by
  unfold State.fillSlot
  repeat' first
    | with_reducible assumption
    | with_reducible first | apply Keeps.putSlotTable
    | fail_if_no_progress (with_reducible apply Keeps.upd)

theorem Keeps.renewKeys (h : Keeps s₀ s) : Keeps s₀ (State.renewKeys s) := by
  unfold State.renewKeys
  repeat' first
    | with_reducible assumption
    | with_reducible first | apply Keeps.emptyTrees | apply Keeps.fillSlot | apply Keeps.newKey
    | with_reducible refine Keeps.foldl ?_ fun s x h => ?_

theorem Keeps.sanitizeNow (h : Keeps s₀ s) : Keeps s₀ (State.sanitizeNow s) := by
  unfold State.sanitizeNow
  repeat' first
    | with_reducible assumption
    | with_reducible first | apply Keeps.releaseAll | apply Keeps.renewKeys | apply Keeps.settle
    | fail_if_no_progress (with_reducible apply Keeps.upd)
    | fail_if_no_progress (with_reducible apply Keeps.mem)
    | with_reducible exact fun k => k
    | with_reducible exact fun k => pagesOk_set k _ _
    | with_reducible exact fun k => pagesOk_filter k _
    | with_reducible exact fun k => pagesOk_mapPages k.1 _
    | with_reducible exact fun k => sortedKeys_put k _ _
    | with_reducible exact fun k => sortedKeys_del k _
    | with_reducible exact fun k => sortedKeys_filter k _
    | with_reducible exact fun k => sortedKeys_adjust k _ _
    | with_reducible exact fun k => sortedKeys_mapAll k _

theorem KeepsR.execSanitize (h : Keeps s₀ s) (from_ : Sender) :
    KeepsR s₀ (Sys2Proof.Machine.execSanitize from_ s) := by
  unfold Sys2Proof.Machine.execSanitize
  repeat' first
    | with_reducible assumption
    | with_reducible apply KeepsR.next
    | with_reducible exact KeepsR.fault
    | with_reducible first | refine Keeps.mailbox ?_ _ _ fun s h => ?_
    | fail_if_no_progress (with_reducible apply Keeps.upd)
    | split

theorem KeepsR.execSecureErase (h : Keeps s₀ s) (from_ : Sender) :
    KeepsR s₀ (Sys2Proof.Machine.execSecureErase from_ s) := by
  unfold Sys2Proof.Machine.execSecureErase
  repeat' first
    | with_reducible assumption
    | with_reducible apply KeepsR.next
    | with_reducible exact KeepsR.fault
    | with_reducible first | refine Keeps.mailbox ?_ _ _ fun s h => ?_ | apply Keeps.releaseAll
                           | apply Keeps.renewKeys | apply Keeps.settle
    | split

theorem KeepsR.execGetDcConfiguration (h : Keeps s₀ s) (from_ : Sender) :
    KeepsR s₀ (Sys2Proof.Machine.execGetDcConfiguration from_ s) := by
  unfold Sys2Proof.Machine.execGetDcConfiguration
  repeat' first
    | with_reducible assumption
    | with_reducible apply KeepsR.next
    | with_reducible exact KeepsR.fault
    | with_reducible first | apply Keeps.mailRead

theorem KeepsR.execGetDcExtentList (h : Keeps s₀ s) (from_ : Sender) :
    KeepsR s₀ (Sys2Proof.Machine.execGetDcExtentList from_ s) := by
  unfold Sys2Proof.Machine.execGetDcExtentList
  repeat' first
    | with_reducible assumption
    | with_reducible apply KeepsR.next
    | with_reducible exact KeepsR.fault
    | with_reducible first | apply Keeps.mailRead

theorem Keeps.offer (h : Keeps s₀ s) (e : Extent) : Keeps s₀ (State.offer s e) := by
  unfold State.offer
  repeat' first
    | with_reducible assumption
    | with_reducible first | apply Keeps.emitReq | apply Keeps.send
    | fail_if_no_progress (with_reducible apply Keeps.upd)
    | split

theorem Keeps.offerDeferred (h : Keeps s₀ s) (requester : Nat) : Keeps s₀ (State.offerDeferred s requester) := by
  unfold State.offerDeferred
  repeat' first
    | with_reducible assumption
    | with_reducible first | apply Keeps.send
    | fail_if_no_progress (with_reducible apply Keeps.upd)
    | with_reducible refine Keeps.foldl ?_ fun s x h => ?_
    | with_reducible refine Keeps.foldlFst ?_ fun s x h => ?_
    | with_reducible refine Keeps.foldlSnd ?_ fun s x h => ?_
    | split

theorem Keeps.offerRoom (h : Keeps s₀ s) (c : RoomCfg) (base size : Nat) :
    Keeps s₀ (State.offerRoom s c base size) := by
  unfold State.offerRoom
  repeat' first
    | with_reducible assumption
    | with_reducible first | apply Keeps.offer
    | with_reducible refine Keeps.foldl ?_ fun s x h => ?_

theorem KeepsR.execAddDcResponse (h : Keeps s₀ s) (requester : Requester) (room : RoomNo) (region : Fin 8) (base size : Nat) :
    KeepsR s₀ (Sys2Proof.Machine.execAddDcResponse requester room region base size s) := by
  unfold Sys2Proof.Machine.execAddDcResponse
  repeat' first
    | with_reducible assumption
    | (intro s; refine Keeps.cut (a := s₀) s ?_ ?_ <;> [subst s; (intro h; clear_value s)])
    | (intro x; clear_value x)
    | with_reducible apply KeepsR.next
    | with_reducible exact KeepsR.fault
    | with_reducible first | apply Keeps.mailAnswer
    | fail_if_no_progress (with_reducible apply Keeps.upd)
    | split
    | lift_lets

theorem KeepsR.execSetDecoder (h : Keeps s₀ s) (from_ : Sender) (requester : Requester) (region : Fin 8) (hpaBase size : Nat) (ways granularity : Nat) (way : Nat) (dpaBase : Nat) :
    KeepsR s₀ (Sys2Proof.Machine.execSetDecoder from_ requester region hpaBase size ways granularity way dpaBase s) := by
  unfold Sys2Proof.Machine.execSetDecoder
  repeat' first
    | with_reducible assumption
    | (intro x; clear_value x)
    | with_reducible apply KeepsR.next
    | with_reducible exact KeepsR.fault
    | with_reducible first | refine Keeps.mailbox ?_ _ _ fun s h => ?_
    | fail_if_no_progress (with_reducible apply Keeps.upd)
    | split
    | lift_lets

theorem Keeps.restore (h : Keeps s₀ s) (r : Nat) : Keeps s₀ (State.restore s r) := by
  unfold State.restore
  repeat' first
    | with_reducible assumption
    | (intro s; refine Keeps.cut (a := s₀) s ?_ ?_ <;> [subst s; (intro h; clear_value s)])
    | (intro x; clear_value x)
    | with_reducible first | apply Keeps.level | apply Keeps.setFlag | apply Keeps.setReg | apply Keeps.settle
    | fail_if_no_progress (with_reducible apply Keeps.upd)
    | with_reducible refine Keeps.foldl ?_ fun s x h => ?_
    | with_reducible refine Keeps.foldlFst ?_ fun s x h => ?_
    | with_reducible refine Keeps.foldlSnd ?_ fun s x h => ?_
    | split
    | lift_lets

theorem KeepsR.execRestoreRequester (h : Keeps s₀ s) (from_ : Sender) (requester : Requester) :
    KeepsR s₀ (Sys2Proof.Machine.execRestoreRequester from_ requester s) := by
  unfold Sys2Proof.Machine.execRestoreRequester
  repeat' first
    | with_reducible assumption
    | with_reducible apply KeepsR.next
    | with_reducible exact KeepsR.fault
    | with_reducible first | refine Keeps.mailbox ?_ _ _ fun s h => ?_ | apply Keeps.restore
    | split

theorem KeepsR.execGetRoomStatus (h : Keeps s₀ s) (from_ : Sender) (room : RoomNo) :
    KeepsR s₀ (Sys2Proof.Machine.execGetRoomStatus from_ room s) := by
  unfold Sys2Proof.Machine.execGetRoomStatus
  repeat' first
    | with_reducible assumption
    | with_reducible apply KeepsR.next
    | with_reducible exact KeepsR.fault
    | with_reducible first | refine Keeps.mailbox ?_ _ _ fun s h => ?_
    | fail_if_no_progress (with_reducible apply Keeps.upd)
    | split

theorem KeepsR.execSetManagementRequesters (h : Keeps s₀ s) (from_ : Sender) (list : Word) :
    KeepsR s₀ (Sys2Proof.Machine.execSetManagementRequesters from_ list s) := by
  unfold Sys2Proof.Machine.execSetManagementRequesters
  repeat' first
    | with_reducible assumption
    | with_reducible apply KeepsR.next
    | with_reducible exact KeepsR.fault
    | with_reducible first | refine Keeps.mailbox ?_ _ _ fun s h => ?_ | apply Keeps.setMgmt
    | split

theorem KeepsR.execMailboxUnsupported (h : Keeps s₀ s) (from_ : Sender) (opcode : BitVec 16) :
    KeepsR s₀ (Sys2Proof.Machine.execMailboxUnsupported from_ opcode s) := by
  unfold Sys2Proof.Machine.execMailboxUnsupported
  repeat' first
    | with_reducible assumption
    | with_reducible apply KeepsR.next
    | with_reducible exact KeepsR.fault
    | with_reducible first | apply Keeps.mailUnsupported

end Sys2Proof.Machine
end

