-- ==== Sys2Proof/Laws/KeepsService.lean ====
section
/-! SUPPORT. What the operations of Machine/Service.lean keep, in the sense of Laws/Keeps.lean. -/

namespace Sys2Proof.Machine

variable {s₀ s t : State}

theorem Keeps.stalled (h : Keeps s₀ s) (u : Nat) (on : Bool) : Keeps s₀ (State.stalled s u on) := by
  unfold State.stalled
  repeat' first
    | with_reducible assumption
    | with_reducible first | apply Keeps.level | apply Keeps.setFlag | apply Keeps.setReg

theorem Keeps.actFor (h : Keeps s₀ s) (w v : Nat) : Keeps s₀ (State.actFor s w v) := by
  unfold State.actFor
  repeat' first
    | with_reducible assumption
    | with_reducible first | apply Keeps.setFlag | apply Keeps.setReg
    | fail_if_no_progress (with_reducible apply Keeps.upd)

theorem KeepsR.execActingHomeServe (h : Keeps s₀ s) (w : Wing) :
    KeepsR s₀ (Sys2Proof.Machine.execActingHomeServe w s) := by
  unfold Sys2Proof.Machine.execActingHomeServe
  repeat' first
    | with_reducible assumption
    | with_reducible apply KeepsR.next
    | with_reducible exact KeepsR.fault
    | with_reducible first | apply Keeps.actFor | apply Keeps.drainAdvance | apply Keeps.settle
    | fail_if_no_progress (with_reducible apply Keeps.upd)
    | split

theorem Keeps.homeReturns (h : Keeps s₀ s) (w : Nat) : Keeps s₀ (State.homeReturns s w) := by
  unfold State.homeReturns
  repeat' first
    | with_reducible assumption
    | with_reducible first | apply Keeps.setFlag | apply Keeps.setReg
    | fail_if_no_progress (with_reducible apply Keeps.upd)
    | split

theorem Keeps.remirror (h : Keeps s₀ s) (w : Nat) : Keeps s₀ (State.remirror s w) := by
  unfold State.remirror
  repeat' first
    | with_reducible assumption
    | with_reducible first | apply Keeps.setFlag
    | with_reducible refine Keeps.foldl ?_ fun s x h => ?_

theorem Keeps.mirrorTo (h : Keeps s₀ s) (w v : Nat) : Keeps s₀ (State.mirrorTo s w v) := by
  unfold State.mirrorTo
  repeat' first
    | with_reducible assumption
    | (intro x; clear_value x)
    | with_reducible first | apply Keeps.setPage
    | fail_if_no_progress (with_reducible apply Keeps.upd)
    | with_reducible refine Keeps.foldl ?_ fun s x h => ?_
    | with_reducible refine Keeps.foldlFst ?_ fun s x h => ?_
    | with_reducible refine Keeps.foldlSnd ?_ fun s x h => ?_
    | split
    | lift_lets

theorem KeepsR.execRemirrorDone (h : Keeps s₀ s) (w : Wing) : KeepsR s₀ (Sys2Proof.Machine.execRemirrorDone w s) := by
  unfold Sys2Proof.Machine.execRemirrorDone
  repeat' first
    | with_reducible assumption
    | (intro x; clear_value x)
    | with_reducible apply KeepsR.next
    | with_reducible exact KeepsR.fault
    | with_reducible first | apply Keeps.emit | apply Keeps.mirrorTo | apply Keeps.setFlag
    | fail_if_no_progress (with_reducible apply Keeps.upd)
    | split
    | lift_lets

theorem Keeps.moveAway (h : Keeps s₀ s) (w room page : Nat) : Keeps s₀ (State.moveAway s w room page).1 := by
  unfold State.moveAway
  repeat' first
    | with_reducible assumption
    | (intro s; refine Keeps.cut (a := s₀) s ?_ ?_ <;> [subst s; (intro h; clear_value s)])
    | (intro x; refine Keeps.inFun x ?_; subst x)
    | (intro x; clear_value x)
    | with_reducible first | apply Keeps.queueOp | apply Keeps.useFrame
    | fail_if_no_progress (with_reducible apply Keeps.upd)
    | split
    | lift_lets

theorem Keeps.moveAll (h : Keeps s₀ s) (u : Nat) : Keeps s₀ (State.moveAll s u) := by
  unfold State.moveAll
  repeat' first
    | with_reducible assumption
    | with_reducible first | apply Keeps.moveAway | apply Keeps.stalled
    | with_reducible refine Keeps.foldl ?_ fun s x h => ?_
    | with_reducible refine Keeps.foldlFst ?_ fun s x h => ?_

theorem Keeps.writeBackHome (h : Keeps s₀ s) (w : Nat) : Keeps s₀ (State.writeBackHome s w) := by
  unfold State.writeBackHome
  repeat' first
    | with_reducible assumption
    | with_reducible first | apply Keeps.queueWriteBack
    | with_reducible refine Keeps.foldl ?_ fun s x h => ?_

theorem Keeps.takeOut (h : Keeps s₀ s) (u : Nat) : Keeps s₀ (State.takeOut s u) := by
  unfold State.takeOut
  repeat' first
    | with_reducible assumption
    | with_reducible first | apply Keeps.moveAll | apply Keeps.openWindow | apply Keeps.setReg | apply Keeps.setSvc
                           | apply Keeps.writeBackHome
    | split

theorem Keeps.fence (h : Keeps s₀ s) (u : Nat) : Keeps s₀ (State.fence s u) := by
  unfold State.fence
  repeat' first
    | with_reducible assumption
    | with_reducible first | apply Keeps.dropSliceOf | apply Keeps.emit | apply Keeps.larderGone
                           | apply Keeps.loseChannels | apply Keeps.remirror | apply Keeps.setFlag
                           | apply Keeps.setReg | apply Keeps.settle | apply Keeps.stalled | apply Keeps.switchGroup
    | with_reducible refine Keeps.foldl ?_ fun s x h => ?_
    | with_reducible refine Keeps.foldlFst ?_ fun s x h => ?_
    | with_reducible refine Keeps.foldlSnd ?_ fun s x h => ?_
    | split

theorem KeepsR.execUnitFenced (h : Keeps s₀ s) (u : UnitId) : KeepsR s₀ (Sys2Proof.Machine.execUnitFenced u s) := by
  unfold Sys2Proof.Machine.execUnitFenced
  repeat' first
    | with_reducible assumption
    | (intro x; clear_value x)
    | with_reducible apply KeepsR.next
    | with_reducible exact KeepsR.fault
    | with_reducible first | apply Keeps.drainAdvance | apply Keeps.fence | apply Keeps.moveAll
    | fail_if_no_progress (with_reducible apply Keeps.upd)
    | split
    | lift_lets

theorem KeepsR.execUnitLoss (h : Keeps s₀ s) (u : UnitId) : KeepsR s₀ (Sys2Proof.Machine.execUnitLoss u s) := by
  unfold Sys2Proof.Machine.execUnitLoss
  repeat' first
    | with_reducible assumption
    | with_reducible apply KeepsR.next
    | with_reducible exact KeepsR.fault
    | with_reducible first | apply Keeps.drainAdvance | apply Keeps.loseCellar | apply Keeps.loseLarder
                           | apply Keeps.losePackage | apply Keeps.loseWing | apply Keeps.remirror
                           | apply Keeps.settle | apply Keeps.spareLevels
    | fail_if_no_progress (with_reducible apply Keeps.upd)
    | split

theorem Keeps.staleFrames (h : Keeps s₀ s) (u : Nat) : Keeps s₀ (State.staleFrames s u) := by
  unfold State.staleFrames
  extract_lets one md s1
  have h1 : Keeps s₀ s1 := h.mem id id (sortedKeys_mapAll · _) id
  exact h1.foldl fun _ _ k => k.queueOp _

theorem Keeps.rebuildMember (h : Keeps s₀ s) (room page : Nat) : Keeps s₀ (State.rebuildMember s room page) := by
  unfold State.rebuildMember
  repeat' first
    | with_reducible assumption
    | (intro x; refine Keeps.inOption x ?_; subst x)
    | (intro x; clear_value x)
    | with_reducible first | apply Keeps.queueOp | apply Keeps.queueRebuild
    | fail_if_no_progress (with_reducible apply Keeps.upd)
    | split
    | lift_lets

theorem Keeps.startRebuild (h : Keeps s₀ s) (u : Nat) : Keeps s₀ (State.startRebuild s u) := by
  unfold State.startRebuild
  repeat' first
    | with_reducible assumption
    | with_reducible first | apply Keeps.homeReturns | apply Keeps.rebuildMember | apply Keeps.setReg
                           | apply Keeps.staleFrames
    | fail_if_no_progress (with_reducible apply Keeps.upd)
    | with_reducible refine Keeps.foldl ?_ fun s x h => ?_
    | with_reducible refine Keeps.foldlFst ?_ fun s x h => ?_
    | with_reducible refine Keeps.foldlSnd ?_ fun s x h => ?_
    | split

theorem Keeps.trainNext (h : Keeps s₀ s) (u : Nat) : Keeps s₀ (State.trainNext s u) := by
  unfold State.trainNext
  repeat' first
    | with_reducible assumption
    | with_reducible first | apply Keeps.setFlag
    | fail_if_no_progress (with_reducible apply Keeps.upd)

theorem Keeps.bringBack (h : Keeps s₀ s) (u : Nat) (bist : Bool) : Keeps s₀ (State.bringBack s u bist) := by
  unfold State.bringBack
  repeat' first
    | with_reducible assumption
    | with_reducible first | apply Keeps.homeReturns | apply Keeps.setReg | apply Keeps.setSvc | apply Keeps.stalled
                           | apply Keeps.startRebuild | apply Keeps.switchGroup | apply Keeps.trainNext
    | fail_if_no_progress (with_reducible apply Keeps.upd)
    | with_reducible refine Keeps.foldl ?_ fun s x h => ?_
    | with_reducible refine Keeps.foldlFst ?_ fun s x h => ?_
    | with_reducible refine Keeps.foldlSnd ?_ fun s x h => ?_
    | split

theorem KeepsR.execLarderTrainingDone (h : Keeps s₀ s) (w : Wing) (ok : Bool) :
    KeepsR s₀ (Sys2Proof.Machine.execLarderTrainingDone w ok s) := by
  unfold Sys2Proof.Machine.execLarderTrainingDone
  repeat' first
    | with_reducible assumption
    | (intro s; refine Keeps.cut (a := s₀) s ?_ ?_ <;> [subst s; (intro h; clear_value s)])
    | (intro x; clear_value x)
    | with_reducible apply KeepsR.next
    | with_reducible exact KeepsR.fault
    | with_reducible first | apply Keeps.drainAdvance | apply Keeps.emit | apply Keeps.setFlag | apply Keeps.setSvc
                           | apply Keeps.settle | apply Keeps.startRebuild
    | fail_if_no_progress (with_reducible apply Keeps.upd)
    | split
    | lift_lets

theorem KeepsR.execUnitRebuilt (h : Keeps s₀ s) (u : UnitId) : KeepsR s₀ (Sys2Proof.Machine.execUnitRebuilt u s) := by
  unfold Sys2Proof.Machine.execUnitRebuilt
  repeat' first
    | with_reducible assumption
    | (intro s; refine Keeps.cut (a := s₀) s ?_ ?_ <;> [subst s; (intro h; clear_value s)])
    | (intro x; clear_value x)
    | with_reducible apply KeepsR.next
    | with_reducible exact KeepsR.fault
    | with_reducible first | apply Keeps.emit | apply Keeps.setReg | apply Keeps.setSvc | apply Keeps.settle
    | fail_if_no_progress (with_reducible apply Keeps.upd)
    | split
    | lift_lets

theorem Keeps.progressNow (h : Keeps s₀ s) (u : Nat) : Keeps s₀ (State.progressNow s u) := by
  unfold State.progressNow
  repeat' first
    | with_reducible assumption
    | with_reducible first | apply Keeps.free | apply Keeps.setReg
    | split

theorem Keeps.applyDelta (h : Keeps s₀ s) (d : ParityDelta) : Keeps s₀ (State.applyDelta s d) := by
  unfold State.applyDelta
  repeat' first
    | with_reducible assumption
    | with_reducible first | apply Keeps.free | apply Keeps.freeFrame | apply Keeps.queueParity
                           | apply Keeps.setStripe
    | fail_if_no_progress (with_reducible apply Keeps.upd)
    | split

theorem KeepsR.execParityDelta (h : Keeps s₀ s) (w : Wing) : KeepsR s₀ (Sys2Proof.Machine.execParityDelta w s) := by
  unfold Sys2Proof.Machine.execParityDelta
  repeat' first
    | with_reducible assumption
    | with_reducible apply KeepsR.next
    | with_reducible exact KeepsR.fault
    | with_reducible first | apply Keeps.applyDelta | apply Keeps.drainAdvance | apply Keeps.settle
    | fail_if_no_progress (with_reducible apply Keeps.upd)
    | split

theorem KeepsR.execParityRecompute (h : Keeps s₀ s) (w : Wing) :
    KeepsR s₀ (Sys2Proof.Machine.execParityRecompute w s) := by
  unfold Sys2Proof.Machine.execParityRecompute
  repeat' first
    | with_reducible assumption
    | (intro x; refine Keeps.inFun x ?_; subst x)
    | with_reducible apply KeepsR.next
    | with_reducible exact KeepsR.fault
    | with_reducible first | apply Keeps.emit | apply Keeps.queueParity | apply Keeps.setFlag | apply Keeps.setStripe
    | fail_if_no_progress (with_reducible apply Keeps.upd)
    | split
    | lift_lets
    | refine Keeps.fstOf ?_ (by with_reducible assumption)
    | refine Keeps.sndOf ?_ (by with_reducible assumption)
    | refine Keeps.someOf ?_ (by with_reducible assumption)
    | dsimp only

theorem KeepsR.execGroupSwitchTimeout (h : Keeps s₀ s) (group : Fin 46) :
    KeepsR s₀ (Sys2Proof.Machine.execGroupSwitchTimeout group s) := by
  unfold Sys2Proof.Machine.execGroupSwitchTimeout
  repeat' first
    | with_reducible assumption
    | with_reducible apply KeepsR.next
    | with_reducible exact KeepsR.fault
    | with_reducible first | apply Keeps.emit
    | fail_if_no_progress (with_reducible apply Keeps.upd)
    | split

end Sys2Proof.Machine
end

