-- ==== Sys2Proof/Laws/KeepsBoot.lean ====
section
/-! SUPPORT. What the operations of Machine/Boot.lean keep, in the sense of Laws/Keeps.lean. -/

namespace Sys2Proof.Machine

variable {s₀ s t : State}

theorem Keeps.restoreSources (h : Keeps s₀ s) : Keeps s₀ (State.restoreSources s) := by
  unfold State.restoreSources
  repeat' first
    | with_reducible assumption
    | with_reducible first | apply Keeps.setReg
    | with_reducible refine Keeps.foldl ?_ fun s x h => ?_

theorem Keeps.snapRecord (h : Keeps s₀ s) : Keeps s₀ (State.snapRecord s) := by
  unfold State.snapRecord
  repeat' first
    | with_reducible assumption
    | with_reducible first | apply Keeps.atticNote

theorem Keeps.bootRails (h : Keeps s₀ s) : Keeps s₀ (State.bootRails s) := by
  unfold State.bootRails
  repeat' first
    | with_reducible assumption
    | with_reducible first | apply Keeps.emit | apply Keeps.queueRecord | apply Keeps.setFlag | apply Keeps.setReg
                           | apply Keeps.snapRecord
    | fail_if_no_progress (with_reducible apply Keeps.upd)
    | with_reducible refine Keeps.foldl ?_ fun s x h => ?_
    | with_reducible refine Keeps.foldlFst ?_ fun s x h => ?_
    | with_reducible refine Keeps.foldlSnd ?_ fun s x h => ?_
    | split

theorem Keeps.bootRestore (h : Keeps s₀ s) : Keeps s₀ (State.bootRestore s) := by
  unfold State.bootRestore
  repeat' first
    | with_reducible assumption
    | with_reducible first | apply Keeps.advanceCounter | apply Keeps.bootRails | apply Keeps.restoreSources
                           | apply Keeps.setReg
    | fail_if_no_progress (with_reducible apply Keeps.upd)

theorem Keeps.newStartKeys (h : Keeps s₀ s) : Keeps s₀ (State.newStartKeys s) := by
  unfold State.newStartKeys
  repeat' first
    | with_reducible assumption
    | with_reducible first | apply Keeps.newKey | apply Keeps.setFlag
    | fail_if_no_progress (with_reducible apply Keeps.upd)

theorem Keeps.bootReservoir (h : Keeps s₀ s) : Keeps s₀ (State.bootReservoir s) := by
  unfold State.bootReservoir
  repeat' first
    | with_reducible assumption
    | (intro s; refine Keeps.cut (a := s₀) s ?_ ?_ <;> [subst s; (intro h; clear_value s)])
    | (intro x; clear_value x)
    | with_reducible first | apply Keeps.recharge
    | fail_if_no_progress (with_reducible apply Keeps.upd)
    | split
    | lift_lets

theorem Keeps.enterBoot (h : Keeps s₀ s) : Keeps s₀ (State.enterBoot s) := by
  unfold State.enterBoot
  repeat' first
    | with_reducible assumption
    | with_reducible first | apply Keeps.bootReservoir | apply Keeps.bootRestore | apply Keeps.goto
                           | apply Keeps.newStartKeys | apply Keeps.setReg
    | fail_if_no_progress (with_reducible apply Keeps.upd)

theorem Keeps.loadWingRegs (h : Keeps s₀ s) (p : Plan) (w : Nat) : Keeps s₀ (State.loadWingRegs s p w) := by
  unfold State.loadWingRegs
  repeat' first
    | with_reducible assumption
    | with_reducible first | apply Keeps.setFlag | apply Keeps.setReg

theorem Keeps.loadThermal (h : Keeps s₀ s) (t : ThermalCfg) : Keeps s₀ (State.loadThermal s t) := by
  unfold State.loadThermal
  repeat' first
    | with_reducible assumption
    | with_reducible first | apply Keeps.setReg

theorem Keeps.loadReact (h : Keeps s₀ s) (l : List Nat) : Keeps s₀ (State.loadReact s l) := by
  unfold State.loadReact
  repeat' first
    | with_reducible assumption
    | with_reducible first | apply Keeps.setReg
    | with_reducible refine Keeps.foldl ?_ fun s x h => ?_

theorem Keeps.loadMons (h : Keeps s₀ s) (l : List MonCfg) : Keeps s₀ (State.loadMons s l) := by
  unfold State.loadMons
  repeat' first
    | with_reducible assumption
    | with_reducible first | apply Keeps.setReg
    | with_reducible refine Keeps.foldl ?_ fun s x h => ?_
    | with_reducible refine Keeps.foldlFst ?_ fun s x h => ?_
    | with_reducible refine Keeps.foldlSnd ?_ fun s x h => ?_
    | split

theorem Keeps.loadService (h : Keeps s₀ s) (v : ServiceCfg) : Keeps s₀ (State.loadService s v) := by
  unfold State.loadService
  repeat' first
    | with_reducible assumption
    | with_reducible first | apply Keeps.setSvc
    | with_reducible refine Keeps.foldl ?_ fun s x h => ?_

theorem Keeps.loadPool (h : Keeps s₀ s) (p : PoolCfg) : Keeps s₀ (State.loadPool s p) := by
  unfold State.loadPool
  repeat' first
    | with_reducible assumption
    | with_reducible first | apply Keeps.own | apply Keeps.setReg | apply Keeps.standby
    | fail_if_no_progress (with_reducible apply Keeps.upd)

theorem Keeps.putBootRecord (h : Keeps s₀ s) (p : Plan) : Keeps s₀ (State.putBootRecord s p) := by
  unfold State.putBootRecord
  repeat' first
    | with_reducible assumption
    | with_reducible first | apply Keeps.queueRecord
    | split

theorem Keeps.loadPlan (h : Keeps s₀ s) (p : Plan) : Keeps s₀ (State.loadPlan s p) := by
  unfold State.loadPlan
  repeat' first
    | with_reducible assumption
    | with_reducible first | apply Keeps.loadMons | apply Keeps.loadPool | apply Keeps.loadReact
                           | apply Keeps.loadService | apply Keeps.loadThermal | apply Keeps.loadWingRegs
                           | apply Keeps.putBootRecord
    | fail_if_no_progress (with_reducible apply Keeps.upd)
    | with_reducible refine Keeps.foldl ?_ fun s x h => ?_

theorem Keeps.slotFailed (h : Keeps s₀ s) (slot cause : Nat) : Keeps s₀ (State.slotFailed s slot cause) := by
  unfold State.slotFailed
  repeat' first
    | with_reducible assumption
    | with_reducible first | apply Keeps.emit | apply Keeps.setReg
    | split

theorem Keeps.trySlots (h : Keeps s₀ s) (env : BootEnv) (l : List Nat) : Keeps s₀ (State.trySlots s env l).1 := by
  induction l generalizing s with
  | nil => exact h
  | cons slot l ih =>
    unfold State.trySlots
    split
    · exact h
    · exact ih (h.slotFailed slot _)

theorem Keeps.flashClock (h : Keeps s₀ s) (env : BootEnv) : Keeps s₀ (State.flashClock s env) := by
  unfold State.flashClock
  repeat' first
    | with_reducible assumption
    | with_reducible first | apply Keeps.setReg
    | split

theorem Keeps.voidEntries (h : Keeps s₀ s) (l : List (Nat × Bool × Nat × Nat)) : Keeps s₀ (s.voidEntries l) := by
  unfold State.voidEntries
  dsimp only
  refine h.flashTo fun k => ?_
  generalize s.flash.cells = c at k
  induction l generalizing c with
  | nil => exact k
  | cons e l ih => exact ih _ (flashOk_program k _ _)

theorem Keeps.replay (h : Keeps s₀ s) (p : Plan) (l : List (Nat × Bool × Nat × Nat)) :
    Keeps s₀ (State.replay s p l).1 := by
  induction l generalizing s p with
  | nil => exact h
  | cons e l ih =>
    unfold State.replay
    split
    · exact ih h p
    · split
      · exact ih (h.upd.setReg ..) _
      · exact ((h.setFlag ..).emit _).voidEntries _

theorem Keeps.eraseForeign (h : Keeps s₀ s) (p : Plan) : Keeps s₀ (State.eraseForeign s p) := by
  unfold State.eraseForeign
  repeat' first
    | with_reducible assumption
    | with_reducible first | apply Keeps.emit
    | fail_if_no_progress (with_reducible apply Keeps.upd)
    | fail_if_no_progress (with_reducible apply Keeps.flashProgram)
    | fail_if_no_progress (with_reducible apply Keeps.flashErase)
    | fail_if_no_progress (with_reducible apply Keeps.flashMarks)
    | split

theorem Keeps.logFields (h : Keeps s₀ s) : Keeps s₀ (State.logFields s) := by
  unfold State.logFields
  repeat' first
    | with_reducible assumption
    | with_reducible first | apply Keeps.setReg

theorem Keeps.imageLoaded (h : Keeps s₀ s) (slot : Nat) (p : Plan) : Keeps s₀ (State.imageLoaded s slot p) := by
  unfold State.imageLoaded
  repeat' first
    | with_reducible assumption
    | with_reducible first | apply Keeps.eraseForeign | apply Keeps.loadPlan | apply Keeps.logFields
                           | apply Keeps.raiseStep | apply Keeps.replay | apply Keeps.setFlag | apply Keeps.setReg
    | fail_if_no_progress (with_reducible apply Keeps.upd)

theorem KeepsR.execFloorPlanLoad (h : Keeps s₀ s) (env : BootEnv) :
    KeepsR s₀ (Sys2Proof.Machine.execFloorPlanLoad env s) := by
  unfold Sys2Proof.Machine.execFloorPlanLoad
  repeat' first
    | with_reducible assumption
    | (intro s; refine Keeps.cut (a := s₀) s ?_ ?_ <;> [subst s; (intro h; clear_value s)])
    | (intro x; clear_value x)
    | with_reducible apply KeepsR.next
    | with_reducible exact KeepsR.fault
    | with_reducible first | apply Keeps.flashClock | apply Keeps.imageLoaded | apply Keeps.setFlag
                           | apply Keeps.setReg | apply Keeps.trySlots
    | fail_if_no_progress (with_reducible apply Keeps.upd)
    | split
    | lift_lets
    | refine Keeps.fstOf ?_ (by with_reducible assumption)

theorem Keeps.bistResult (h : Keeps s₀ s) (t : Nat) (lb mb : Bool) (got want : Word × Word) :
    Keeps s₀ (State.bistResult s t lb mb got want).1 := by
  unfold State.bistResult
  repeat' first
    | with_reducible assumption
    | with_reducible first | apply Keeps.setReg
    | split

theorem Keeps.fenceTested (h : Keeps s₀ s) (u : Nat) : Keeps s₀ (State.fenceTested s u) := by
  unfold State.fenceTested
  repeat' first
    | with_reducible assumption
    | with_reducible first | apply Keeps.setSvc
    | split

theorem Keeps.bistWings (h : Keeps s₀ s) (p : Plan) (env : BootEnv) : Keeps s₀ (State.bistWings s p env) := by
  unfold State.bistWings
  repeat' first
    | with_reducible assumption
    | with_reducible first | apply Keeps.bistResult | apply Keeps.fenceTested
    | with_reducible refine Keeps.foldl ?_ fun s x h => ?_
    | with_reducible refine Keeps.foldlFst ?_ fun s x h => ?_
    | with_reducible refine Keeps.foldlSnd ?_ fun s x h => ?_
    | split
    | lift_lets
    | refine Keeps.fstOf ?_ (by with_reducible assumption)

theorem Keeps.checkers (h : Keeps s₀ s) (v : Nat) : Keeps s₀ (State.checkers s v) := by
  unfold State.checkers
  repeat' first
    | with_reducible assumption
    | with_reducible first | apply Keeps.fenceTested | apply Keeps.setFlag | apply Keeps.setReg
    | with_reducible refine Keeps.foldl ?_ fun s x h => ?_
    | with_reducible refine Keeps.foldlFst ?_ fun s x h => ?_
    | with_reducible refine Keeps.foldlSnd ?_ fun s x h => ?_
    | split

theorem Keeps.identCellar (h : Keeps s₀ s) (p : Plan) (env : BootEnv) (c : Nat) :
    Keeps s₀ (State.identCellar s p env c) := by
  unfold State.identCellar
  repeat' first
    | with_reducible assumption
    | (intro s; refine Keeps.cut (a := s₀) s ?_ ?_ <;> [subst s; (intro h; clear_value s)])
    | (intro x; refine Keeps.inOption x ?_; subst x)
    | (intro x; clear_value x)
    | with_reducible first | apply Keeps.emit | apply Keeps.free | apply Keeps.setFlag | apply Keeps.setReg
    | fail_if_no_progress (with_reducible apply Keeps.upd)
    | with_reducible refine Keeps.foldl ?_ fun s x h => ?_
    | with_reducible refine Keeps.foldlFst ?_ fun s x h => ?_
    | with_reducible refine Keeps.foldlSnd ?_ fun s x h => ?_
    | split
    | lift_lets

theorem Keeps.formatPackage (h : Keeps s₀ s) (c k : Nat) : Keeps s₀ (State.formatPackage s c k) := by
  unfold State.formatPackage
  repeat' first
    | with_reducible assumption
    | fail_if_no_progress (with_reducible apply Keeps.upd)
    | fail_if_no_progress (with_reducible apply Keeps.mem)
    | with_reducible exact fun k => k
    | with_reducible exact fun k => pagesOk_set k _ _
    | with_reducible exact fun k => pagesOk_filter k _
    | with_reducible exact fun k => pagesOk_mapPages k.1 _
    | with_reducible exact fun k => sortedKeys_put k _ _
    | with_reducible exact fun k => sortedKeys_del k _
    | with_reducible exact fun k => sortedKeys_filter k _

theorem Keeps.formatAll (h : Keeps s₀ s) (env : BootEnv) : Keeps s₀ (State.formatAll s env) := by
  unfold State.formatAll
  repeat' first
    | with_reducible assumption
    | with_reducible first | apply Keeps.formatPackage
    | fail_if_no_progress (with_reducible apply Keeps.upd)
    | with_reducible refine Keeps.foldl ?_ fun s x h => ?_
    | with_reducible refine Keeps.foldlFst ?_ fun s x h => ?_
    | with_reducible refine Keeps.foldlSnd ?_ fun s x h => ?_
    | split

theorem Keeps.trainLarder (h : Keeps s₀ s) (p : Plan) (env : BootEnv) (w : Nat) :
    Keeps s₀ (State.trainLarder s p env w) := by
  unfold State.trainLarder
  repeat' first
    | with_reducible assumption
    | (intro s; refine Keeps.cut (a := s₀) s ?_ ?_ <;> [subst s; (intro h; clear_value s)])
    | (intro x; clear_value x)
    | with_reducible first | apply Keeps.emit | apply Keeps.loseLarder | apply Keeps.queueRecord | apply Keeps.setFlag
    | split
    | lift_lets

theorem Keeps.raiseLinks (h : Keeps s₀ s) (w : Nat) : Keeps s₀ (State.raiseLinks s w) := by
  unfold State.raiseLinks
  repeat' first
    | with_reducible assumption
    | with_reducible first | apply Keeps.setFlag | apply Keeps.setReg
    | with_reducible refine Keeps.foldl ?_ fun s x h => ?_

theorem Keeps.loadRooms (h : Keeps s₀ s) (p : Plan) : Keeps s₀ (State.loadRooms s p) := by
  unfold State.loadRooms
  repeat' first
    | with_reducible assumption
    | fail_if_no_progress (with_reducible apply Keeps.upd)

theorem Keeps.raiseFloors (h : Keeps s₀ s) (p : Plan) : Keeps s₀ (State.raiseFloors s p) := by
  unfold State.raiseFloors
  repeat' first
    | with_reducible assumption
    | (intro x; refine Keeps.inPair x ?_; subst x)
    | with_reducible first | apply Keeps.queueRecord
    | split
    | lift_lets

theorem Keeps.domainsOn (h : Keeps s₀ s) (ds : List Nat) : Keeps s₀ (State.domainsOn s ds) := by
  unfold State.domainsOn
  repeat' first
    | with_reducible assumption
    | with_reducible first | apply Keeps.setReg

theorem Keeps.finishBoot (h : Keeps s₀ s) : Keeps s₀ (State.finishBoot s) := by
  unfold State.finishBoot
  repeat' first
    | with_reducible assumption
    | (intro s; refine Keeps.cut (a := s₀) s ?_ ?_ <;> [subst s; (intro h; clear_value s)])
    | (intro x; clear_value x)
    | with_reducible first | apply Keeps.bistResult | apply Keeps.bistWings | apply Keeps.checkers
                           | apply Keeps.domainsOn | apply Keeps.formatAll | apply Keeps.goto
                           | apply Keeps.identCellar | apply Keeps.loadMgmt | apply Keeps.loadRooms
                           | apply Keeps.raiseFloors | apply Keeps.raiseLinks | apply Keeps.reverse
                           | apply Keeps.setReg | apply Keeps.spareLevels | apply Keeps.trainLarder
    | fail_if_no_progress (with_reducible apply Keeps.upd)
    | with_reducible refine Keeps.foldl ?_ fun s x h => ?_
    | with_reducible refine Keeps.foldlFst ?_ fun s x h => ?_
    | with_reducible refine Keeps.foldlSnd ?_ fun s x h => ?_
    | split
    | lift_lets
    | refine Keeps.fstOf ?_ (by with_reducible assumption)
    | refine Keeps.sndOf ?_ (by with_reducible assumption)
    | refine Keeps.someOf ?_ (by with_reducible assumption)
    | dsimp only

theorem Keeps.raiseRail (h : Keeps s₀ s) (k last : Nat) : Keeps s₀ (State.raiseRail s k last) := by
  unfold State.raiseRail
  repeat' first
    | with_reducible assumption
    | with_reducible first | apply Keeps.raiseStep | apply Keeps.setReg
    | with_reducible refine Keeps.foldl ?_ fun s x h => ?_
    | with_reducible refine Keeps.foldlFst ?_ fun s x h => ?_
    | with_reducible refine Keeps.foldlSnd ?_ fun s x h => ?_
    | split

theorem KeepsR.execMonitorQualified (h : Keeps s₀ s) (mon : Mon) :
    KeepsR s₀ (Sys2Proof.Machine.execMonitorQualified mon s) := by
  unfold Sys2Proof.Machine.execMonitorQualified
  repeat' first
    | with_reducible assumption
    | (intro s; refine Keeps.cut (a := s₀) s ?_ ?_ <;> [subst s; (intro h; clear_value s)])
    | (intro x; clear_value x)
    | with_reducible apply KeepsR.next
    | with_reducible exact KeepsR.fault
    | with_reducible first | apply Keeps.reverseToOff | apply Keeps.setReg
    | fail_if_no_progress (with_reducible apply Keeps.upd)
    | split
    | lift_lets

theorem KeepsR.execStepDelayExpiry (h : Keeps s₀ s) : KeepsR s₀ (Sys2Proof.Machine.execStepDelayExpiry s) := by
  unfold Sys2Proof.Machine.execStepDelayExpiry
  repeat' first
    | with_reducible assumption
    | (intro x; clear_value x)
    | with_reducible apply KeepsR.next
    | with_reducible exact KeepsR.fault
    | with_reducible first | apply Keeps.enterBoot | apply Keeps.finishBoot | apply Keeps.raiseRail
                           | apply Keeps.raiseStep | apply Keeps.sequenceFault
    | fail_if_no_progress (with_reducible apply Keeps.upd)
    | split
    | lift_lets

theorem KeepsR.execPantryInitDone (h : Keeps s₀ s) (w : Wing) :
    KeepsR s₀ (Sys2Proof.Machine.execPantryInitDone w s) := by
  unfold Sys2Proof.Machine.execPantryInitDone
  repeat' first
    | with_reducible assumption
    | with_reducible apply KeepsR.next
    | with_reducible exact KeepsR.fault
    | with_reducible first | apply Keeps.setFlag | apply Keeps.settle
    | split

end Sys2Proof.Machine
end

