-- ==== Sys2Proof/Laws/KeepsRecover.lean ====
section
/-! SUPPORT. What the operations of Machine/Recover.lean keep, in the sense of Laws/Keeps.lean. -/

namespace Sys2Proof.Machine

variable {s₀ s t : State}

theorem Keeps.readMarker (h : Keeps s₀ s) : Keeps s₀ (State.readMarker s) := by
  unfold State.readMarker
  repeat' first
    | with_reducible assumption
    | (intro s; refine Keeps.cut (a := s₀) s ?_ ?_ <;> [subst s; (intro h; clear_value s)])
    | (intro x; refine Keeps.inOption x ?_; subst x)
    | with_reducible first | apply Keeps.advanceCounter | apply Keeps.emit | apply Keeps.satReg | apply Keeps.setReg
    | fail_if_no_progress (with_reducible apply Keeps.upd)
    | split
    | lift_lets

theorem Keeps.startBeat (h : Keeps s₀ s) : Keeps s₀ (State.startBeat s) := by
  unfold State.startBeat
  repeat' first
    | with_reducible assumption
    | with_reducible first | apply Keeps.setReg | apply Keeps.setTime
    | fail_if_no_progress (with_reducible apply Keeps.upd)
    | split

theorem Keeps.recoverPages (h : Keeps s₀ s) (keepLarder : Bool) : Keeps s₀ (State.recoverPages s keepLarder) := by
  unfold State.recoverPages
  extract_lets m base pages
  refine h.mem (fun k => pagesOk_mapPages (sortedKeys_putAll m _ _ ?_) _) id id id
  show SortedKeys (if keepLarder = true then _ else _)
  split <;> [exact k.1; exact sortedKeys_mapAll k.1 _]

theorem Keeps.dropForeign (h : Keeps s₀ s) : Keeps s₀ (State.dropForeign s) := by
  unfold State.dropForeign
  extract_lets gone ti s1
  have h1 : Keeps s₀ s1 := h.mem (pagesOk_filter · _) id id id
  refine h1.foldl fun s _ k => ?_
  dsimp only
  split
  · exact (k.freeFrame _).journalEntry ..
  · exact k.journalEntry ..

theorem Keeps.raiseUnnamed (h : Keeps s₀ s) : Keeps s₀ (State.raiseUnnamed s) := by
  unfold State.raiseUnnamed
  repeat' first
    | with_reducible assumption
    | fail_if_no_progress (with_reducible apply Keeps.upd)

theorem Keeps.replayLogEntry (h : Keeps s₀ s) (e : LogEntry) : Keeps s₀ (State.replayLogEntry s e) := by
  unfold State.replayLogEntry
  repeat' first
    | with_reducible assumption
    | (intro s; refine Keeps.cut (a := s₀) s ?_ ?_ <;> [subst s; (intro h; clear_value s)])
    | (intro x; clear_value x)
    | with_reducible first | apply Keeps.journalEntry | apply Keeps.programLines | apply Keeps.setFrame
                           | apply Keeps.setPage
    | fail_if_no_progress (with_reducible apply Keeps.upd)
    | split
    | lift_lets

theorem Keeps.replayLog (h : Keeps s₀ s) : Keeps s₀ (State.replayLog s) := by
  unfold State.replayLog
  repeat' first
    | with_reducible assumption
    | with_reducible first | apply Keeps.replayLogEntry
    | fail_if_no_progress (with_reducible apply Keeps.upd)
    | with_reducible refine Keeps.foldl ?_ fun s x h => ?_

theorem Keeps.freeStray (h : Keeps s₀ s) : Keeps s₀ (State.freeStray s) := by
  unfold State.freeStray
  repeat' first
    | with_reducible assumption
    | with_reducible first | apply Keeps.freeFrame | apply Keeps.queueOp
    | with_reducible refine Keeps.foldl ?_ fun s x h => ?_

theorem Keeps.rootsLost (h : Keeps s₀ s) : Keeps s₀ (State.rootsLost s) := by
  unfold State.rootsLost
  repeat' first
    | with_reducible assumption
    | with_reducible first | apply Keeps.treeLost
    | fail_if_no_progress (with_reducible apply Keeps.upd)
    | with_reducible refine Keeps.foldl ?_ fun s x h => ?_
    | with_reducible refine Keeps.foldlFst ?_ fun s x h => ?_
    | with_reducible refine Keeps.foldlSnd ?_ fun s x h => ?_
    | split

theorem Keeps.checkBlock (h : Keeps s₀ s) (k : Nat) : Keeps s₀ (State.checkBlock s k) := by
  unfold State.checkBlock
  repeat' first
    | with_reducible assumption
    | (intro s; refine Keeps.cut (a := s₀) s ?_ ?_ <;> [subst s; (intro h; clear_value s)])
    | (intro x; clear_value x)
    | with_reducible first | apply Keeps.lockdown | apply Keeps.satReg | apply Keeps.setBlock | apply Keeps.setPage
    | fail_if_no_progress (with_reducible apply Keeps.upd)
    | split
    | lift_lets

theorem Keeps.restoreTrees (h : Keeps s₀ s) (clean : Bool) : Keeps s₀ (State.restoreTrees s clean) := by
  unfold State.restoreTrees
  repeat' first
    | with_reducible assumption
    | with_reducible first | apply Keeps.checkBlock | apply Keeps.lockdown | apply Keeps.rootsLost
                           | apply Keeps.setReg
    | fail_if_no_progress (with_reducible apply Keeps.upd)
    | with_reducible refine Keeps.foldl ?_ fun s x h => ?_
    | with_reducible refine Keeps.foldlFst ?_ fun s x h => ?_
    | with_reducible refine Keeps.foldlSnd ?_ fun s x h => ?_
    | split

theorem Keeps.poisonDirty (h : Keeps s₀ s) : Keeps s₀ (State.poisonDirty s) := by
  unfold State.poisonDirty
  repeat' first
    | with_reducible assumption
    | (intro s; refine Keeps.cut (a := s₀) s ?_ ?_ <;> [subst s; (intro h; clear_value s)])
    | (intro x; clear_value x)
    | with_reducible first | apply Keeps.emit | apply Keeps.listPoison | apply Keeps.poisonPage | apply Keeps.setReg
    | with_reducible refine Keeps.foldl ?_ fun s x h => ?_
    | with_reducible refine Keeps.foldlFst ?_ fun s x h => ?_
    | with_reducible refine Keeps.foldlSnd ?_ fun s x h => ?_
    | split
    | lift_lets

theorem Keeps.reviseFrames (h : Keeps s₀ s) (pages : List Nat) : Keeps s₀ (State.reviseFrames s pages) := by
  unfold State.reviseFrames
  extract_lets named one md s1
  have h1 : Keeps s₀ s1 := h.mem id id (sortedKeys_mapAll · _) id
  exact h1.foldl fun _ _ k => k.queueRefresh _ _

theorem Keeps.recomputeDue (h : Keeps s₀ s) (room page : Nat) : Keeps s₀ (State.recomputeDue s room page) := by
  unfold State.recomputeDue
  repeat' first
    | with_reducible assumption
    | with_reducible first | apply Keeps.setFlag | apply Keeps.setStripe

theorem Keeps.markRecompute (h : Keeps s₀ s) (pages : List Nat) : Keeps s₀ (State.markRecompute s pages) := by
  unfold State.markRecompute
  repeat' first
    | with_reducible assumption
    | (intro x; clear_value x)
    | with_reducible first | apply Keeps.recomputeDue
    | with_reducible refine Keeps.foldl ?_ fun s x h => ?_
    | with_reducible refine Keeps.foldlFst ?_ fun s x h => ?_
    | with_reducible refine Keeps.foldlSnd ?_ fun s x h => ?_
    | split
    | lift_lets

theorem Keeps.losePackages (h : Keeps s₀ s) (env : BootEnv) : Keeps s₀ (State.losePackages s env) := by
  unfold State.losePackages
  repeat' first
    | with_reducible assumption
    | with_reducible first | apply Keeps.loseCellar | apply Keeps.loseFrames | apply Keeps.rebuildFrames
    | fail_if_no_progress (with_reducible apply Keeps.upd)
    | with_reducible refine Keeps.foldl ?_ fun s x h => ?_
    | with_reducible refine Keeps.foldlFst ?_ fun s x h => ?_
    | with_reducible refine Keeps.foldlSnd ?_ fun s x h => ?_
    | split

theorem Keeps.windows (h : Keeps s₀ s) : Keeps s₀ (State.windows s) := by
  unfold State.windows
  repeat' first
    | with_reducible assumption
    | with_reducible first | apply Keeps.openWindow
    | with_reducible refine Keeps.foldl ?_ fun s x h => ?_
    | with_reducible refine Keeps.foldlFst ?_ fun s x h => ?_
    | with_reducible refine Keeps.foldlSnd ?_ fun s x h => ?_
    | split

theorem Keeps.resumeRebuild (h : Keeps s₀ s) : Keeps s₀ (State.resumeRebuild s) := by
  unfold State.resumeRebuild
  repeat' first
    | with_reducible assumption
    | (intro x; clear_value x)
    | with_reducible first | apply Keeps.startRebuild
    | with_reducible refine Keeps.foldl ?_ fun s x h => ?_
    | with_reducible refine Keeps.foldlFst ?_ fun s x h => ?_
    | with_reducible refine Keeps.foldlSnd ?_ fun s x h => ?_
    | split
    | lift_lets

theorem Keeps.loadSlots (h : Keeps s₀ s) (env : BootEnv) : Keeps s₀ (State.loadSlots s env) := by
  unfold State.loadSlots
  repeat' first
    | with_reducible assumption
    | with_reducible first | apply Keeps.emit
    | fail_if_no_progress (with_reducible apply Keeps.upd)
    | split

theorem Keeps.recover (h : Keeps s₀ s) (env : BootEnv) (clean : Bool) : Keeps s₀ (State.recover s env clean) := by
  unfold State.recover
  repeat' first
    | with_reducible assumption
    | (intro s; refine Keeps.cut (a := s₀) s ?_ ?_ <;> [subst s; (intro h; clear_value s)])
    | (intro x; refine Keeps.inMedia x ?_; subst x)
    | (intro x; clear_value x)
    | with_reducible first | apply Keeps.checkpointNow | apply Keeps.dropForeign | apply Keeps.free
                           | apply Keeps.freeStray | apply Keeps.loadSlots | apply Keeps.losePackages
                           | apply Keeps.markRecompute | apply Keeps.poisonDirty | apply Keeps.raiseUnnamed
                           | apply Keeps.recoverPages | apply Keeps.replayLog | apply Keeps.restoreTrees
                           | apply Keeps.resumeRebuild | apply Keeps.reviseFrames | apply Keeps.setReg
                           | apply Keeps.spareLevels | apply Keeps.windows
    | fail_if_no_progress (with_reducible apply Keeps.upd)
    | with_reducible refine Keeps.foldl ?_ fun s x h => ?_
    | with_reducible refine Keeps.foldlFst ?_ fun s x h => ?_
    | with_reducible refine Keeps.foldlSnd ?_ fun s x h => ?_
    | split
    | lift_lets

theorem KeepsR.execRecovery (h : Keeps s₀ s) : KeepsR s₀ (Sys2Proof.Machine.execRecovery s) := by
  unfold Sys2Proof.Machine.execRecovery
  repeat' first
    | with_reducible assumption
    | with_reducible apply KeepsR.next
    | with_reducible exact KeepsR.fault
    | with_reducible first | apply Keeps.readMarker | apply Keeps.recover | apply Keeps.startBeat
    | fail_if_no_progress (with_reducible apply Keeps.upd)
    | split

theorem Keeps.offerImage (h : Keeps s₀ s) : Keeps s₀ (State.offerImage s) := by
  unfold State.offerImage
  repeat' first
    | with_reducible assumption
    | with_reducible first | apply Keeps.offer
    | with_reducible refine Keeps.foldl ?_ fun s x h => ?_
    | with_reducible refine Keeps.foldlFst ?_ fun s x h => ?_
    | with_reducible refine Keeps.foldlSnd ?_ fun s x h => ?_
    | split

theorem KeepsR.execServingEntry (h : Keeps s₀ s) (waited2s : Bool) :
    KeepsR s₀ (Sys2Proof.Machine.execServingEntry waited2s s) := by
  unfold Sys2Proof.Machine.execServingEntry
  repeat' first
    | with_reducible assumption
    | (intro s; refine Keeps.cut (a := s₀) s ?_ ?_ <;> [subst s; (intro h; clear_value s)])
    | (intro x; clear_value x)
    | with_reducible apply KeepsR.next
    | with_reducible exact KeepsR.fault
    | with_reducible first | apply Keeps.computeBudget | apply Keeps.drainStart | apply Keeps.goto
                           | apply Keeps.offerImage | apply Keeps.putMarker | apply Keeps.putUnitRecord
                           | apply Keeps.setFlag | apply Keeps.setReg | apply Keeps.settle | apply Keeps.repin
    | fail_if_no_progress (with_reducible apply Keeps.upd)
    | split
    | lift_lets

theorem KeepsR.execImageBegin (h : Keeps s₀ s) (from_ : Sender) (slot : Byte) :
    KeepsR s₀ (Sys2Proof.Machine.execImageBegin from_ slot s) := by
  unfold Sys2Proof.Machine.execImageBegin
  repeat' first
    | with_reducible assumption
    | (intro x; subst x)
    | with_reducible apply KeepsR.next
    | with_reducible exact KeepsR.fault
    | with_reducible first | refine Keeps.mailbox ?_ _ _ fun s h => ?_
    | fail_if_no_progress (with_reducible apply Keeps.upd)
    | fail_if_no_progress (with_reducible apply Keeps.flashProgram)
    | fail_if_no_progress (with_reducible apply Keeps.flashErase)
    | fail_if_no_progress (with_reducible apply Keeps.flashMarks)
    | split
    | lift_lets

theorem KeepsR.execImageWrite (h : Keeps s₀ s) (from_ : Sender) (offset : Nat) (bytes : List Byte) :
    KeepsR s₀ (Sys2Proof.Machine.execImageWrite from_ offset bytes s) := by
  unfold Sys2Proof.Machine.execImageWrite
  repeat' first
    | with_reducible assumption
    | with_reducible apply KeepsR.next
    | with_reducible exact KeepsR.fault
    | with_reducible first | refine Keeps.mailbox ?_ _ _ fun s h => ?_
    | fail_if_no_progress (with_reducible apply Keeps.upd)
    | fail_if_no_progress (with_reducible apply Keeps.flashProgram)
    | fail_if_no_progress (with_reducible apply Keeps.flashErase)
    | fail_if_no_progress (with_reducible apply Keeps.flashMarks)
    | split

theorem KeepsR.execImageCheck (h : Keeps s₀ s) (from_ : Sender) :
    KeepsR s₀ (Sys2Proof.Machine.execImageCheck from_ s) := by
  unfold Sys2Proof.Machine.execImageCheck
  repeat' first
    | with_reducible assumption
    | with_reducible apply KeepsR.next
    | with_reducible exact KeepsR.fault
    | with_reducible first | refine Keeps.mailbox ?_ _ _ fun s h => ?_
    | fail_if_no_progress (with_reducible apply Keeps.upd)
    | split

theorem KeepsR.execBackgroundCommandDone (h : Keeps s₀ s) :
    KeepsR s₀ (Sys2Proof.Machine.execBackgroundCommandDone s) := by
  unfold Sys2Proof.Machine.execBackgroundCommandDone
  repeat' first
    | with_reducible assumption
    | with_reducible apply KeepsR.next
    | with_reducible exact KeepsR.fault
    | with_reducible first | refine Keeps.mailbox ?_ _ _ fun s h => ?_ | apply Keeps.sanitizeNow | apply Keeps.send
    | fail_if_no_progress (with_reducible apply Keeps.upd)
    | fail_if_no_progress (with_reducible apply Keeps.flashProgram)
    | fail_if_no_progress (with_reducible apply Keeps.flashErase)
    | fail_if_no_progress (with_reducible apply Keeps.flashMarks)
    | split

end Sys2Proof.Machine
end

