-- ==== Sys2Proof/Laws/KeepsLandingCore.lean ====
section
/-! SUPPORT. What the operations of Machine/LandingCore.lean keep, in the sense of Laws/Keeps.lean. -/

namespace Sys2Proof.Machine

variable {s₀ s t : State}

theorem Keeps.putPoolRecord (h : Keeps s₀ s) : Keeps s₀ (State.putPoolRecord s) := by
  unfold State.putPoolRecord
  repeat' first
    | with_reducible assumption
    | with_reducible apply Keeps.queueRecord

theorem Keeps.landingPut (h : Keeps s₀ s) (o : Outstanding) : Keeps s₀ (State.landingPut s o) := by
  unfold State.landingPut
  repeat' first
    | with_reducible assumption
    | with_reducible first | apply Keeps.count | apply Keeps.send
    | split

theorem Keeps.landingRequest (h : Keeps s₀ s) (peer type : Nat) (last : Bool) (body : List Word) (asker : Option Sender) (rooms : List RoomCfg) :
    Keeps s₀ (State.landingRequest s peer type last body asker rooms) := by
  unfold State.landingRequest
  repeat' first
    | with_reducible assumption
    | with_reducible first | apply Keeps.landingPut
    | fail_if_no_progress (with_reducible apply Keeps.upd)

theorem Keeps.landingSend (h : Keeps s₀ s) (peer type : Nat) (body : List Word) :
    Keeps s₀ (State.landingSend s peer type body) := by
  unfold State.landingSend
  repeat' first
    | with_reducible assumption
    | with_reducible first | apply Keeps.landingRequest

theorem Keeps.landingAnswer (h : Keeps s₀ s) (h : Hdr) (type status : Nat) (body : List Word) :
    Keeps s₀ (State.landingAnswer s h type status body) := by
  unfold State.landingAnswer
  repeat' first
    | with_reducible assumption
    | with_reducible first | apply Keeps.count | apply Keeps.send
    | fail_if_no_progress (with_reducible apply Keeps.upd)

theorem Keeps.stepDownAsManager (h : Keeps s₀ s) : Keeps s₀ (State.stepDownAsManager s) := by
  unfold State.stepDownAsManager
  repeat' first
    | with_reducible assumption
    | with_reducible first | apply Keeps.level | apply Keeps.setFlag | apply Keeps.setReg | apply Keeps.standby
    | fail_if_no_progress (with_reducible apply Keeps.upd)

theorem Keeps.learnTerm (h : Keeps s₀ s) (term : Nat) : Keeps s₀ (State.learnTerm s term) := by
  unfold State.learnTerm
  repeat' first
    | with_reducible assumption
    | with_reducible first | apply Keeps.putPoolRecord | apply Keeps.setReg | apply Keeps.stepDownAsManager
    | fail_if_no_progress (with_reducible apply Keeps.upd)
    | split

theorem Keeps.landingTry (h :
    Keeps s₀ s) (m : Hdr) (type : Nat) {run : State → State × Option (Nat × Nat × List Word)}
    (hr : ∀ s, Keeps s₀ s → Keeps s₀ (run s).1) : Keeps s₀ (s.landingTry m type run) := by
  have h1 := h.count 321 1
  unfold State.landingTry
  dsimp only
  split
  · exact h
  · split
    · exact ((h1.satReg ..).send _).count ..
    · split
      · exact h1
      · split
        · exact h1.landingAnswer ..
        · split
          · exact ((h1.satReg ..).emit _).landingAnswer ..
          · have h2 := hr _ (h1.learnTerm m.term.toNat)
            split
            · next e => rw [e] at h2; exact h2.landingAnswer ..
            · next e => rw [e] at h2; exact h2

theorem Keeps.landingIn (h : Keeps s₀ s) (m : Hdr) (type : Nat) {run : State → State × Nat × List Word}
    (hr : ∀ s, Keeps s₀ s → Keeps s₀ (run s).1) : Keeps s₀ (s.landingIn m type run) :=
  h.landingTry m type hr

theorem Keeps.managerOnly (h : Keeps s₀ s) (m : Hdr) {run : State → State × Nat × List Word}
    (hr : ∀ s, Keeps s₀ s → Keeps s₀ (run s).1) : Keeps s₀ (s.managerOnly m run).1 := by
  unfold State.managerOnly
  split <;> [exact hr s h; exact h]

theorem Keeps.landingReply (h : Keeps s₀ s) (h : Hdr) (type : Nat) : Keeps s₀ (State.landingReply s h type).1 := by
  unfold State.landingReply
  repeat' first
    | with_reducible assumption
    | (intro s; refine Keeps.cut (a := s₀) s ?_ ?_ <;> [subst s; (intro h; clear_value s)])
    | (intro x; clear_value x)
    | with_reducible first | apply Keeps.count | apply Keeps.learnTerm
    | fail_if_no_progress (with_reducible apply Keeps.upd)
    | split
    | lift_lets

theorem Keeps.mirrorChange (h : Keeps s₀ s) (body : List Word) : Keeps s₀ (State.mirrorChange s body) := by
  unfold State.mirrorChange
  repeat' first
    | with_reducible assumption
    | with_reducible first | apply Keeps.landingSend | apply Keeps.level | apply Keeps.setFlag | apply Keeps.standby
    | split

theorem Keeps.postInternal (h : Keeps s₀ s) (cmd : Line) : Keeps s₀ (State.postInternal s cmd) := by
  unfold State.postInternal
  repeat' first
    | with_reducible assumption
    | fail_if_no_progress (with_reducible apply Keeps.upd)

theorem Keeps.postOut (h : Keeps s₀ s) (room peer arg0 : Nat) : Keeps s₀ (State.postOut s room peer arg0) := by
  unfold State.postOut
  repeat' first
    | with_reducible assumption
    | with_reducible first | apply Keeps.postInternal
    | fail_if_no_progress (with_reducible apply Keeps.upd)
    | split

theorem Keeps.postIn (h : Keeps s₀ s) (room peer : Nat) (close : Bool) :
    Keeps s₀ (State.postIn s room peer close) := by
  unfold State.postIn
  repeat' first
    | with_reducible assumption
    | with_reducible first | apply Keeps.postInternal
    | fail_if_no_progress (with_reducible apply Keeps.upd)
    | split

theorem Keeps.setMig (h : Keeps s₀ s) (m : Option Migration) : Keeps s₀ (State.setMig s m) := by
  unfold State.setMig
  repeat' first
    | with_reducible assumption
    | with_reducible first | apply Keeps.setReg
    | fail_if_no_progress (with_reducible apply Keeps.upd)

end Sys2Proof.Machine
end

