-- ==== Sys2Proof/Laws/KeepsAmend.lean ====
section
/-! SUPPORT. What the operations of Machine/Amend.lean keep, in the sense of Laws/Keeps.lean. -/

namespace Sys2Proof.Machine

variable {s₀ s t : State}

theorem Keeps.dropOffers (h : Keeps s₀ s) (room : Nat) (p : Extent → Bool) :
    Keeps s₀ (State.dropOffers s room p) := by
  unfold State.dropOffers
  repeat' first
    | with_reducible assumption
    | fail_if_no_progress (with_reducible apply Keeps.upd)

theorem Keeps.roomAdd (h : Keeps s₀ s) (c : RoomCfg) : Keeps s₀ (State.roomAdd s c) := by
  unfold State.roomAdd
  repeat' first
    | with_reducible assumption
    | (intro s; refine Keeps.cut (a := s₀) s ?_ ?_ <;> [subst s; (intro h; clear_value s)])
    | (intro x; clear_value x)
    | with_reducible first | apply Keeps.offerRoom | apply Keeps.postIn | apply Keeps.putUnitRecord
                           | apply Keeps.setRoom
    | fail_if_no_progress (with_reducible apply Keeps.upd)
    | split
    | lift_lets

theorem Keeps.offerToEmpty (h : Keeps s₀ s) (c : RoomCfg) : Keeps s₀ (State.offerToEmpty s c) := by
  unfold State.offerToEmpty
  repeat' first
    | with_reducible assumption
    | with_reducible first | apply Keeps.offer
    | with_reducible refine Keeps.foldl ?_ fun s x h => ?_
    | with_reducible refine Keeps.foldlFst ?_ fun s x h => ?_
    | with_reducible refine Keeps.foldlSnd ?_ fun s x h => ?_
    | split

theorem Keeps.regionChange (h : Keeps s₀ s) (c : RoomCfg) (former : Nat) :
    Keeps s₀ (State.regionChange s c former) := by
  unfold State.regionChange
  repeat' first
    | with_reducible assumption
    | with_reducible first | apply Keeps.dropOffers | apply Keeps.modRoom | apply Keeps.offerRoom | apply Keeps.send
    | fail_if_no_progress (with_reducible apply Keeps.upd)
    | with_reducible refine Keeps.foldl ?_ fun s x h => ?_
    | with_reducible refine Keeps.foldlFst ?_ fun s x h => ?_
    | with_reducible refine Keeps.foldlSnd ?_ fun s x h => ?_
    | split

theorem Keeps.endMigration (h : Keeps s₀ s) (room : Nat) : Keeps s₀ (State.endMigration s room) := by
  unfold State.endMigration
  split
  · split
    · exact Keeps.setMig (h.mem (fun k => pagesOk_mapPages k.1 _) id id id) _
    · exact h
  · exact h

theorem Keeps.roomChange (h : Keeps s₀ s) (old : Room) (c : RoomCfg) : Keeps s₀ (State.roomChange s old c) := by
  unfold State.roomChange
  repeat' first
    | with_reducible assumption
    | with_reducible first | apply Keeps.dropOffers | apply Keeps.modRoom | apply Keeps.offerRoom
                           | apply Keeps.offerToEmpty | apply Keeps.regionChange
    | fail_if_no_progress (with_reducible apply Keeps.upd)
    | split

theorem Keeps.roomRemove (h : Keeps s₀ s) (room : Nat) : Keeps s₀ (State.roomRemove s room) := by
  unfold State.roomRemove
  repeat' first
    | with_reducible assumption
    | with_reducible first | apply Keeps.dropOffers | apply Keeps.endMigration | apply Keeps.modRoom

theorem Keeps.applyRoom (h : Keeps s₀ s) (x : RoomCfg) : Keeps s₀ (State.applyRoom s x) := by
  unfold State.applyRoom
  repeat' first
    | with_reducible assumption
    | with_reducible first | apply Keeps.roomAdd | apply Keeps.roomChange | apply Keeps.roomRemove
    | fail_if_no_progress (with_reducible apply Keeps.upd)
    | split

theorem Keeps.applyPantry (h : Keeps s₀ s) (q : Plan) : Keeps s₀ (State.applyPantry s q) := by
  unfold State.applyPantry
  repeat' first
    | with_reducible assumption
    | (intro x; clear_value x)
    | with_reducible first | apply Keeps.setFlag | apply Keeps.setReg
    | with_reducible refine Keeps.foldl ?_ fun s x h => ?_
    | with_reducible refine Keeps.foldlFst ?_ fun s x h => ?_
    | with_reducible refine Keeps.foldlSnd ?_ fun s x h => ?_
    | split
    | lift_lets

theorem Keeps.applyService (h : Keeps s₀ s) (v : ServiceCfg) : Keeps s₀ (State.applyService s v) := by
  unfold State.applyService
  repeat' first
    | with_reducible assumption
    | (intro s; refine Keeps.cut (a := s₀) s ?_ ?_ <;> [subst s; (intro h; clear_value s)])
    | (intro x; clear_value x)
    | with_reducible first | apply Keeps.bringBack | apply Keeps.takeOut
    | fail_if_no_progress (with_reducible apply Keeps.upd)
    | with_reducible refine Keeps.foldl ?_ fun s x h => ?_
    | with_reducible refine Keeps.foldlFst ?_ fun s x h => ?_
    | with_reducible refine Keeps.foldlSnd ?_ fun s x h => ?_
    | split
    | lift_lets

theorem Keeps.applySection (h : Keeps s₀ s) (q : Plan) (x : Section) : Keeps s₀ (State.applySection s q x) := by
  unfold State.applySection
  repeat' first
    | with_reducible assumption
    | with_reducible first | apply Keeps.applyPantry | apply Keeps.applyRoom | apply Keeps.applyService
                           | apply Keeps.computeBudget | apply Keeps.loadReact | apply Keeps.loadThermal
                           | apply Keeps.putPoolRecord | apply Keeps.spareLevels | apply Keeps.standby
                           | apply Keeps.repin
    | fail_if_no_progress (with_reducible apply Keeps.upd)
    | with_reducible refine Keeps.foldl ?_ fun s x h => ?_
    | with_reducible refine Keeps.foldlFst ?_ fun s x h => ?_
    | with_reducible refine Keeps.foldlSnd ?_ fun s x h => ?_
    | split

theorem Keeps.commitAmendment (h : Keeps s₀ s) (q : Plan) (seq : Nat) (secs : List Section) (b : List Byte) :
    Keeps s₀ (State.commitAmendment s q seq secs b) := by
  unfold State.commitAmendment
  repeat' first
    | with_reducible assumption
    | with_reducible first | apply Keeps.applySection | apply Keeps.count | apply Keeps.emit | apply Keeps.logFields
                           | apply Keeps.setReg | apply Keeps.settle
    | fail_if_no_progress (with_reducible apply Keeps.upd)
    | fail_if_no_progress (with_reducible apply Keeps.flashProgram)
    | fail_if_no_progress (with_reducible apply Keeps.flashErase)
    | fail_if_no_progress (with_reducible apply Keeps.flashMarks)
    | with_reducible refine Keeps.foldl ?_ fun s x h => ?_

theorem Keeps.rejectAmendment (h : Keeps s₀ s) (cause seq : Nat) : Keeps s₀ (State.rejectAmendment s cause seq) := by
  unfold State.rejectAmendment
  repeat' first
    | with_reducible assumption
    | with_reducible first | apply Keeps.count | apply Keeps.emit | apply Keeps.setReg

theorem Keeps.amend (h : Keeps s₀ s) (b : List Byte) : Keeps s₀ (State.amend s b).1 := by
  unfold State.amend
  repeat' first
    | with_reducible assumption
    | (intro x; clear_value x)
    | with_reducible first | apply Keeps.commitAmendment | apply Keeps.rejectAmendment
    | fail_if_no_progress (with_reducible apply Keeps.upd)
    | split
    | lift_lets

theorem Keeps.chunk (h : Keeps s₀ s) (h : Hdr) (offset : Nat) (bytes : List Byte) :
    Keeps s₀ (State.chunk s h offset bytes).1 := by
  unfold State.chunk
  repeat' first
    | with_reducible assumption
    | (intro s; refine Keeps.cut (a := s₀) s ?_ ?_ <;> [subst s; (intro h; clear_value s)])
    | (intro x; refine Keeps.inFun x ?_; subst x)
    | (intro x; clear_value x)
    | with_reducible first | apply Keeps.amend | apply Keeps.setFlag
    | fail_if_no_progress (with_reducible apply Keeps.upd)
    | split
    | lift_lets

theorem KeepsR.execAmendment (h : Keeps s₀ s) (h : Hdr) (offset : Nat) (bytes : List Byte) :
    KeepsR s₀ (Sys2Proof.Machine.execAmendment h offset bytes s) := by
  unfold Sys2Proof.Machine.execAmendment
  repeat' first
    | with_reducible assumption
    | with_reducible apply KeepsR.next
    | with_reducible exact KeepsR.fault
    | with_reducible first | apply Keeps.chunk | refine Keeps.landingTry ?_ _ _ fun s h => ?_
    | split

theorem Keeps.raiseFloor (h : Keeps s₀ s) (c : RoomCfg) : Keeps s₀ (State.raiseFloor s c) := by
  unfold State.raiseFloor
  repeat' first
    | with_reducible assumption
    | with_reducible first | apply Keeps.fillSlot
    | fail_if_no_progress (with_reducible apply Keeps.upd)
    | split

theorem Keeps.freeRoom (h : Keeps s₀ s) (room : Nat) : Keeps s₀ (State.freeRoom s room) :=
  h.mem (pagesOk_filter · _) id id id

theorem KeepsR.execRoomRemovalDone (h : Keeps s₀ s) (room : RoomNo) :
    KeepsR s₀ (Sys2Proof.Machine.execRoomRemovalDone room s) := by
  unfold Sys2Proof.Machine.execRoomRemovalDone
  repeat' first
    | with_reducible assumption
    | with_reducible apply KeepsR.next
    | with_reducible exact KeepsR.fault
    | with_reducible first | apply Keeps.freeRoom | apply Keeps.putUnitRecord | apply Keeps.raiseFloor
                           | apply Keeps.releasePages | apply Keeps.settle
    | fail_if_no_progress (with_reducible apply Keeps.upd)
    | split

theorem Keeps.formerOver (h : Keeps s₀ s) (room : Nat) : Keeps s₀ (State.formerOver s room) := by
  unfold State.formerOver
  repeat' first
    | with_reducible assumption
    | with_reducible first | apply Keeps.modRoom

end Sys2Proof.Machine
end

