-- ==== Sys2Proof/Laws/KeepsRings.lean ====
section
/-! SUPPORT. What the operations of Machine/Rings.lean keep, in the sense of Laws/Keeps.lean. -/

namespace Sys2Proof.Machine

variable {s₀ s t : State}

theorem Keeps.setCtx (h : Keeps s₀ s) (k : Nat) (c : RingCtx) : Keeps s₀ (State.setCtx s k c) := by
  unfold State.setCtx
  repeat' first
    | with_reducible assumption
    | fail_if_no_progress (with_reducible apply Keeps.upd)

theorem Keeps.ringMessage (h : Keeps s₀ s) (k : Nat) : Keeps s₀ (State.ringMessage s k) := by
  unfold State.ringMessage
  repeat' first
    | with_reducible assumption
    | (intro s; refine Keeps.cut (a := s₀) s ?_ ?_ <;> [subst s; (intro h; clear_value s)])
    | (intro x; clear_value x)
    | with_reducible first | apply Keeps.count | apply Keeps.send | apply Keeps.setCtx
    | fail_if_no_progress (with_reducible apply Keeps.upd)
    | split
    | lift_lets

theorem Keeps.putRecord (h : Keeps s₀ s) (k : Nat) (x : Nat × Nat × Nat × Nat × Word) :
    Keeps s₀ (State.putRecord s k x) := by
  unfold State.putRecord
  repeat' first
    | with_reducible assumption
    | (intro s; refine Keeps.cut (a := s₀) s ?_ ?_ <;> [subst s; (intro h; clear_value s)])
    | (intro x; clear_value x)
    | with_reducible first | apply Keeps.count | apply Keeps.ringMessage | apply Keeps.send | apply Keeps.setCtx
    | fail_if_no_progress (with_reducible apply Keeps.upd)
    | split
    | lift_lets

theorem Keeps.flushRecords (n : Nat) (h : Keeps s₀ s) (k : Nat) : Keeps s₀ (State.flushRecords n s k) := by
  induction n generalizing s with
  | zero => exact h
  | succ n ih =>
    unfold State.flushRecords
    dsimp only
    split
    · exact h
    · split
      · exact h
      · exact ih ((h.setCtx ..).putRecord ..)

theorem Keeps.record (h : Keeps s₀ s) (k : Nat) (x : Nat × Nat × Nat × Nat × Word) :
    Keeps s₀ (State.record s k x) := by
  unfold State.record
  repeat' first
    | with_reducible assumption
    | (intro x; clear_value x)
    | with_reducible first | apply Keeps.putRecord | apply Keeps.setCtx
    | fail_if_no_progress (with_reducible apply Keeps.upd)
    | split
    | lift_lets

theorem Keeps.setRing (h : Keeps s₀ s) (k : Nat) (st : RingState) : Keeps s₀ (State.setRing s k st) := by
  unfold State.setRing
  repeat' first
    | with_reducible assumption
    | with_reducible first | apply Keeps.record | apply Keeps.setCtx
    | fail_if_no_progress (with_reducible apply Keeps.upd)
    | split

theorem Keeps.unfetch (h : Keeps s₀ s) (k : Nat) : Keeps s₀ (State.unfetch s k) := by
  unfold State.unfetch
  repeat' first
    | with_reducible assumption
    | (intro s; refine Keeps.cut (a := s₀) s ?_ ?_ <;> [subst s; (intro h; clear_value s)])
    | (intro x; refine Keeps.inFun x ?_; subst x)
    | (intro x; clear_value x)
    | with_reducible first | apply Keeps.setCtx
    | fail_if_no_progress (with_reducible apply Keeps.upd)
    | split
    | lift_lets

theorem Keeps.ringError (h : Keeps s₀ s) (k : Nat) (index : Option (BitVec 32)) (status : Nat) :
    Keeps s₀ (State.ringError s k index status) := by
  unfold State.ringError
  repeat' first
    | with_reducible assumption
    | with_reducible first | apply Keeps.setCtx | apply Keeps.setRing | apply Keeps.unfetch

theorem Keeps.ringStopped (h : Keeps s₀ s) (k : Nat) : Keeps s₀ (State.ringStopped s k) := by
  unfold State.ringStopped
  repeat' first
    | with_reducible assumption
    | with_reducible first | apply Keeps.setRing
    | split

theorem Keeps.doorbellIgnored (h : Keeps s₀ s) : Keeps s₀ (State.doorbellIgnored s) := by
  unfold State.doorbellIgnored
  repeat' first
    | with_reducible assumption
    | with_reducible first | apply Keeps.satReg

theorem Keeps.doorbell (h : Keeps s₀ s) (requester page ring : Nat) {run : State → Nat → State}
    (hr : ∀ s k, Keeps s₀ s → Keeps s₀ (run s k)) : Keeps s₀ (s.doorbell requester page ring run) := by
  have h1 := h.count 256 1
  unfold State.doorbell
  dsimp only
  split
  · exact h
  · split
    · exact (h1.satReg ..).emitReq ..
    · split
      · exact h1.doorbellIgnored
      · exact hr _ _ h1

theorem Keeps.ctrl (h : Keeps s₀ s) (k : Nat) (states : List RingState) {run : State → State}
    (hr : ∀ s, Keeps s₀ s → Keeps s₀ (run s)) : Keeps s₀ (s.ctrl k states run) := by
  unfold State.ctrl
  split <;> [exact hr _ h; exact h.doorbellIgnored]

theorem KeepsR.execSqTail (h : Keeps s₀ s) (requester page : Requester) (ring : RingNo) (tail : BitVec 32) :
    KeepsR s₀ (Sys2Proof.Machine.execSqTail requester page ring tail s) := by
  unfold Sys2Proof.Machine.execSqTail
  repeat' first
    | with_reducible assumption
    | (intro x; clear_value x)
    | with_reducible apply KeepsR.next
    | with_reducible exact KeepsR.fault
    | with_reducible first | refine Keeps.doorbell ?_ _ _ _ fun s k h => ?_ | apply Keeps.doorbellIgnored
                           | apply Keeps.ringError | apply Keeps.setCtx
    | fail_if_no_progress (with_reducible apply Keeps.upd)
    | split
    | lift_lets

theorem KeepsR.execCqHead (h : Keeps s₀ s) (requester page : Requester) (ring : RingNo) (head : BitVec 32) :
    KeepsR s₀ (Sys2Proof.Machine.execCqHead requester page ring head s) := by
  unfold Sys2Proof.Machine.execCqHead
  repeat' first
    | with_reducible assumption
    | (intro x; clear_value x)
    | with_reducible apply KeepsR.next
    | with_reducible exact KeepsR.fault
    | with_reducible first | refine Keeps.doorbell ?_ _ _ _ fun s k h => ?_ | apply Keeps.doorbellIgnored
                           | apply Keeps.flushRecords | apply Keeps.setCtx
    | fail_if_no_progress (with_reducible apply Keeps.upd)
    | split
    | lift_lets

theorem KeepsR.execRingStart (h : Keeps s₀ s) (requester page : Requester) (ring : RingNo) :
    KeepsR s₀ (Sys2Proof.Machine.execRingStart requester page ring s) := by
  unfold Sys2Proof.Machine.execRingStart
  repeat' first
    | with_reducible assumption
    | with_reducible apply KeepsR.next
    | with_reducible exact KeepsR.fault
    | with_reducible first | refine Keeps.ctrl ?_ _ _ fun s h => ?_ | refine Keeps.doorbell ?_ _ _ _ fun s k h => ?_
                           | apply Keeps.setRing

theorem KeepsR.execRingStop (h : Keeps s₀ s) (requester page : Requester) (ring : RingNo) :
    KeepsR s₀ (Sys2Proof.Machine.execRingStop requester page ring s) := by
  unfold Sys2Proof.Machine.execRingStop
  repeat' first
    | with_reducible assumption
    | with_reducible apply KeepsR.next
    | with_reducible exact KeepsR.fault
    | with_reducible first | refine Keeps.ctrl ?_ _ _ fun s h => ?_ | refine Keeps.doorbell ?_ _ _ _ fun s k h => ?_
                           | apply Keeps.ringStopped | apply Keeps.setRing | apply Keeps.unfetch

theorem KeepsR.execRingResume (h : Keeps s₀ s) (requester page : Requester) (ring : RingNo) :
    KeepsR s₀ (Sys2Proof.Machine.execRingResume requester page ring s) := by
  unfold Sys2Proof.Machine.execRingResume
  repeat' first
    | with_reducible assumption
    | with_reducible apply KeepsR.next
    | with_reducible exact KeepsR.fault
    | with_reducible first | refine Keeps.ctrl ?_ _ _ fun s h => ?_ | refine Keeps.doorbell ?_ _ _ _ fun s k h => ?_
                           | apply Keeps.setRing

theorem KeepsR.execRingReset (h : Keeps s₀ s) (requester page : Requester) (ring : RingNo) :
    KeepsR s₀ (Sys2Proof.Machine.execRingReset requester page ring s) := by
  unfold Sys2Proof.Machine.execRingReset
  repeat' first
    | with_reducible assumption
    | with_reducible apply KeepsR.next
    | with_reducible exact KeepsR.fault
    | with_reducible first | refine Keeps.ctrl ?_ _ _ fun s h => ?_ | refine Keeps.doorbell ?_ _ _ _ fun s k h => ?_
    | fail_if_no_progress (with_reducible apply Keeps.upd)

theorem KeepsR.execContext (h : Keeps s₀ s) (requester page : Requester) (ring : RingNo) (data : Line) :
    KeepsR s₀ (Sys2Proof.Machine.execContext requester page ring data s) := by
  unfold Sys2Proof.Machine.execContext
  repeat' first
    | with_reducible assumption
    | (intro x; clear_value x)
    | with_reducible apply KeepsR.next
    | with_reducible exact KeepsR.fault
    | with_reducible first | refine Keeps.doorbell ?_ _ _ _ fun s k h => ?_ | apply Keeps.emitReq
                           | apply Keeps.satReg | apply Keeps.setCtx | apply Keeps.setRing
    | split
    | lift_lets

theorem KeepsR.execCoalesceTimer (h : Keeps s₀ s) (requester : Requester) (ring : RingNo) :
    KeepsR s₀ (Sys2Proof.Machine.execCoalesceTimer requester ring s) := by
  unfold Sys2Proof.Machine.execCoalesceTimer
  repeat' first
    | with_reducible assumption
    | (intro x; clear_value x)
    | with_reducible apply KeepsR.next
    | with_reducible exact KeepsR.fault
    | with_reducible first | apply Keeps.ringMessage
    | split
    | lift_lets

theorem Keeps.stairCount (h : Keeps s₀ s) (ch k n : Nat) : Keeps s₀ (State.stairCount s ch k n) := by
  unfold State.stairCount
  repeat' first
    | with_reducible assumption
    | with_reducible first | apply Keeps.count

theorem Keeps.startCommand (h : Keeps s₀ s) (c : RingCmd) (ch : Nat) : Keeps s₀ (State.startCommand s c ch) := by
  unfold State.startCommand
  repeat' first
    | with_reducible assumption
    | with_reducible first | apply Keeps.stairCount
    | fail_if_no_progress (with_reducible apply Keeps.upd)

theorem Keeps.fetchCommand (h : Keeps s₀ s) (k : Nat) (d : Line) : Keeps s₀ (State.fetchCommand s k d) := by
  unfold State.fetchCommand
  repeat' first
    | with_reducible assumption
    | with_reducible first | apply Keeps.count | apply Keeps.setCtx
    | fail_if_no_progress (with_reducible apply Keeps.upd)

theorem Keeps.startNext (h : Keeps s₀ s) (k : Nat) : Keeps s₀ (State.startNext s k) := by
  unfold State.startNext
  repeat' first
    | with_reducible assumption
    | with_reducible first | apply Keeps.startCommand
    | fail_if_no_progress (with_reducible apply Keeps.upd)
    | split

theorem KeepsR.execDispatch (h : Keeps s₀ s) (fetched : Option Line) :
    KeepsR s₀ (Sys2Proof.Machine.execDispatch fetched s) := by
  unfold Sys2Proof.Machine.execDispatch
  repeat' first
    | with_reducible assumption
    | with_reducible apply KeepsR.next
    | with_reducible exact KeepsR.fault
    | with_reducible first | apply Keeps.fetchCommand | apply Keeps.ringError | apply Keeps.startNext
    | fail_if_no_progress (with_reducible apply Keeps.upd)
    | split

theorem KeepsR.execCommandComplete (h : Keeps s₀ s) (ch : StairCh) :
    KeepsR s₀ (Sys2Proof.Machine.execCommandComplete ch s) := by
  unfold Sys2Proof.Machine.execCommandComplete
  repeat' first
    | with_reducible assumption
    | (intro s; refine Keeps.cut (a := s₀) s ?_ ?_ <;> [subst s; (intro h; clear_value s)])
    | (intro x; clear_value x)
    | with_reducible apply KeepsR.next
    | with_reducible exact KeepsR.fault
    | with_reducible first | apply Keeps.emit | apply Keeps.record | apply Keeps.ringError | apply Keeps.ringStopped
                           | apply Keeps.satReg
    | fail_if_no_progress (with_reducible apply Keeps.upd)
    | split
    | lift_lets

end Sys2Proof.Machine
end

