-- ==== Sys2Proof/Laws/KeepsStair.lean ====
section
/-! SUPPORT. What the operations of Machine/Stair.lean keep, in the sense of Laws/Keeps.lean. -/

namespace Sys2Proof.Machine

variable {s₀ s t : State}

/-- The same of a Stair write's end. -/
def KeepsW (s : State) : WriteEnd → Prop
  | .done t => Keeps s t
  | .waits => True
  | .fails _ t => Keeps s t

theorem KeepsW.stairWrite (h : Keeps s₀ s) (wing k : Nat) (w : StairWrite) : KeepsW s₀ (s.stairWrite wing k w) := by
  unfold State.stairWrite
  split
  · split
    · exact h
    · next r _ =>
      have h1 := h.invalidateHosts w.id (w.addr / 4096) (w.addr / 64 % 64)
      have h2 := h1.storeLine (k / 64) w.id (w.addr / 4096) (w.addr / 64 % 64) w.data w.mask w.poison
      dsimp only
      split
      · exact h
      · split
        · trivial
        · split
          · exact h1
          · split <;>
            · show Keeps s₀ _
              split
              · exact h2
              · exact h2.ownWritten ..
  · split
    · exact h
    · exact Keeps.foldl h fun s x (h : Keeps s₀ s) => h.send _

theorem Keeps.modChan (h : Keeps s₀ s) (ch : Nat) (f : Channel → Channel) : Keeps s₀ (State.modChan s ch f) := by
  unfold State.modChan
  repeat' first
    | with_reducible assumption
    | fail_if_no_progress (with_reducible apply Keeps.upd)

theorem Keeps.endChan (h : Keeps s₀ s) (ch status : Nat) (result : Word) :
    Keeps s₀ (State.endChan s ch status result) := by
  unfold State.endChan
  repeat' first
    | with_reducible assumption
    | with_reducible first | apply Keeps.modChan

theorem Keeps.stairMoved (h : Keeps s₀ s) (ch n : Nat) : Keeps s₀ (State.stairMoved s ch n) := by
  unfold State.stairMoved
  repeat' first
    | with_reducible assumption
    | with_reducible first | apply Keeps.satReg | apply Keeps.stairCount

theorem Keeps.stairSeen (h : Keeps s₀ s) (ch room addr type : Nat) :
    Keeps s₀ (State.stairSeen s ch room addr type) := by
  unfold State.stairSeen
  repeat' first
    | with_reducible assumption
    | (intro s; refine Keeps.cut (a := s₀) s ?_ ?_ <;> [subst s; (intro h; clear_value s)])
    | (intro x; clear_value x)
    | with_reducible first | apply Keeps.sampleRecord
    | fail_if_no_progress (with_reducible apply Keeps.upd)
    | split
    | lift_lets

theorem Keeps.stairFlush (n : Nat) (h : Keeps s₀ s) (ch : Nat) (at_ : Option Word) :
    Keeps s₀ (State.stairFlush n s ch at_) := by
  induction n generalizing s with
  | zero => exact h
  | succ n ih =>
    unfold State.stairFlush
    split
    · exact h
    · next c _ =>
      split
      · exact h
      · next w rest _ =>
        have h1 := KeepsW.stairWrite h (ch / 32) c.ring w
        split
        · exact h
        · next e => rw [e] at h1; exact Keeps.endChan h1 ..
        · next e =>
          rw [e] at h1
          refine ih ?_
          refine Keeps.stairMoved (Keeps.modChan ?_ ..) ..
          split
          · exact Keeps.stairSeen h1 ..
          · exact h1

theorem KeepsR.onCommand (h : Keeps s₀ s) (ch op : Nat) {run : State → Channel → StairCmd → State}
    (hr : ∀ s c d, Keeps s₀ s → Keeps s₀ (run s c d)) : KeepsR s₀ (s.onCommand ch op run) := by
  unfold State.onCommand
  split
  · exact KeepsR.next h
  · dsimp only
    split
    · exact KeepsR.next h
    · exact KeepsR.next (hr _ _ _ h).settle

theorem KeepsR.onInstr (h : Keeps s₀ s) (ch : Nat) {run : State → Channel → StairInstr → State}
    (hr : ∀ s c i, Keeps s₀ s → Keeps s₀ (run s c i)) : KeepsR s₀ (s.onInstr ch run) := by
  refine KeepsR.onCommand h _ _ fun s c d h => ?_
  split <;> [exact hr _ _ _ h; exact h]

theorem Keeps.overPages (h : Keeps s₀ s) (ch : Nat) (c : Channel) (d : StairCmd)
    {step : State → RoomCfg → Nat → State × Nat × Nat} (hr : ∀ s c p, Keeps s₀ s → Keeps s₀ (step s c p).1) :
    Keeps s₀ (s.overPages ch c d step) := by
  unfold State.overPages
  dsimp only
  split
  · exact h.endChan ..
  · split
    · exact h
    · refine Keeps.endChan (Keeps.foldlFst h fun x y h => ?_) ..
      split
      · exact h
      · exact hr _ _ _ h

theorem Keeps.stairReads (h : Keeps s₀ s) (ch space room addr len : Nat) :
    Keeps s₀ (State.stairReads s ch space room addr len) := by
  unfold State.stairReads
  repeat' first
    | with_reducible assumption
    | (intro s; refine Keeps.cut (a := s₀) s ?_ ?_ <;> [subst s; (intro h; clear_value s)])
    | (intro x; clear_value x)
    | with_reducible first | apply Keeps.share | apply Keeps.stairCount | apply Keeps.stairSeen
    | fail_if_no_progress (with_reducible apply Keeps.upd)
    | with_reducible refine Keeps.foldl ?_ fun s x h => ?_
    | with_reducible refine Keeps.foldlFst ?_ fun s x h => ?_
    | with_reducible refine Keeps.foldlSnd ?_ fun s x h => ?_
    | split
    | lift_lets

theorem Keeps.stairGo (h : Keeps s₀ s) (ch : Nat) : Keeps s₀ (State.stairGo s ch) := by
  unfold State.stairGo
  repeat' first
    | with_reducible assumption
    | (intro s; refine Keeps.cut (a := s₀) s ?_ ?_ <;> [subst s; (intro h; clear_value s)])
    | with_reducible first | apply Keeps.endChan | apply Keeps.stairFlush
    | fail_if_no_progress (with_reducible apply Keeps.upd)
    | split
    | lift_lets

theorem KeepsR.execCopy (h : Keeps s₀ s) (ch : StairCh) (source : List Byte) :
    KeepsR s₀ (Sys2Proof.Machine.execCopy ch source s) := by
  unfold Sys2Proof.Machine.execCopy
  repeat' first
    | with_reducible assumption
    | with_reducible apply KeepsR.next
    | with_reducible exact KeepsR.fault
    | with_reducible first | apply Keeps.endChan | apply Keeps.modChan
                           | refine KeepsR.onCommand ?_ _ _ fun s c d h => ?_ | apply Keeps.stairGo
                           | apply Keeps.stairReads
    | fail_if_no_progress (with_reducible apply Keeps.upd)
    | split

theorem KeepsR.execZero (h : Keeps s₀ s) (ch : StairCh) : KeepsR s₀ (Sys2Proof.Machine.execZero ch s) := by
  unfold Sys2Proof.Machine.execZero
  repeat' first
    | with_reducible assumption
    | with_reducible apply KeepsR.next
    | with_reducible exact KeepsR.fault
    | with_reducible first | apply Keeps.modChan | refine KeepsR.onCommand ?_ _ _ fun s c d h => ?_
                           | apply Keeps.stairGo
    | fail_if_no_progress (with_reducible apply Keeps.upd)
    | split

theorem Keeps.releaseStep (h : Keeps s₀ s) (room : Nat) (secure : Bool) (_c : RoomCfg) (page : Nat) :
    Keeps s₀ (State.releaseStep room secure s _c page).1 := by
  unfold State.releaseStep
  repeat' first
    | with_reducible assumption
    | with_reducible first | apply Keeps.releasePage
    | split

theorem KeepsR.execRelease (h : Keeps s₀ s) (ch : StairCh) : KeepsR s₀ (Sys2Proof.Machine.execRelease ch s) := by
  unfold Sys2Proof.Machine.execRelease
  repeat' first
    | with_reducible assumption
    | with_reducible apply KeepsR.next
    | with_reducible exact KeepsR.fault
    | with_reducible first | refine KeepsR.onCommand ?_ _ _ fun s c d h => ?_
                           | refine Keeps.overPages ?_ _ _ _ fun s c p h => ?_ | apply Keeps.releaseStep
    | split

theorem KeepsR.execSecureRelease (h : Keeps s₀ s) (ch : StairCh) :
    KeepsR s₀ (Sys2Proof.Machine.execSecureRelease ch s) := by
  unfold Sys2Proof.Machine.execSecureRelease
  repeat' first
    | with_reducible assumption
    | with_reducible apply KeepsR.next
    | with_reducible exact KeepsR.fault
    | with_reducible first | refine KeepsR.onCommand ?_ _ _ fun s c d h => ?_
                           | refine Keeps.overPages ?_ _ _ _ fun s c p h => ?_ | apply Keeps.releaseStep
    | split

theorem Keeps.prefetchStep (h : Keeps s₀ s) (room : Nat) (c : RoomCfg) (page : Nat) :
    Keeps s₀ (State.prefetchStep room s c page).1 := by
  unfold State.prefetchStep
  repeat' first
    | with_reducible assumption
    | with_reducible first | apply Keeps.promote
    | split

theorem KeepsR.execPrefetch (h : Keeps s₀ s) (ch : StairCh) : KeepsR s₀ (Sys2Proof.Machine.execPrefetch ch s) := by
  unfold Sys2Proof.Machine.execPrefetch
  repeat' first
    | with_reducible assumption
    | with_reducible apply KeepsR.next
    | with_reducible exact KeepsR.fault
    | with_reducible first | apply Keeps.endChan | refine KeepsR.onCommand ?_ _ _ fun s c d h => ?_
                           | refine Keeps.overPages ?_ _ _ _ fun s c p h => ?_ | apply Keeps.prefetchStep
    | split

theorem Keeps.setPinned (h : Keeps s₀ s) (room page : Nat) (on : Bool) :
    Keeps s₀ (State.setPinned s room page on) := by
  unfold State.setPinned
  repeat' first
    | with_reducible assumption
    | with_reducible first | apply Keeps.journalEntry | apply Keeps.setPage

theorem Keeps.pinStep (h : Keeps s₀ s) (room : Nat) (_c : RoomCfg) (page : Nat) :
    Keeps s₀ (State.pinStep room s _c page).1 := by
  unfold State.pinStep
  repeat' first
    | with_reducible assumption
    | (intro x; clear_value x)
    | with_reducible first | apply Keeps.promote | apply Keeps.setPinned
    | split
    | lift_lets

theorem KeepsR.execPin (h : Keeps s₀ s) (ch : StairCh) : KeepsR s₀ (Sys2Proof.Machine.execPin ch s) := by
  unfold Sys2Proof.Machine.execPin
  repeat' first
    | with_reducible assumption
    | with_reducible apply KeepsR.next
    | with_reducible exact KeepsR.fault
    | with_reducible first | apply Keeps.endChan | refine KeepsR.onCommand ?_ _ _ fun s c d h => ?_
                           | refine Keeps.overPages ?_ _ _ _ fun s c p h => ?_ | apply Keeps.pinStep
    | split

theorem Keeps.unpinStep (h : Keeps s₀ s) (room : Nat) (_c : RoomCfg) (page : Nat) :
    Keeps s₀ (State.unpinStep room s _c page).1 := by
  unfold State.unpinStep
  repeat' first
    | with_reducible assumption
    | (intro x; clear_value x)
    | with_reducible first | apply Keeps.setPinned
    | split
    | lift_lets

theorem KeepsR.execUnpin (h : Keeps s₀ s) (ch : StairCh) : KeepsR s₀ (Sys2Proof.Machine.execUnpin ch s) := by
  unfold Sys2Proof.Machine.execUnpin
  repeat' first
    | with_reducible assumption
    | with_reducible apply KeepsR.next
    | with_reducible exact KeepsR.fault
    | with_reducible first | refine KeepsR.onCommand ?_ _ _ fun s c d h => ?_
                           | refine Keeps.overPages ?_ _ _ _ fun s c p h => ?_ | apply Keeps.unpinStep
                           | apply Keeps.repin

theorem KeepsR.execPersistBarrier (h : Keeps s₀ s) (ch : StairCh) :
    KeepsR s₀ (Sys2Proof.Machine.execPersistBarrier ch s) := by
  unfold Sys2Proof.Machine.execPersistBarrier
  repeat' first
    | with_reducible assumption
    | with_reducible apply KeepsR.next
    | with_reducible exact KeepsR.fault
    | with_reducible first | apply Keeps.endChan | refine KeepsR.onCommand ?_ _ _ fun s c d h => ?_
    | split

theorem Keeps.sendPage (h : Keeps s₀ s) (c : RoomCfg) (room page peer addr : Nat) :
    Keeps s₀ (State.sendPage s c room page peer addr).1 := by
  unfold State.sendPage
  repeat' first
    | with_reducible assumption
    | with_reducible first | apply Keeps.send
    | fail_if_no_progress (with_reducible apply Keeps.upd)
    | with_reducible refine Keeps.foldl ?_ fun s x h => ?_
    | with_reducible refine Keeps.foldlFst ?_ fun s x h => ?_
    | with_reducible refine Keeps.foldlSnd ?_ fun s x h => ?_
    | split

theorem Keeps.sendReleases (h : Keeps s₀ s) (room : Nat) (pages : List Nat) :
    Keeps s₀ (State.sendReleases s room pages) := by
  unfold State.sendReleases
  repeat' first
    | with_reducible assumption
    | with_reducible first | apply Keeps.landingSend
    | fail_if_no_progress (with_reducible apply Keeps.upd)
    | with_reducible refine Keeps.foldl ?_ fun s x h => ?_
    | with_reducible refine Keeps.foldlFst ?_ fun s x h => ?_
    | with_reducible refine Keeps.foldlSnd ?_ fun s x h => ?_
    | split

theorem Keeps.countRound (h : Keeps s₀ s) : Keeps s₀ (State.countRound s) := by
  unfold State.countRound
  repeat' first
    | with_reducible assumption
    | with_reducible first | apply Keeps.satReg
    | fail_if_no_progress (with_reducible apply Keeps.upd)
    | split

theorem Keeps.roundFailed (h : Keeps s₀ s) (k : Nat) : Keeps s₀ (State.roundFailed s k) := by
  unfold State.roundFailed
  repeat' first
    | with_reducible assumption
    | fail_if_no_progress (with_reducible apply Keeps.upd)
    | split

theorem Keeps.sendRound (h : Keeps s₀ s) (c : RoomCfg) (d : StairCmd) : Keeps s₀ (State.sendRound s c d).1 := by
  unfold State.sendRound
  repeat' first
    | with_reducible assumption
    | with_reducible first | apply Keeps.sendPage | apply Keeps.sendReleases | apply Keeps.setPage
    | fail_if_no_progress (with_reducible apply Keeps.upd)
    | with_reducible refine Keeps.foldl ?_ fun s x h => ?_
    | with_reducible refine Keeps.foldlFst ?_ fun s x h => ?_
    | with_reducible refine Keeps.foldlSnd ?_ fun s x h => ?_
    | split

theorem KeepsR.execMigrateOut (h : Keeps s₀ s) (ch : StairCh) :
    KeepsR s₀ (Sys2Proof.Machine.execMigrateOut ch s) := by
  unfold Sys2Proof.Machine.execMigrateOut
  repeat' first
    | with_reducible assumption
    | with_reducible apply KeepsR.next
    | with_reducible exact KeepsR.fault
    | with_reducible first | apply Keeps.countRound | apply Keeps.endChan
                           | refine KeepsR.onCommand ?_ _ _ fun s c d h => ?_ | apply Keeps.roundFailed
                           | apply Keeps.sendRound
    | fail_if_no_progress (with_reducible apply Keeps.upd)
    | split

theorem KeepsR.execMigrateIn (h : Keeps s₀ s) (ch : StairCh) : KeepsR s₀ (Sys2Proof.Machine.execMigrateIn ch s) := by
  unfold Sys2Proof.Machine.execMigrateIn
  repeat' first
    | with_reducible assumption
    | (intro x; refine Keeps.inFun x ?_; subst x)
    | (intro x; clear_value x)
    | with_reducible apply KeepsR.next
    | with_reducible exact KeepsR.fault
    | with_reducible first | apply Keeps.endChan | refine KeepsR.onCommand ?_ _ _ fun s c d h => ?_
    | fail_if_no_progress (with_reducible apply Keeps.upd)
    | split
    | lift_lets

theorem Keeps.programAt (h : Keeps s₀ s) (ch : Nat) : Keeps s₀ (State.programAt s ch) := by
  unfold State.programAt
  repeat' first
    | with_reducible assumption
    | with_reducible first | apply Keeps.endChan
    | fail_if_no_progress (with_reducible apply Keeps.upd)
    | split

theorem Keeps.jump (h : Keeps s₀ s) (ch pc : Nat) : Keeps s₀ (State.jump s ch pc) := by
  unfold State.jump
  repeat' first
    | with_reducible assumption
    | with_reducible first | apply Keeps.modChan | apply Keeps.programAt

theorem Keeps.advancePc (h : Keeps s₀ s) (ch : Nat) : Keeps s₀ (State.advancePc s ch) := by
  unfold State.advancePc
  repeat' first
    | with_reducible assumption
    | with_reducible first | apply Keeps.jump
    | fail_if_no_progress (with_reducible apply Keeps.upd)
    | split

theorem KeepsR.execRun (h : Keeps s₀ s) (ch : StairCh) (header program : List StairWord) :
    KeepsR s₀ (Sys2Proof.Machine.execRun ch header program s) := by
  unfold Sys2Proof.Machine.execRun
  repeat' first
    | with_reducible assumption
    | (intro x; clear_value x)
    | with_reducible apply KeepsR.next
    | with_reducible exact KeepsR.fault
    | with_reducible first | apply Keeps.endChan | apply Keeps.modChan
                           | refine KeepsR.onCommand ?_ _ _ fun s c d h => ?_ | apply Keeps.programAt
    | fail_if_no_progress (with_reducible apply Keeps.upd)
    | split
    | lift_lets

theorem Keeps.instrGo (h : Keeps s₀ s) (ch : Nat) : Keeps s₀ (State.instrGo s ch) := by
  unfold State.instrGo
  repeat' first
    | with_reducible assumption
    | (intro s; refine Keeps.cut (a := s₀) s ?_ ?_ <;> [subst s; (intro h; clear_value s)])
    | with_reducible first | apply Keeps.advancePc | apply Keeps.stairFlush
    | fail_if_no_progress (with_reducible apply Keeps.upd)
    | split
    | lift_lets

theorem Keeps.instrLoad (h : Keeps s₀ s) (ch : Nat) (c : Channel) (r : Except Nat (List StairWrite)) :
    Keeps s₀ (State.instrLoad s ch c r) := by
  unfold State.instrLoad
  repeat' first
    | with_reducible assumption
    | with_reducible first | apply Keeps.endChan | apply Keeps.instrGo | apply Keeps.modChan
    | fail_if_no_progress (with_reducible apply Keeps.upd)
    | split

theorem KeepsR.execMove (h : Keeps s₀ s) (ch : StairCh) (source : List Byte) :
    KeepsR s₀ (Sys2Proof.Machine.execMove ch source s) := by
  unfold Sys2Proof.Machine.execMove
  repeat' first
    | with_reducible assumption
    | with_reducible apply KeepsR.next
    | with_reducible exact KeepsR.fault
    | with_reducible first | apply Keeps.endChan | apply Keeps.instrGo | apply Keeps.instrLoad
                           | refine KeepsR.onInstr ?_ _ fun s c i h => ?_ | apply Keeps.stairReads
    | fail_if_no_progress (with_reducible apply Keeps.upd)
    | split

theorem KeepsR.execMove2d (h : Keeps s₀ s) (ch : StairCh) (source : List Byte) :
    KeepsR s₀ (Sys2Proof.Machine.execMove2d ch source s) := by
  unfold Sys2Proof.Machine.execMove2d
  repeat' first
    | with_reducible assumption
    | with_reducible apply KeepsR.next
    | with_reducible exact KeepsR.fault
    | with_reducible first | apply Keeps.count | apply Keeps.instrGo | apply Keeps.instrLoad
                           | refine KeepsR.onInstr ?_ _ fun s c i h => ?_ | apply Keeps.stairReads
    | fail_if_no_progress (with_reducible apply Keeps.upd)
    | with_reducible refine Keeps.foldl ?_ fun s x h => ?_
    | with_reducible refine Keeps.foldlFst ?_ fun s x h => ?_
    | with_reducible refine Keeps.foldlSnd ?_ fun s x h => ?_
    | split
    | dsimp only

theorem KeepsR.execFill (h : Keeps s₀ s) (ch : StairCh) : KeepsR s₀ (Sys2Proof.Machine.execFill ch s) := by
  unfold Sys2Proof.Machine.execFill
  repeat' first
    | with_reducible assumption
    | with_reducible apply KeepsR.next
    | with_reducible exact KeepsR.fault
    | with_reducible first | apply Keeps.instrGo | apply Keeps.instrLoad
                           | refine KeepsR.onInstr ?_ _ fun s c i h => ?_
    | fail_if_no_progress (with_reducible apply Keeps.upd)
    | split

theorem KeepsR.execLoop (h : Keeps s₀ s) (ch : StairCh) : KeepsR s₀ (Sys2Proof.Machine.execLoop ch s) := by
  unfold Sys2Proof.Machine.execLoop
  repeat' first
    | with_reducible assumption
    | (intro x; clear_value x)
    | with_reducible apply KeepsR.next
    | with_reducible exact KeepsR.fault
    | with_reducible first | apply Keeps.advancePc | apply Keeps.count | apply Keeps.jump | apply Keeps.modChan
                           | refine KeepsR.onInstr ?_ _ fun s c i h => ?_
    | fail_if_no_progress (with_reducible apply Keeps.upd)
    | split
    | lift_lets

theorem Keeps.takeWait (h : Keeps s₀ s) (requester : Nat) (x : Nat × Nat × Nat) :
    Keeps s₀ (State.takeWait s requester x) := by
  unfold State.takeWait
  repeat' first
    | with_reducible assumption
    | fail_if_no_progress (with_reducible apply Keeps.upd)
    | split

theorem Keeps.serveWaiters (h : Keeps s₀ s) (requester : Nat) : Keeps s₀ (State.serveWaiters s requester) := by
  unfold State.serveWaiters
  repeat' first
    | with_reducible assumption
    | with_reducible first | apply Keeps.advancePc | apply Keeps.takeWait
    | fail_if_no_progress (with_reducible apply Keeps.upd)
    | with_reducible refine Keeps.foldl ?_ fun s x h => ?_
    | with_reducible refine Keeps.foldlFst ?_ fun s x h => ?_
    | with_reducible refine Keeps.foldlSnd ?_ fun s x h => ?_
    | split

theorem Keeps.semAdd (h : Keeps s₀ s) (requester index n : Nat) : Keeps s₀ (State.semAdd s requester index n) := by
  unfold State.semAdd
  repeat' first
    | with_reducible assumption
    | with_reducible first | apply Keeps.serveWaiters
    | fail_if_no_progress (with_reducible apply Keeps.upd)

theorem Keeps.eventSet (h : Keeps s₀ s) (requester : Nat) (flags : BitVec 64) :
    Keeps s₀ (State.eventSet s requester flags) := by
  unfold State.eventSet
  repeat' first
    | with_reducible assumption
    | with_reducible first | apply Keeps.serveWaiters
    | fail_if_no_progress (with_reducible apply Keeps.upd)

theorem KeepsR.execSemAdd (h : Keeps s₀ s) (requester page : Requester) (ring : RingNo) (value : Word) :
    KeepsR s₀ (Sys2Proof.Machine.execSemAdd requester page ring value s) := by
  unfold Sys2Proof.Machine.execSemAdd
  repeat' first
    | with_reducible assumption
    | with_reducible apply KeepsR.next
    | with_reducible exact KeepsR.fault
    | with_reducible first | refine Keeps.doorbell ?_ _ _ _ fun s k h => ?_ | apply Keeps.semAdd

theorem KeepsR.execEventSet (h : Keeps s₀ s) (requester page : Requester) (ring : RingNo) (flags : Word) :
    KeepsR s₀ (Sys2Proof.Machine.execEventSet requester page ring flags s) := by
  unfold Sys2Proof.Machine.execEventSet
  repeat' first
    | with_reducible assumption
    | with_reducible apply KeepsR.next
    | with_reducible exact KeepsR.fault
    | with_reducible first | refine Keeps.doorbell ?_ _ _ _ fun s k h => ?_ | apply Keeps.eventSet

theorem KeepsR.execWaitInstr (h : Keeps s₀ s) (ch : StairCh) : KeepsR s₀ (Sys2Proof.Machine.execWaitInstr ch s) := by
  unfold Sys2Proof.Machine.execWaitInstr
  repeat' first
    | with_reducible assumption
    | (intro x; refine Keeps.inFun x ?_; subst x)
    | (intro x; clear_value x)
    | with_reducible apply KeepsR.next
    | with_reducible exact KeepsR.fault
    | with_reducible first | apply Keeps.advancePc | apply Keeps.modChan
                           | refine KeepsR.onInstr ?_ _ fun s c i h => ?_ | apply Keeps.takeWait
    | fail_if_no_progress (with_reducible apply Keeps.upd)
    | split
    | lift_lets

theorem KeepsR.execBeatWaitEnd (h : Keeps s₀ s) (ch : StairCh) :
    KeepsR s₀ (Sys2Proof.Machine.execBeatWaitEnd ch s) := by
  unfold Sys2Proof.Machine.execBeatWaitEnd
  repeat' first
    | with_reducible assumption
    | with_reducible apply KeepsR.next
    | with_reducible exact KeepsR.fault
    | with_reducible first | apply Keeps.advancePc | refine KeepsR.onInstr ?_ _ fun s c i h => ?_
    | fail_if_no_progress (with_reducible apply Keeps.upd)
    | split

theorem KeepsR.execWaitTimeout (h : Keeps s₀ s) (ch : StairCh) :
    KeepsR s₀ (Sys2Proof.Machine.execWaitTimeout ch s) := by
  unfold Sys2Proof.Machine.execWaitTimeout
  repeat' first
    | with_reducible assumption
    | with_reducible apply KeepsR.next
    | with_reducible exact KeepsR.fault
    | with_reducible first | apply Keeps.endChan | refine KeepsR.onInstr ?_ _ fun s c i h => ?_
    | fail_if_no_progress (with_reducible apply Keeps.upd)
    | split

theorem KeepsR.execSignal (h : Keeps s₀ s) (ch : StairCh) : KeepsR s₀ (Sys2Proof.Machine.execSignal ch s) := by
  unfold Sys2Proof.Machine.execSignal
  repeat' first
    | with_reducible assumption
    | (intro x; clear_value x)
    | with_reducible apply KeepsR.next
    | with_reducible exact KeepsR.fault
    | with_reducible first | apply Keeps.advancePc | apply Keeps.eventSet
                           | refine KeepsR.onInstr ?_ _ fun s c i h => ?_ | apply Keeps.record
                           | apply Keeps.ringMessage | apply Keeps.semAdd
    | fail_if_no_progress (with_reducible apply Keeps.upd)
    | split
    | lift_lets

theorem KeepsR.execPersist (h : Keeps s₀ s) (ch : StairCh) : KeepsR s₀ (Sys2Proof.Machine.execPersist ch s) := by
  unfold Sys2Proof.Machine.execPersist
  repeat' first
    | with_reducible assumption
    | with_reducible apply KeepsR.next
    | with_reducible exact KeepsR.fault
    | with_reducible first | apply Keeps.advancePc | refine KeepsR.onInstr ?_ _ fun s c i h => ?_
    | fail_if_no_progress (with_reducible apply Keeps.upd)
    | split

theorem KeepsR.execLineRequestTimeout (h : Keeps s₀ s) (ch : StairCh) :
    KeepsR s₀ (Sys2Proof.Machine.execLineRequestTimeout ch s) := by
  unfold Sys2Proof.Machine.execLineRequestTimeout
  repeat' first
    | with_reducible assumption
    | with_reducible apply KeepsR.next
    | with_reducible exact KeepsR.fault
    | with_reducible first | apply Keeps.endChan | apply Keeps.roundFailed
    | fail_if_no_progress (with_reducible apply Keeps.upd)
    | split

theorem KeepsR.execPause (h : Keeps s₀ s) (ch : StairCh) (on : Bool) :
    KeepsR s₀ (Sys2Proof.Machine.execPause ch on s) := by
  unfold Sys2Proof.Machine.execPause
  repeat' first
    | with_reducible assumption
    | with_reducible apply KeepsR.next
    | with_reducible exact KeepsR.fault
    | with_reducible first | apply Keeps.setFlag
    | split

theorem KeepsR.execAbort (h : Keeps s₀ s) (ch : StairCh) : KeepsR s₀ (Sys2Proof.Machine.execAbort ch s) := by
  unfold Sys2Proof.Machine.execAbort
  repeat' first
    | with_reducible assumption
    | with_reducible apply KeepsR.next
    | with_reducible exact KeepsR.fault
    | with_reducible first | apply Keeps.endChan
    | fail_if_no_progress (with_reducible apply Keeps.upd)
    | split

end Sys2Proof.Machine
end

