-- ==== Sys2Proof/Laws/KeepsAttic.lean ====
section
/-! SUPPORT. What the operations of Machine/Attic.lean keep, in the sense of Laws/Keeps.lean. -/

namespace Sys2Proof.Machine

variable {s₀ s t : State}

theorem Keeps.withBuffered (h : Keeps s₀ s) (p : Nat) : Keeps s₀ (State.withBuffered s p) := by
  unfold State.withBuffered
  repeat' first
    | with_reducible assumption
    | with_reducible first | apply Keeps.flushOne
    | with_reducible refine Keeps.foldl ?_ fun s x h => ?_

theorem KeepsR.execAtticRead (h : Keeps s₀ s) (from_ : Sender) (part : Fin 11) (slot : Nat) (count : Nat) :
    KeepsR s₀ (Sys2Proof.Machine.execAtticRead from_ part slot count s) := by
  unfold Sys2Proof.Machine.execAtticRead
  repeat' first
    | with_reducible assumption
    | with_reducible apply KeepsR.next
    | with_reducible exact KeepsR.fault
    | with_reducible first | apply Keeps.count | apply Keeps.mailRead

theorem Keeps.clearPart (h : Keeps s₀ s) (p : Nat) : Keeps s₀ (State.clearPart s p) := by
  unfold State.clearPart
  repeat' first
    | with_reducible assumption
    | with_reducible first | apply Keeps.atticNote | apply Keeps.emit | apply Keeps.satReg | apply Keeps.withBuffered
    | fail_if_no_progress (with_reducible apply Keeps.upd)

theorem Keeps.useToken (h : Keeps s₀ s) (p : Nat) (nonce : BitVec 128) (member term : Nat) (signatureOk : Bool) :
    Keeps s₀ (State.useToken s p nonce member term signatureOk).1 := by
  unfold State.useToken
  repeat' first
    | with_reducible assumption
    | with_reducible first | apply Keeps.atticNote | apply Keeps.clearPart | apply Keeps.free
    | fail_if_no_progress (with_reducible apply Keeps.upd)
    | split

theorem KeepsR.execAtticClear (h : Keeps s₀ s) (from_ : Sender) (part : Fin 11) (nonce : BitVec 128) (member : Nat) (term : Word) (signatureOk : Bool) :
    KeepsR s₀ (Sys2Proof.Machine.execAtticClear from_ part nonce member term signatureOk s) := by
  unfold Sys2Proof.Machine.execAtticClear
  repeat' first
    | with_reducible assumption
    | with_reducible apply KeepsR.next
    | with_reducible exact KeepsR.fault
    | with_reducible first | refine Keeps.mailbox ?_ _ _ fun s h => ?_ | apply Keeps.useToken

end Sys2Proof.Machine
end

