-- ==== Sys2Proof/Laws/KeepsMeasure.lean ====
section
/-! SUPPORT. What the operations of Machine/Measure.lean keep, in the sense of Laws/Keeps.lean. -/

namespace Sys2Proof.Machine

variable {s₀ s t : State}

theorem Keeps.snapshot (h : Keeps s₀ s) (late skipped : Bool) : Keeps s₀ (State.snapshot s late skipped) := by
  unfold State.snapshot
  repeat' first
    | with_reducible assumption
    | (intro s; refine Keeps.cut (a := s₀) s ?_ ?_ <;> [subst s; (intro h; clear_value s)])
    | (intro x; clear_value x)
    | with_reducible first | apply Keeps.setFlag | apply Keeps.setReg
    | fail_if_no_progress (with_reducible apply Keeps.upd)
    | split
    | lift_lets

theorem Keeps.setArmed (h : Keeps s₀ s) (b : Option Nat) : Keeps s₀ (State.setArmed s b) := by
  unfold State.setArmed
  repeat' first
    | with_reducible assumption
    | with_reducible first | apply Keeps.setFlag
    | fail_if_no_progress (with_reducible apply Keeps.upd)

theorem Keeps.armAt (h : Keeps s₀ s) (b : Nat) : Keeps s₀ (State.armAt s b) := by
  unfold State.armAt
  repeat' first
    | with_reducible assumption
    | with_reducible first | apply Keeps.setArmed | apply Keeps.snapshot
    | split

theorem KeepsR.execCounterSnapshot (h : Keeps s₀ s) : KeepsR s₀ (Sys2Proof.Machine.execCounterSnapshot s) := by
  unfold Sys2Proof.Machine.execCounterSnapshot
  repeat' first
    | with_reducible assumption
    | with_reducible apply KeepsR.next
    | with_reducible exact KeepsR.fault
    | with_reducible first | apply Keeps.setArmed | apply Keeps.snapshot
    | fail_if_no_progress (with_reducible apply Keeps.upd)
    | split

theorem KeepsR.execPmcFreeze (h : Keeps s₀ s) (on : Bool) : KeepsR s₀ (Sys2Proof.Machine.execPmcFreeze on s) := by
  unfold Sys2Proof.Machine.execPmcFreeze
  repeat' first
    | with_reducible assumption
    | with_reducible apply KeepsR.next
    | with_reducible exact KeepsR.fault
    | with_reducible first | apply Keeps.setFlag
    | split

theorem KeepsR.execSnapNow (h : Keeps s₀ s) : KeepsR s₀ (Sys2Proof.Machine.execSnapNow s) := by
  unfold Sys2Proof.Machine.execSnapNow
  repeat' first
    | with_reducible assumption
    | with_reducible apply KeepsR.next
    | with_reducible exact KeepsR.fault
    | with_reducible first | apply Keeps.snapshot
    | split

theorem KeepsR.execArm (h : Keeps s₀ s) : KeepsR s₀ (Sys2Proof.Machine.execArm s) := by
  unfold Sys2Proof.Machine.execArm
  repeat' first
    | with_reducible assumption
    | with_reducible apply KeepsR.next
    | with_reducible exact KeepsR.fault
    | with_reducible first | apply Keeps.armAt
    | split

theorem KeepsR.execDisarm (h : Keeps s₀ s) : KeepsR s₀ (Sys2Proof.Machine.execDisarm s) := by
  unfold Sys2Proof.Machine.execDisarm
  repeat' first
    | with_reducible assumption
    | with_reducible apply KeepsR.next
    | with_reducible exact KeepsR.fault
    | with_reducible first | apply Keeps.setArmed
    | split

theorem Keeps.preset (h : Keeps s₀ s) (c v : Nat) : Keeps s₀ (State.preset s c v) := by
  unfold State.preset
  repeat' first
    | with_reducible assumption
    | with_reducible first | apply Keeps.setReg
    | fail_if_no_progress (with_reducible apply Keeps.upd)

theorem KeepsR.execPmcWin (h : Keeps s₀ s) (block : Option Wing) (i : Fin 128) (value : BitVec 48) :
    KeepsR s₀ (Sys2Proof.Machine.execPmcWin block i value s) := by
  unfold Sys2Proof.Machine.execPmcWin
  repeat' first
    | with_reducible assumption
    | with_reducible apply KeepsR.next
    | with_reducible exact KeepsR.fault
    | with_reducible first | apply Keeps.preset
    | fail_if_no_progress (with_reducible apply Keeps.upd)
    | split

theorem KeepsR.execCounterWrap (h : Keeps s₀ s) (counter : Fin 6656) :
    KeepsR s₀ (Sys2Proof.Machine.execCounterWrap counter s) := by
  unfold Sys2Proof.Machine.execCounterWrap
  repeat' first
    | with_reducible assumption
    | with_reducible apply KeepsR.next
    | with_reducible exact KeepsR.fault
    | with_reducible first | apply Keeps.wrapped
    | fail_if_no_progress (with_reducible apply Keeps.upd)
    | split

theorem Keeps.setSamplePtr (h : Keeps s₀ s) (w next : Nat) : Keeps s₀ (State.setSamplePtr s w next) := by
  unfold State.setSamplePtr
  repeat' first
    | with_reducible assumption
    | with_reducible first | apply Keeps.setFlag | apply Keeps.setReg
    | fail_if_no_progress (with_reducible apply Keeps.upd)

theorem KeepsR.execPmcSmpPtr (h : Keeps s₀ s) (w : Wing) (next : BitVec 20) :
    KeepsR s₀ (Sys2Proof.Machine.execPmcSmpPtr w next s) := by
  unfold Sys2Proof.Machine.execPmcSmpPtr
  repeat' first
    | with_reducible assumption
    | with_reducible apply KeepsR.next
    | with_reducible exact KeepsR.fault
    | with_reducible first | apply Keeps.setSamplePtr
    | split

theorem Keeps.bistStart (h : Keeps s₀ s) (t kind : Nat) : Keeps s₀ (State.bistStart s t kind) := by
  unfold State.bistStart
  repeat' first
    | with_reducible assumption
    | (intro s; refine Keeps.cut (a := s₀) s ?_ ?_ <;> [subst s; (intro h; clear_value s)])
    | (intro x; clear_value x)
    | with_reducible first | apply Keeps.setReg | apply Keeps.switchGroup
    | fail_if_no_progress (with_reducible apply Keeps.upd)
    | with_reducible refine Keeps.foldl ?_ fun s x h => ?_
    | with_reducible refine Keeps.foldlFst ?_ fun s x h => ?_
    | with_reducible refine Keeps.foldlSnd ?_ fun s x h => ?_
    | split
    | lift_lets

theorem KeepsR.execLbist (h : Keeps s₀ s) (target : Fin 16) : KeepsR s₀ (Sys2Proof.Machine.execLbist target s) := by
  unfold Sys2Proof.Machine.execLbist
  repeat' first
    | with_reducible assumption
    | with_reducible apply KeepsR.next
    | with_reducible exact KeepsR.fault
    | with_reducible first | apply Keeps.bistStart

theorem KeepsR.execMbist (h : Keeps s₀ s) (target : Fin 16) : KeepsR s₀ (Sys2Proof.Machine.execMbist target s) := by
  unfold Sys2Proof.Machine.execMbist
  repeat' first
    | with_reducible assumption
    | with_reducible apply KeepsR.next
    | with_reducible exact KeepsR.fault
    | with_reducible first | apply Keeps.bistStart

theorem KeepsR.execLbistAndMbist (h : Keeps s₀ s) (target : Fin 16) :
    KeepsR s₀ (Sys2Proof.Machine.execLbistAndMbist target s) := by
  unfold Sys2Proof.Machine.execLbistAndMbist
  repeat' first
    | with_reducible assumption
    | with_reducible apply KeepsR.next
    | with_reducible exact KeepsR.fault
    | with_reducible first | apply Keeps.bistStart

theorem Keeps.bistOver (h : Keeps s₀ s) (w : Nat) (ret ok : Bool) : Keeps s₀ (State.bistOver s w ret ok) := by
  unfold State.bistOver
  repeat' first
    | with_reducible assumption
    | (intro s; refine Keeps.cut (a := s₀) s ?_ ?_ <;> [subst s; (intro h; clear_value s)])
    | (intro x; refine Keeps.inFun x ?_; subst x)
    | (intro x; clear_value x)
    | with_reducible first | apply Keeps.bringBack | apply Keeps.setReg | apply Keeps.setSvc
                           | apply Keeps.switchGroup | apply Keeps.trainNext
    | fail_if_no_progress (with_reducible apply Keeps.upd)
    | with_reducible refine Keeps.foldl ?_ fun s x h => ?_
    | with_reducible refine Keeps.foldlFst ?_ fun s x h => ?_
    | with_reducible refine Keeps.foldlSnd ?_ fun s x h => ?_
    | split
    | lift_lets

theorem KeepsR.execBistDone (h : Keeps s₀ s) (target : Fin 9) (lbistMisr mbistMisr : Word) :
    KeepsR s₀ (Sys2Proof.Machine.execBistDone target lbistMisr mbistMisr s) := by
  unfold Sys2Proof.Machine.execBistDone
  repeat' first
    | with_reducible assumption
    | (intro s; refine Keeps.cut (a := s₀) s ?_ ?_ <;> [subst s; (intro h; clear_value s)])
    | (intro x; clear_value x)
    | with_reducible apply KeepsR.next
    | with_reducible exact KeepsR.fault
    | with_reducible first | apply Keeps.bistOver | apply Keeps.bistResult
    | fail_if_no_progress (with_reducible apply Keeps.upd)
    | split
    | lift_lets

end Sys2Proof.Machine
end

