-- ==== Sys2Proof/Laws/KeepsLanding.lean ====
section
/-! SUPPORT. What the operations of Machine/Landing.lean keep, in the sense of Laws/Keeps.lean. -/

namespace Sys2Proof.Machine

variable {s₀ s t : State}

theorem Keeps.poolCommand (h : Keeps s₀ s) (f : Sender) (opcode : Nat)
    {run : State → State × Option (RetCode × List Word)} (hr : ∀ s, Keeps s₀ s → Keeps s₀ (run s).1) :
    Keeps s₀ (s.poolCommand f opcode run) := by
  have h1 := hr s h
  unfold State.poolCommand
  split
  · exact h
  · split
    · exact h.barRefused ..
    · split
      · exact h.mailAnswer ..
      · split
        · next e => rw [e] at h1; exact h1.mailAnswer ..
        · next e => rw [e] at h1; exact h1

theorem Keeps.putDir (h : Keeps s₀ s) (d : DirRoom) : Keeps s₀ (State.putDir s d) := by
  unfold State.putDir
  repeat' first
    | with_reducible assumption
    | with_reducible first | apply Keeps.mirrorChange
    | fail_if_no_progress (with_reducible apply Keeps.upd)

theorem Keeps.setDirStep (h : Keeps s₀ s) (d : DirRoom) (step target : Nat) :
    Keeps s₀ (State.setDirStep s d step target) := by
  unfold State.setDirStep
  repeat' first
    | with_reducible assumption
    | with_reducible first | apply Keeps.putDir

theorem Keeps.recordRooms (h : Keeps s₀ s) (device : Nat) (rooms : List RoomCfg) :
    Keeps s₀ (State.recordRooms s device rooms) := by
  unfold State.recordRooms
  repeat' first
    | with_reducible assumption
    | (intro s; refine Keeps.cut (a := s₀) s ?_ ?_ <;> [subst s; (intro h; clear_value s)])
    | (intro x; clear_value x)
    | with_reducible first | apply Keeps.mirrorChange
    | fail_if_no_progress (with_reducible apply Keeps.upd)
    | with_reducible refine Keeps.foldl ?_ fun s x h => ?_
    | with_reducible refine Keeps.foldlFst ?_ fun s x h => ?_
    | with_reducible refine Keeps.foldlSnd ?_ fun s x h => ?_
    | split
    | lift_lets

theorem Keeps.sendAmendment (h : Keeps s₀ s) (peer : Nat) (b : List Byte) (rooms : List RoomCfg) (asker : Option Sender) :
    Keeps s₀ (State.sendAmendment s peer b rooms asker) := by
  unfold State.sendAmendment
  repeat' first
    | with_reducible assumption
    | with_reducible first | apply Keeps.landingRequest
    | with_reducible refine Keeps.foldl ?_ fun s x h => ?_

theorem Keeps.sendMigrate (h : Keeps s₀ s) (peer kind room source target : Nat) :
    Keeps s₀ (State.sendMigrate s peer kind room source target) := by
  unfold State.sendMigrate
  repeat' first
    | with_reducible assumption
    | with_reducible first | apply Keeps.landingSend

theorem Keeps.beginTarget (h : Keeps s₀ s) (room source : Nat) : Keeps s₀ (State.beginTarget s room source) := by
  unfold State.beginTarget
  repeat' first
    | with_reducible assumption
    | with_reducible first | apply Keeps.setMig
    | split

theorem Keeps.beginSource (h : Keeps s₀ s) (room target : Nat) : Keeps s₀ (State.beginSource s room target) := by
  unfold State.beginSource
  repeat' first
    | with_reducible assumption
    | with_reducible first | apply Keeps.postOut | apply Keeps.setMig
    | fail_if_no_progress (with_reducible apply Keeps.upd)
    | split

theorem Keeps.startForwarding (h : Keeps s₀ s) (room target : Nat) :
    Keeps s₀ (State.startForwarding s room target) := by
  unfold State.startForwarding
  repeat' first
    | with_reducible assumption
    | with_reducible first | apply Keeps.modRoom | apply Keeps.send | apply Keeps.setMig | apply Keeps.settle
    | fail_if_no_progress (with_reducible apply Keeps.upd)
    | with_reducible refine Keeps.foldl ?_ fun s x h => ?_

theorem Keeps.makeHeld (h : Keeps s₀ s) (room : Nat) : Keeps s₀ (State.makeHeld s room) := by
  unfold State.makeHeld
  repeat' first
    | with_reducible assumption
    | with_reducible first | apply Keeps.offer
    | fail_if_no_progress (with_reducible apply Keeps.upd)
    | with_reducible refine Keeps.foldl ?_ fun s x h => ?_

theorem Keeps.targetCutover (h : Keeps s₀ s) (room : Nat) : Keeps s₀ (State.targetCutover s room) := by
  unfold State.targetCutover
  repeat' first
    | with_reducible assumption
    | with_reducible first | apply Keeps.makeHeld | apply Keeps.setMig
    | fail_if_no_progress (with_reducible apply Keeps.upd)
    | split

theorem Keeps.targetClose (h : Keeps s₀ s) (room : Nat) : Keeps s₀ (State.targetClose s room) := by
  unfold State.targetClose
  repeat' first
    | with_reducible assumption
    | with_reducible first | apply Keeps.postIn | apply Keeps.setMig
    | fail_if_no_progress (with_reducible apply Keeps.upd)
    | split

theorem Keeps.handIn (h : Keeps s₀ s) (member : Nat) (b : List Byte) (rooms : List RoomCfg) (asker : Option Sender) :
    Keeps s₀ (State.handIn s member b rooms asker).1 := by
  unfold State.handIn
  repeat' first
    | with_reducible assumption
    | with_reducible first | apply Keeps.amend | apply Keeps.sendAmendment
    | split

theorem Keeps.ownAmendment (h : Keeps s₀ s) : Keeps s₀ (State.ownAmendment s).2 := by
  unfold State.ownAmendment
  repeat' first
    | with_reducible assumption
    | fail_if_no_progress (with_reducible apply Keeps.upd)
    | fail_if_no_progress (with_reducible apply Keeps.draw)

theorem Keeps.failMigration (h : Keeps s₀ s) (d : DirRoom) : Keeps s₀ (State.failMigration s d) := by
  unfold State.failMigration
  repeat' first
    | with_reducible assumption
    | (intro s; refine Keeps.cut (a := s₀) s ?_ ?_ <;> [subst s; (intro h; clear_value s)])
    | (intro x; clear_value x)
    | with_reducible first | apply Keeps.emit | apply Keeps.endMigration | apply Keeps.handIn
                           | apply Keeps.ownAmendment | apply Keeps.recordRooms | apply Keeps.setDirStep
    | fail_if_no_progress (with_reducible apply Keeps.upd)
    | split
    | lift_lets
    | refine Keeps.fstOf ?_ (by with_reducible assumption)
    | refine Keeps.sndOf ?_ (by with_reducible assumption)

theorem Keeps.targetReady (h : Keeps s₀ s) (d : DirRoom) : Keeps s₀ (State.targetReady s d) := by
  unfold State.targetReady
  repeat' first
    | with_reducible assumption
    | (intro s; refine Keeps.cut (a := s₀) s ?_ ?_ <;> [subst s; (intro h; clear_value s)])
    | with_reducible first | apply Keeps.beginSource | apply Keeps.landingSend | apply Keeps.sendMigrate
                           | apply Keeps.setDirStep
    | split
    | lift_lets

theorem Keeps.sourceGone (h : Keeps s₀ s) (d : DirRoom) : Keeps s₀ (State.sourceGone s d) := by
  unfold State.sourceGone
  repeat' first
    | with_reducible assumption
    | with_reducible first | apply Keeps.sendMigrate | apply Keeps.targetClose
    | split

theorem Keeps.migrationResult (h : Keeps s₀ s) (member : Nat) (rooms : List RoomCfg) (ok : Bool) :
    Keeps s₀ (State.migrationResult s member rooms ok) := by
  unfold State.migrationResult
  repeat' first
    | with_reducible assumption
    | with_reducible first | apply Keeps.failMigration | apply Keeps.sourceGone | apply Keeps.targetReady
    | with_reducible refine Keeps.foldl ?_ fun s x h => ?_
    | with_reducible refine Keeps.foldlFst ?_ fun s x h => ?_
    | with_reducible refine Keeps.foldlSnd ?_ fun s x h => ?_
    | split

theorem Keeps.amendmentDone (h : Keeps s₀ s) (member : Nat) (rooms : List RoomCfg) (ok : Bool) :
    Keeps s₀ (State.amendmentDone s member rooms ok) := by
  unfold State.amendmentDone
  repeat' first
    | with_reducible assumption
    | with_reducible first | apply Keeps.migrationResult | apply Keeps.recordRooms
    | split

theorem Keeps.startMigration (h : Keeps s₀ s) (d : DirRoom) (target : Nat) :
    Keeps s₀ (State.startMigration s d target) := by
  unfold State.startMigration
  repeat' first
    | with_reducible assumption
    | (intro s; refine Keeps.cut (a := s₀) s ?_ ?_ <;> [subst s; (intro h; clear_value s)])
    | (intro x; clear_value x)
    | with_reducible first | apply Keeps.amendmentDone | apply Keeps.beginTarget | apply Keeps.handIn
                           | apply Keeps.ownAmendment | apply Keeps.sendMigrate | apply Keeps.setDirStep
    | fail_if_no_progress (with_reducible apply Keeps.upd)
    | split
    | lift_lets
    | refine Keeps.fstOf ?_ (by with_reducible assumption)
    | refine Keeps.sndOf ?_ (by with_reducible assumption)

theorem Keeps.evacuateNext (h : Keeps s₀ s) : Keeps s₀ (State.evacuateNext s) := by
  unfold State.evacuateNext
  repeat' first
    | with_reducible assumption
    | (intro x; refine Keeps.inFun x ?_; subst x)
    | (intro x; refine Keeps.inOption x ?_; subst x)
    | (intro x; clear_value x)
    | with_reducible first | apply Keeps.setFlag | apply Keeps.startMigration
    | fail_if_no_progress (with_reducible apply Keeps.upd)
    | split
    | lift_lets

theorem Keeps.evacuate (h : Keeps s₀ s) (m : Nat) : Keeps s₀ (State.evacuate s m) := by
  unfold State.evacuate
  repeat' first
    | with_reducible assumption
    | with_reducible first | apply Keeps.emit | apply Keeps.evacuateNext | apply Keeps.setFlag
    | fail_if_no_progress (with_reducible apply Keeps.upd)

theorem KeepsR.execPoolStatus (h : Keeps s₀ s) (from_ : Sender) :
    KeepsR s₀ (Sys2Proof.Machine.execPoolStatus from_ s) := by
  unfold Sys2Proof.Machine.execPoolStatus
  repeat' first
    | with_reducible assumption
    | with_reducible apply KeepsR.next
    | with_reducible exact KeepsR.fault
    | with_reducible refine Keeps.poolCommand ?_ _ _ fun s h => ?_

theorem KeepsR.execPoolHealth (h : Keeps s₀ s) (from_ : Sender) :
    KeepsR s₀ (Sys2Proof.Machine.execPoolHealth from_ s) := by
  unfold Sys2Proof.Machine.execPoolHealth
  repeat' first
    | with_reducible assumption
    | with_reducible apply KeepsR.next
    | with_reducible exact KeepsR.fault
    | with_reducible first | refine Keeps.poolCommand ?_ _ _ fun s h => ?_

theorem KeepsR.execDeliverAmendment (h : Keeps s₀ s) (from_ : Sender) (member : Nat) (bytes : List Byte) :
    KeepsR s₀ (Sys2Proof.Machine.execDeliverAmendment from_ member bytes s) := by
  unfold Sys2Proof.Machine.execDeliverAmendment
  repeat' first
    | with_reducible assumption
    | (intro x; clear_value x)
    | with_reducible apply KeepsR.next
    | with_reducible exact KeepsR.fault
    | with_reducible first | apply Keeps.amendmentDone | apply Keeps.handIn
                           | refine Keeps.poolCommand ?_ _ _ fun s h => ?_
    | fail_if_no_progress (with_reducible apply Keeps.upd)
    | with_reducible refine Keeps.foldl ?_ fun s x h => ?_
    | with_reducible refine Keeps.foldlFst ?_ fun s x h => ?_
    | with_reducible refine Keeps.foldlSnd ?_ fun s x h => ?_
    | split
    | lift_lets
    | refine Keeps.fstOf ?_ (by with_reducible assumption)

theorem KeepsR.execSetQuota (h : Keeps s₀ s) (from_ : Sender) (requester : Requester) (bytes : Nat) :
    KeepsR s₀ (Sys2Proof.Machine.execSetQuota from_ requester bytes s) := by
  unfold Sys2Proof.Machine.execSetQuota
  repeat' first
    | with_reducible assumption
    | with_reducible apply KeepsR.next
    | with_reducible exact KeepsR.fault
    | with_reducible first | apply Keeps.mirrorChange | refine Keeps.poolCommand ?_ _ _ fun s h => ?_
    | fail_if_no_progress (with_reducible apply Keeps.upd)

theorem KeepsR.execMigrateRoom (h : Keeps s₀ s) (from_ : Sender) (room : RoomNo) (source target : Nat) :
    KeepsR s₀ (Sys2Proof.Machine.execMigrateRoom from_ room source target s) := by
  unfold Sys2Proof.Machine.execMigrateRoom
  repeat' first
    | with_reducible assumption
    | (intro x; clear_value x)
    | with_reducible apply KeepsR.next
    | with_reducible exact KeepsR.fault
    | with_reducible first | refine Keeps.poolCommand ?_ _ _ fun s h => ?_ | apply Keeps.startMigration
    | fail_if_no_progress (with_reducible apply Keeps.upd)
    | split
    | lift_lets

theorem KeepsR.execEvacuate (h : Keeps s₀ s) (from_ : Sender) (member : Nat) :
    KeepsR s₀ (Sys2Proof.Machine.execEvacuate from_ member s) := by
  unfold Sys2Proof.Machine.execEvacuate
  repeat' first
    | with_reducible assumption
    | with_reducible apply KeepsR.next
    | with_reducible exact KeepsR.fault
    | with_reducible first | apply Keeps.evacuate | refine Keeps.poolCommand ?_ _ _ fun s h => ?_
    | split

theorem KeepsR.execPoolSnapshot (h : Keeps s₀ s) (from_ : Sender) (beat : Word) :
    KeepsR s₀ (Sys2Proof.Machine.execPoolSnapshot from_ beat s) := by
  unfold Sys2Proof.Machine.execPoolSnapshot
  repeat' first
    | with_reducible assumption
    | with_reducible apply KeepsR.next
    | with_reducible exact KeepsR.fault
    | with_reducible first | apply Keeps.armAt | apply Keeps.landingSend
                           | refine Keeps.poolCommand ?_ _ _ fun s h => ?_
    | with_reducible refine Keeps.foldl ?_ fun s x h => ?_
    | with_reducible refine Keeps.foldlFst ?_ fun s x h => ?_
    | with_reducible refine Keeps.foldlSnd ?_ fun s x h => ?_
    | split

theorem KeepsR.execAmdResult (h : Keeps s₀ s) (h : Hdr) (cause : Byte) (amdSeq : Word) :
    KeepsR s₀ (Sys2Proof.Machine.execAmdResult h cause amdSeq s) := by
  unfold Sys2Proof.Machine.execAmdResult
  repeat' first
    | with_reducible assumption
    | with_reducible apply KeepsR.next
    | with_reducible exact KeepsR.fault
    | with_reducible first | apply Keeps.amendmentDone | apply Keeps.evacuateNext | apply Keeps.landingReply
                           | apply Keeps.mailAnswer
    | fail_if_no_progress (with_reducible apply Keeps.upd)
    | split
    | lift_lets
    | refine Keeps.fstOf ?_ (by with_reducible assumption)

theorem Keeps.fullMirror (h : Keeps s₀ s) : Keeps s₀ (State.fullMirror s) := by
  unfold State.fullMirror
  repeat' first
    | with_reducible assumption
    | (intro s; refine Keeps.cut (a := s₀) s ?_ ?_ <;> [subst s; (intro h; clear_value s)])
    | (intro x; clear_value x)
    | with_reducible first | apply Keeps.landingSend | apply Keeps.level | apply Keeps.setFlag | apply Keeps.standby
                           | apply Keeps.wrapped
    | with_reducible refine Keeps.foldl ?_ fun s x h => ?_
    | with_reducible refine Keeps.foldlFst ?_ fun s x h => ?_
    | with_reducible refine Keeps.foldlSnd ?_ fun s x h => ?_
    | split
    | lift_lets

theorem Keeps.applyDeltaOf (h : Keeps s₀ s) (d : Delta) : Keeps s₀ (State.applyDeltaOf s d) := by
  unfold State.applyDeltaOf
  repeat' first
    | with_reducible assumption
    | fail_if_no_progress (with_reducible apply Keeps.upd)
    | split

theorem KeepsR.execMirrorMsg (h : Keeps s₀ s) (h : Hdr) (delta : Delta) :
    KeepsR s₀ (Sys2Proof.Machine.execMirrorMsg h delta s) := by
  unfold Sys2Proof.Machine.execMirrorMsg
  repeat' first
    | with_reducible assumption
    | with_reducible apply KeepsR.next
    | with_reducible exact KeepsR.fault
    | with_reducible first | apply Keeps.applyDeltaOf | refine Keeps.landingIn ?_ _ _ fun s h => ?_
                           | refine Keeps.managerOnly ?_ _ fun s h => ?_
    | split

theorem Keeps.takeOver (h : Keeps s₀ s) : Keeps s₀ (State.takeOver s) := by
  unfold State.takeOver
  repeat' first
    | with_reducible assumption
    | with_reducible first | apply Keeps.emit | apply Keeps.failMigration | apply Keeps.finishPages
                           | apply Keeps.landingSend | apply Keeps.putPoolRecord | apply Keeps.setReg
                           | apply Keeps.standby
    | fail_if_no_progress (with_reducible apply Keeps.upd)
    | with_reducible refine Keeps.foldl ?_ fun s x h => ?_

theorem KeepsR.execTakeover (h : Keeps s₀ s) (h : Hdr) : KeepsR s₀ (Sys2Proof.Machine.execTakeover h s) := by
  unfold Sys2Proof.Machine.execTakeover
  repeat' first
    | with_reducible assumption
    | with_reducible apply KeepsR.next
    | with_reducible exact KeepsR.fault
    | with_reducible first | refine Keeps.landingIn ?_ _ _ fun s h => ?_ | apply Keeps.setFlag | apply Keeps.standby
    | fail_if_no_progress (with_reducible apply Keeps.upd)

theorem KeepsR.execTermResponse (h : Keeps s₀ s) (h : Hdr) (higher : Word) (manager : Nat) :
    KeepsR s₀ (Sys2Proof.Machine.execTermResponse h higher manager s) := by
  unfold Sys2Proof.Machine.execTermResponse
  repeat' first
    | with_reducible assumption
    | (intro s; refine Keeps.cut (a := s₀) s ?_ ?_ <;> [subst s; (intro h; clear_value s)])
    | (intro x; clear_value x)
    | with_reducible apply KeepsR.next
    | with_reducible exact KeepsR.fault
    | with_reducible first | apply Keeps.count | apply Keeps.learnTerm | apply Keeps.putPoolRecord
    | fail_if_no_progress (with_reducible apply Keeps.upd)
    | split
    | lift_lets

theorem Keeps.sendBeat (h : Keeps s₀ s) (peer : Nat) (body : List Word) : Keeps s₀ (State.sendBeat s peer body) := by
  unfold State.sendBeat
  repeat' first
    | with_reducible assumption
    | with_reducible first | apply Keeps.count | apply Keeps.landingPut
    | fail_if_no_progress (with_reducible apply Keeps.upd)

theorem KeepsR.execHeartbeatSend (h : Keeps s₀ s) : KeepsR s₀ (Sys2Proof.Machine.execHeartbeatSend s) := by
  unfold Sys2Proof.Machine.execHeartbeatSend
  repeat' first
    | with_reducible assumption
    | with_reducible apply KeepsR.next
    | with_reducible exact KeepsR.fault
    | with_reducible first | apply Keeps.fracNow | apply Keeps.sendBeat | apply Keeps.standby
    | with_reducible refine Keeps.foldl ?_ fun s x h => ?_
    | with_reducible refine Keeps.foldlFst ?_ fun s x h => ?_
    | with_reducible refine Keeps.foldlSnd ?_ fun s x h => ?_
    | split

theorem Keeps.heard (h : Keeps s₀ s) (peer : Nat) : Keeps s₀ (State.heard s peer) := by
  unfold State.heard
  repeat' first
    | with_reducible assumption
    | (intro s; refine Keeps.cut (a := s₀) s ?_ ?_ <;> [subst s; (intro h; clear_value s)])
    | (intro x; clear_value x)
    | with_reducible first | apply Keeps.setFlag | apply Keeps.standby
    | fail_if_no_progress (with_reducible apply Keeps.upd)
    | split
    | lift_lets

theorem Keeps.managerBeat (h : Keeps s₀ s) (e p managerIndex standby : Nat) :
    Keeps s₀ (State.managerBeat s e p managerIndex standby) := by
  unfold State.managerBeat
  repeat' first
    | with_reducible assumption
    | with_reducible first | apply Keeps.epoch | apply Keeps.standby
    | fail_if_no_progress (with_reducible apply Keeps.upd)

theorem Keeps.memberBeat (h : Keeps s₀ s) (peer : Nat) (health : List Word) :
    Keeps s₀ (State.memberBeat s peer health) := by
  unfold State.memberBeat
  repeat' first
    | with_reducible assumption
    | (intro s; refine Keeps.cut (a := s₀) s ?_ ?_ <;> [subst s; (intro h; clear_value s)])
    | (intro x; clear_value x)
    | with_reducible first | apply Keeps.evacuate | apply Keeps.fullMirror | apply Keeps.landingSend
                           | apply Keeps.putPoolRecord | apply Keeps.standby
    | fail_if_no_progress (with_reducible apply Keeps.upd)
    | with_reducible refine Keeps.foldl ?_ fun s x h => ?_
    | with_reducible refine Keeps.foldlFst ?_ fun s x h => ?_
    | with_reducible refine Keeps.foldlSnd ?_ fun s x h => ?_
    | split
    | lift_lets

theorem KeepsR.execHeartbeat (h : Keeps s₀ s) (h : Hdr) (manager : Bool) (e p : Word) (managerIndex standby : Nat) (health : List Word) :
    KeepsR s₀ (Sys2Proof.Machine.execHeartbeat h manager e p managerIndex standby health s) := by
  unfold Sys2Proof.Machine.execHeartbeat
  repeat' first
    | with_reducible assumption
    | with_reducible apply KeepsR.next
    | with_reducible exact KeepsR.fault
    | with_reducible first | apply Keeps.heard | refine Keeps.landingIn ?_ _ _ fun s h => ?_
                           | apply Keeps.managerBeat | apply Keeps.memberBeat | apply Keeps.standby
    | split

theorem Keeps.peerLost (h : Keeps s₀ s) (peer : Nat) : Keeps s₀ (State.peerLost s peer) := by
  unfold State.peerLost
  repeat' first
    | with_reducible assumption
    | (intro s; refine Keeps.cut (a := s₀) s ?_ ?_ <;> [subst s; (intro h; clear_value s)])
    | (intro x; clear_value x)
    | (intro x; subst x)
    | with_reducible first | apply Keeps.failMigration | apply Keeps.setFlag | apply Keeps.standby
    | fail_if_no_progress (with_reducible apply Keeps.upd)
    | with_reducible refine Keeps.foldl ?_ fun s x h => ?_
    | with_reducible refine Keeps.foldlFst ?_ fun s x h => ?_
    | with_reducible refine Keeps.foldlSnd ?_ fun s x h => ?_
    | split
    | lift_lets

theorem KeepsR.execHeartbeatMissed (h : Keeps s₀ s) (peer : Nat) :
    KeepsR s₀ (Sys2Proof.Machine.execHeartbeatMissed peer s) := by
  unfold Sys2Proof.Machine.execHeartbeatMissed
  repeat' first
    | with_reducible assumption
    | (intro s; refine Keeps.cut (a := s₀) s ?_ ?_ <;> [subst s; (intro h; clear_value s)])
    | (intro x; clear_value x)
    | with_reducible apply KeepsR.next
    | with_reducible exact KeepsR.fault
    | with_reducible first | apply Keeps.emit | apply Keeps.peerLost | apply Keeps.satReg | apply Keeps.standby
                           | apply Keeps.takeOver
    | fail_if_no_progress (with_reducible apply Keeps.upd)
    | split
    | lift_lets

theorem KeepsR.execLandingRetry (h : Keeps s₀ s) (peer : Nat) (seq : BitVec 32) :
    KeepsR s₀ (Sys2Proof.Machine.execLandingRetry peer seq s) := by
  unfold Sys2Proof.Machine.execLandingRetry
  repeat' first
    | with_reducible assumption
    | (intro s; refine Keeps.cut (a := s₀) s ?_ ?_ <;> [subst s; (intro h; clear_value s)])
    | (intro x; clear_value x)
    | with_reducible apply KeepsR.next
    | with_reducible exact KeepsR.fault
    | with_reducible first | apply Keeps.count | apply Keeps.failMigration | apply Keeps.landingPut
                           | apply Keeps.level | apply Keeps.mailAnswer | apply Keeps.satReg | apply Keeps.setFlag
    | fail_if_no_progress (with_reducible apply Keeps.upd)
    | with_reducible refine Keeps.foldl ?_ fun s x h => ?_
    | with_reducible refine Keeps.foldlFst ?_ fun s x h => ?_
    | with_reducible refine Keeps.foldlSnd ?_ fun s x h => ?_
    | split
    | lift_lets

theorem Keeps.withEscrowKey (h : Keeps s₀ s) : Keeps s₀ (State.withEscrowKey s) := by
  unfold State.withEscrowKey
  repeat' first
    | with_reducible assumption
    | with_reducible first | apply Keeps.queueRecord
    | fail_if_no_progress (with_reducible apply Keeps.upd)
    | fail_if_no_progress (with_reducible apply Keeps.draw)
    | split

theorem Keeps.resumeForwarding (h : Keeps s₀ s) (peer : Nat) : Keeps s₀ (State.resumeForwarding s peer) := by
  unfold State.resumeForwarding
  repeat' first
    | with_reducible assumption
    | with_reducible first | apply Keeps.sendMigrate
    | with_reducible refine Keeps.foldl ?_ fun s x h => ?_

theorem KeepsR.execSpdmSessionSetup (h : Keeps s₀ s) (peer : Nat) (authenticated rootOk fuseHashesEqual : Bool) :
    KeepsR s₀ (Sys2Proof.Machine.execSpdmSessionSetup peer authenticated rootOk fuseHashesEqual s) := by
  unfold Sys2Proof.Machine.execSpdmSessionSetup
  repeat' first
    | with_reducible assumption
    | (intro s; refine Keeps.cut (a := s₀) s ?_ ?_ <;> [subst s; (intro h; clear_value s)])
    | (intro x; clear_value x)
    | with_reducible apply KeepsR.next
    | with_reducible exact KeepsR.fault
    | with_reducible first | apply Keeps.count | apply Keeps.emit | apply Keeps.landingSend
                           | apply Keeps.mirrorChange | apply Keeps.resumeForwarding | apply Keeps.withEscrowKey
    | fail_if_no_progress (with_reducible apply Keeps.upd)
    | split
    | lift_lets

theorem KeepsR.execNonceRequest (h : Keeps s₀ s) (h : Hdr) : KeepsR s₀ (Sys2Proof.Machine.execNonceRequest h s) := by
  unfold Sys2Proof.Machine.execNonceRequest
  repeat' first
    | with_reducible assumption
    | with_reducible apply KeepsR.next
    | with_reducible exact KeepsR.fault
    | with_reducible first | refine Keeps.landingIn ?_ _ _ fun s h => ?_ | refine Keeps.managerOnly ?_ _ fun s h => ?_
    | fail_if_no_progress (with_reducible apply Keeps.upd)
    | fail_if_no_progress (with_reducible apply Keeps.draw)

theorem KeepsR.execClearToken (h : Keeps s₀ s) (h : Hdr) (part : Fin 11) (nonce : BitVec 128) (member : Nat) (tokenTerm : Word) (signatureOk : Bool) :
    KeepsR s₀ (Sys2Proof.Machine.execClearToken h part nonce member tokenTerm signatureOk s) := by
  unfold Sys2Proof.Machine.execClearToken
  repeat' first
    | with_reducible assumption
    | with_reducible apply KeepsR.next
    | with_reducible exact KeepsR.fault
    | with_reducible first | refine Keeps.landingIn ?_ _ _ fun s h => ?_
                           | refine Keeps.managerOnly ?_ _ fun s h => ?_ | apply Keeps.useToken
    | split
    | lift_lets
    | refine Keeps.fstOf ?_ (by with_reducible assumption)

theorem KeepsR.execSnapshotMsg (h : Keeps s₀ s) (h : Hdr) (beat : Word) :
    KeepsR s₀ (Sys2Proof.Machine.execSnapshotMsg h beat s) := by
  unfold Sys2Proof.Machine.execSnapshotMsg
  repeat' first
    | with_reducible assumption
    | with_reducible apply KeepsR.next
    | with_reducible exact KeepsR.fault
    | with_reducible first | apply Keeps.armAt | refine Keeps.landingIn ?_ _ _ fun s h => ?_
                           | refine Keeps.managerOnly ?_ _ fun s h => ?_

theorem KeepsR.execMigrateBegin (h : Keeps s₀ s) (h : Hdr) (room : RoomNo) (source target : Nat) :
    KeepsR s₀ (Sys2Proof.Machine.execMigrateBegin h room source target s) := by
  unfold Sys2Proof.Machine.execMigrateBegin
  repeat' first
    | with_reducible assumption
    | with_reducible apply KeepsR.next
    | with_reducible exact KeepsR.fault
    | with_reducible first | apply Keeps.beginSource | apply Keeps.beginTarget
                           | refine Keeps.landingIn ?_ _ _ fun s h => ?_
                           | refine Keeps.managerOnly ?_ _ fun s h => ?_
    | split

theorem Keeps.removeSource (h : Keeps s₀ s) (d : DirRoom) : Keeps s₀ (State.removeSource s d) := by
  unfold State.removeSource
  repeat' first
    | with_reducible assumption
    | (intro x; clear_value x)
    | with_reducible first | apply Keeps.amendmentDone | apply Keeps.handIn | apply Keeps.ownAmendment
    | fail_if_no_progress (with_reducible apply Keeps.upd)
    | split
    | lift_lets
    | refine Keeps.fstOf ?_ (by with_reducible assumption)
    | refine Keeps.sndOf ?_ (by with_reducible assumption)

theorem KeepsR.execMigrateCutover (h : Keeps s₀ s) (h : Hdr) (room : RoomNo) (close : Bool) :
    KeepsR s₀ (Sys2Proof.Machine.execMigrateCutover h room close s) := by
  unfold Sys2Proof.Machine.execMigrateCutover
  repeat' first
    | with_reducible assumption
    | (intro s; refine Keeps.cut (a := s₀) s ?_ ?_ <;> [subst s; (intro h; clear_value s)])
    | (intro x; clear_value x)
    | with_reducible apply KeepsR.next
    | with_reducible exact KeepsR.fault
    | with_reducible first | refine Keeps.landingIn ?_ _ _ fun s h => ?_ | apply Keeps.removeSource
                           | apply Keeps.setDirStep | apply Keeps.startForwarding | apply Keeps.targetClose
                           | apply Keeps.targetCutover
    | fail_if_no_progress (with_reducible apply Keeps.upd)
    | with_reducible refine Keeps.foldl ?_ fun s x h => ?_
    | with_reducible refine Keeps.foldlFst ?_ fun s x h => ?_
    | with_reducible refine Keeps.foldlSnd ?_ fun s x h => ?_
    | split
    | lift_lets

theorem Keeps.sourceFails (h : Keeps s₀ s) (m : Migration) : Keeps s₀ (State.sourceFails s m) := by
  unfold State.sourceFails
  repeat' first
    | with_reducible assumption
    | with_reducible first | apply Keeps.emit | apply Keeps.endMigration | apply Keeps.failMigration
                           | apply Keeps.sendMigrate
    | fail_if_no_progress (with_reducible apply Keeps.upd)
    | split

theorem Keeps.cutOver (h : Keeps s₀ s) (m : Migration) : Keeps s₀ (State.cutOver s m) := by
  unfold State.cutOver
  repeat' first
    | with_reducible assumption
    | with_reducible first | apply Keeps.sendMigrate | apply Keeps.setDirStep | apply Keeps.startForwarding
    | fail_if_no_progress (with_reducible apply Keeps.upd)
    | split

theorem KeepsR.execMigrationRoundEnd (h : Keeps s₀ s) (sendBytesPerMs : Nat) (writtenBytes : Nat) :
    KeepsR s₀ (Sys2Proof.Machine.execMigrationRoundEnd sendBytesPerMs writtenBytes s) := by
  unfold Sys2Proof.Machine.execMigrationRoundEnd
  repeat' first
    | with_reducible assumption
    | (intro s; refine Keeps.cut (a := s₀) s ?_ ?_ <;> [subst s; (intro h; clear_value s)])
    | (intro x; clear_value x)
    | with_reducible apply KeepsR.next
    | with_reducible exact KeepsR.fault
    | with_reducible first | apply Keeps.cutOver | apply Keeps.modRoom | apply Keeps.postOut | apply Keeps.setMig
                           | apply Keeps.settle | apply Keeps.sourceFails
    | fail_if_no_progress (with_reducible apply Keeps.upd)
    | split
    | lift_lets

theorem KeepsR.execFreezeTimeout (h : Keeps s₀ s) : KeepsR s₀ (Sys2Proof.Machine.execFreezeTimeout s) := by
  unfold Sys2Proof.Machine.execFreezeTimeout
  repeat' first
    | with_reducible assumption
    | with_reducible apply KeepsR.next
    | with_reducible exact KeepsR.fault
    | with_reducible first | apply Keeps.modRoom | apply Keeps.postOut | apply Keeps.setMig | apply Keeps.settle
    | fail_if_no_progress (with_reducible apply Keeps.upd)
    | split

theorem KeepsR.execPageRelease (h : Keeps s₀ s) (h : Hdr) (room : RoomNo) (pages : List (Nat × Bool)) :
    KeepsR s₀ (Sys2Proof.Machine.execPageRelease h room pages s) := by
  unfold Sys2Proof.Machine.execPageRelease
  repeat' first
    | with_reducible assumption
    | with_reducible apply KeepsR.next
    | with_reducible exact KeepsR.fault
    | with_reducible first | refine Keeps.landingIn ?_ _ _ fun s h => ?_ | apply Keeps.releasePage
    | fail_if_no_progress (with_reducible apply Keeps.upd)
    | with_reducible refine Keeps.foldl ?_ fun s x h => ?_
    | with_reducible refine Keeps.foldlFst ?_ fun s x h => ?_
    | with_reducible refine Keeps.foldlSnd ?_ fun s x h => ?_
    | split

theorem Keeps.holdersGone (h : Keeps s₀ s) (room : Nat) : Keeps s₀ (State.holdersGone s room) := by
  unfold State.holdersGone
  repeat' first
    | with_reducible assumption
    | with_reducible first | apply Keeps.removeSource | apply Keeps.sendMigrate
    | fail_if_no_progress (with_reducible apply Keeps.upd)
    | split

theorem KeepsR.execReleaseDc (h : Keeps s₀ s) (requester : Requester) (room : RoomNo) (region : Fin 8) (base size : Nat) :
    KeepsR s₀ (Sys2Proof.Machine.execReleaseDc requester room region base size s) := by
  unfold Sys2Proof.Machine.execReleaseDc
  repeat' first
    | with_reducible assumption
    | (intro x; refine Keeps.inFun x ?_; subst x)
    | (intro x; clear_value x)
    | with_reducible apply KeepsR.next
    | with_reducible exact KeepsR.fault
    | with_reducible first | apply Keeps.formerOver | apply Keeps.holdersGone | apply Keeps.mailAnswer
                           | apply Keeps.offerDeferred
    | fail_if_no_progress (with_reducible apply Keeps.upd)
    | split
    | lift_lets
    | refine Keeps.fstOf ?_ (by with_reducible assumption)
    | refine Keeps.sndOf ?_ (by with_reducible assumption)
    | refine Keeps.someOf ?_ (by with_reducible assumption)
    | dsimp only

end Sys2Proof.Machine
end

