-- ==== Sys2Proof/Laws/KeepsKeySlots.lean ====
section
/-! SUPPORT. What the operations of Machine/KeySlots.lean keep, in the sense of Laws/Keeps.lean. -/

namespace Sys2Proof.Machine

variable {s₀ s t : State}

theorem Keeps.keyOp (h : Keeps s₀ s) (m : Hdr) {run : State → State × Except Nat (List Word)}
    (hr : ∀ s, Keeps s₀ s → Keeps s₀ (run s).1) : Keeps s₀ (s.keyOp m run) := by
  refine Keeps.landingIn h _ _ fun s h => Keeps.managerOnly h _ fun s h => ?_
  have h1 := hr s h
  split
  · next e => rw [e] at h1; exact h1.count ..
  · next e => rw [e] at h1; exact h1

theorem KeepsR.execGenerate (h : Keeps s₀ s) (h : Hdr) (slot : Fin 4096) :
    KeepsR s₀ (Sys2Proof.Machine.execGenerate h slot s) := by
  unfold Sys2Proof.Machine.execGenerate
  repeat' first
    | with_reducible assumption
    | with_reducible apply KeepsR.next
    | with_reducible exact KeepsR.fault
    | with_reducible first | apply Keeps.emit | apply Keeps.fillSlot | refine Keeps.keyOp ?_ _ fun s h => ?_
                           | apply Keeps.newKey | apply Keeps.settle
    | split

theorem KeepsR.execImportKey (h : Keeps s₀ s) (h : Hdr) (slot : Fin 4096) (record : EscrowRecord) :
    KeepsR s₀ (Sys2Proof.Machine.execImportKey h slot record s) := by
  unfold Sys2Proof.Machine.execImportKey
  repeat' first
    | with_reducible assumption
    | with_reducible apply KeepsR.next
    | with_reducible exact KeepsR.fault
    | with_reducible first | apply Keeps.emit | apply Keeps.fillSlot | refine Keeps.keyOp ?_ _ fun s h => ?_
                           | apply Keeps.record | apply Keeps.settle | apply Keeps.wrapped
    | fail_if_no_progress (with_reducible apply Keeps.upd)
    | split

theorem KeepsR.execExportKey (h : Keeps s₀ s) (h : Hdr) (slot : Fin 4096) :
    KeepsR s₀ (Sys2Proof.Machine.execExportKey h slot s) := by
  unfold Sys2Proof.Machine.execExportKey
  repeat' first
    | with_reducible assumption
    | with_reducible apply KeepsR.next
    | with_reducible exact KeepsR.fault
    | with_reducible first | apply Keeps.emit | refine Keeps.keyOp ?_ _ fun s h => ?_
    | fail_if_no_progress (with_reducible apply Keeps.upd)
    | split

theorem KeepsR.execDestroy (h : Keeps s₀ s) (h : Hdr) (slot : Fin 4096) :
    KeepsR s₀ (Sys2Proof.Machine.execDestroy h slot s) := by
  unfold Sys2Proof.Machine.execDestroy
  repeat' first
    | with_reducible assumption
    | with_reducible apply KeepsR.next
    | with_reducible exact KeepsR.fault
    | with_reducible first | apply Keeps.emit | refine Keeps.keyOp ?_ _ fun s h => ?_ | apply Keeps.putSlotTable
    | fail_if_no_progress (with_reducible apply Keeps.upd)
    | split

theorem KeepsR.execEscrowKey (h : Keeps s₀ s) (h : Hdr) (key : Key) :
    KeepsR s₀ (Sys2Proof.Machine.execEscrowKey h key s) := by
  unfold Sys2Proof.Machine.execEscrowKey
  repeat' first
    | with_reducible assumption
    | with_reducible apply KeepsR.next
    | with_reducible exact KeepsR.fault
    | with_reducible first | refine Keeps.landingIn ?_ _ _ fun s h => ?_
                           | refine Keeps.managerOnly ?_ _ fun s h => ?_ | apply Keeps.queueRecord
    | fail_if_no_progress (with_reducible apply Keeps.upd)

end Sys2Proof.Machine
end

