-- ==== Sys2Proof/Laws/KeepsFaultExec.lean ====
section
/-! SUPPORT. What the operations of Machine/FaultExec.lean keep, in the sense of Laws/Keeps.lean. -/

namespace Sys2Proof.Machine

variable {s₀ s t : State}

theorem Keeps.capture (h : Keeps s₀ s) (r : ErrRec) : Keeps s₀ (State.capture s r) := by
  unfold State.capture
  repeat' first
    | with_reducible assumption
    | fail_if_no_progress (with_reducible apply Keeps.upd)
    | split

theorem Keeps.setTrap (h : Keeps s₀ s) (wing : Option Nat) (on : Bool) : Keeps s₀ (State.setTrap s wing on) := by
  unfold State.setTrap
  repeat' first
    | with_reducible assumption
    | with_reducible first | apply Keeps.setFlag
    | fail_if_no_progress (with_reducible apply Keeps.upd)
    | split

theorem Keeps.resetChip (h : Keeps s₀ s) : Keeps s₀ (State.resetChip s) := by
  unfold State.resetChip
  repeat' first
    | with_reducible assumption
    | with_reducible first | apply Keeps.drainStart | apply Keeps.offInPowerUp | apply Keeps.setFlag
    | fail_if_no_progress (with_reducible apply Keeps.upd)
    | split

theorem Keeps.reissueOps (h : Keeps s₀ s) (c : Nat) : Keeps s₀ (State.reissueOps s c) := by
  unfold State.reissueOps
  repeat' first
    | with_reducible assumption
    | fail_if_no_progress (with_reducible apply Keeps.upd)

theorem Keeps.startReset (h : Keeps s₀ s) (src : Nat) : Keeps s₀ (State.startReset s src) := by
  unfold State.startReset
  repeat' first
    | with_reducible assumption
    | fail_if_no_progress (with_reducible apply Keeps.upd)

theorem Keeps.resetChannel (h : Keeps s₀ s) (ch : Nat) : Keeps s₀ (State.resetChannel s ch) := by
  unfold State.resetChannel
  repeat' first
    | with_reducible assumption
    | with_reducible first | apply Keeps.endChan
    | fail_if_no_progress (with_reducible apply Keeps.upd)
    | split

theorem Keeps.resetBlock (h : Keeps s₀ s) (src : Nat) : Keeps s₀ (State.resetBlock s src) := by
  unfold State.resetBlock
  repeat' first
    | with_reducible assumption
    | with_reducible first | apply Keeps.loseLarder | apply Keeps.loseWing | apply Keeps.portReset
                           | apply Keeps.reissueOps | apply Keeps.resetChannel | apply Keeps.resetChip
                           | apply Keeps.startReset
    | fail_if_no_progress (with_reducible apply Keeps.upd)
    | split

theorem Keeps.trap (h : Keeps s₀ s) (wing : Option Nat) : Keeps s₀ (State.trap s wing) := by
  unfold State.trap
  repeat' first
    | with_reducible assumption
    | (intro s; refine Keeps.cut (a := s₀) s ?_ ?_ <;> [subst s; (intro h; clear_value s)])
    | with_reducible first | apply Keeps.count | apply Keeps.setTrap
    | fail_if_no_progress (with_reducible apply Keeps.upd)
    | split
    | lift_lets

theorem Keeps.react (h : Keeps s₀ s) (src reaction : Nat) : Keeps s₀ (State.react s src reaction) := by
  unfold State.react
  repeat' first
    | with_reducible assumption
    | with_reducible first | apply Keeps.halt | apply Keeps.resetBlock | apply Keeps.resetChip | apply Keeps.trap
    | fail_if_no_progress (with_reducible apply Keeps.upd)
    | split

theorem Keeps.postItem (h : Keeps s₀ s) (q : Nat) (x : QItem) : Keeps s₀ (State.postItem s q x) := by
  unfold State.postItem
  repeat' first
    | with_reducible assumption
    | (intro x; clear_value x)
    | with_reducible first | apply Keeps.count | apply Keeps.deliver | apply Keeps.satReg | apply Keeps.stalled
    | fail_if_no_progress (with_reducible apply Keeps.upd)
    | split
    | lift_lets

theorem Keeps.logItem (h : Keeps s₀ s) (x : QItem) : Keeps s₀ (State.logItem s x) := by
  unfold State.logItem
  repeat' first
    | with_reducible assumption
    | (intro x; clear_value x)
    | fail_if_no_progress (with_reducible apply Keeps.upd)
    | split
    | lift_lets

theorem Keeps.bucket (h : Keeps s₀ s) (src : Nat) : Keeps s₀ (State.bucket s src).1 := by
  unfold State.bucket
  repeat' first
    | with_reducible assumption
    | with_reducible first | apply Keeps.setReg
    | split

theorem Keeps.takeEvent (h : Keeps s₀ s) (ev : Ev) : Keeps s₀ (State.takeEvent s ev) := by
  unfold State.takeEvent
  repeat' first
    | with_reducible assumption
    | with_reducible first | apply Keeps.attic | apply Keeps.capture | apply Keeps.count | apply Keeps.free
                           | apply Keeps.logItem | apply Keeps.msix | apply Keeps.own | apply Keeps.postItem
                           | apply Keeps.react | apply Keeps.satReg
    | fail_if_no_progress (with_reducible apply Keeps.upd)
    | split

theorem Keeps.collect (h : Keeps s₀ s) (ev : Ev) : Keeps s₀ (State.collect s ev) := by
  unfold State.collect
  repeat' first
    | with_reducible assumption
    | (intro s; refine Keeps.cut (a := s₀) s ?_ ?_ <;> [subst s; (intro h; clear_value s)])
    | (intro x; clear_value x)
    | with_reducible first | apply Keeps.bucket | apply Keeps.count | apply Keeps.satReg | apply Keeps.takeEvent
    | split
    | lift_lets
    | refine Keeps.fstOf ?_ (by with_reducible assumption)

theorem KeepsR.execCollectorFault (h : Keeps s₀ s) : KeepsR s₀ (Sys2Proof.Machine.execCollectorFault s) := by
  unfold Sys2Proof.Machine.execCollectorFault
  repeat' first
    | with_reducible assumption
    | with_reducible apply KeepsR.next
    | with_reducible exact KeepsR.fault
    | with_reducible first | apply Keeps.atticNote | apply Keeps.halt
    | fail_if_no_progress (with_reducible apply Keeps.upd)
    | split

theorem KeepsR.execRearm (h : Keeps s₀ s) : KeepsR s₀ (Sys2Proof.Machine.execRearm s) := by
  unfold Sys2Proof.Machine.execRearm
  repeat' first
    | with_reducible assumption
    | with_reducible apply KeepsR.next
    | with_reducible exact KeepsR.fault
    | fail_if_no_progress (with_reducible apply Keeps.upd)
    | split

theorem KeepsR.execTrapDone (h : Keeps s₀ s) (wing : Option Wing) :
    KeepsR s₀ (Sys2Proof.Machine.execTrapDone wing s) := by
  unfold Sys2Proof.Machine.execTrapDone
  repeat' first
    | with_reducible assumption
    | with_reducible apply KeepsR.next
    | with_reducible exact KeepsR.fault
    | with_reducible first | apply Keeps.setTrap
    | split

theorem KeepsR.execForce (h : Keeps s₀ s) (source : Source) (on : Bool) :
    KeepsR s₀ (Sys2Proof.Machine.execForce source on s) := by
  unfold Sys2Proof.Machine.execForce
  repeat' first
    | with_reducible assumption
    | (intro s; refine Keeps.cut (a := s₀) s ?_ ?_ <;> [subst s; (intro h; clear_value s)])
    | (intro x; clear_value x)
    | with_reducible apply KeepsR.next
    | with_reducible exact KeepsR.fault
    | with_reducible first | apply Keeps.emitEv | apply Keeps.setFlag
    | split
    | lift_lets

theorem KeepsR.execBucketEnClear (h : Keeps s₀ s) (source : Source) :
    KeepsR s₀ (Sys2Proof.Machine.execBucketEnClear source s) := by
  unfold Sys2Proof.Machine.execBucketEnClear
  repeat' first
    | with_reducible assumption
    | with_reducible apply KeepsR.next
    | with_reducible exact KeepsR.fault
    | with_reducible first | apply Keeps.setFlag | apply Keeps.setReg
    | split

theorem KeepsR.execWatchdogExpiry (h : Keeps s₀ s) (core : Fin 64) :
    KeepsR s₀ (Sys2Proof.Machine.execWatchdogExpiry core s) := by
  unfold Sys2Proof.Machine.execWatchdogExpiry
  repeat' first
    | with_reducible assumption
    | (intro x; clear_value x)
    | with_reducible apply KeepsR.next
    | with_reducible exact KeepsR.fault
    | with_reducible first | apply Keeps.count | apply Keeps.emit | apply Keeps.startReset
    | split
    | lift_lets

theorem KeepsR.execBlockResetDone (h : Keeps s₀ s) (source : Source) (ident : BitVec 8) :
    KeepsR s₀ (Sys2Proof.Machine.execBlockResetDone source ident s) := by
  unfold Sys2Proof.Machine.execBlockResetDone
  repeat' first
    | with_reducible assumption
    | (intro s; refine Keeps.cut (a := s₀) s ?_ ?_ <;> [subst s; (intro h; clear_value s)])
    | (intro x; clear_value x)
    | with_reducible apply KeepsR.next
    | with_reducible exact KeepsR.fault
    | with_reducible first | apply Keeps.losePackage | apply Keeps.mediaStep
    | fail_if_no_progress (with_reducible apply Keeps.upd)
    | with_reducible refine Keeps.foldl ?_ fun s x h => ?_
    | with_reducible refine Keeps.foldlFst ?_ fun s x h => ?_
    | with_reducible refine Keeps.foldlSnd ?_ fun s x h => ?_
    | split
    | lift_lets

end Sys2Proof.Machine
end

