-- ==== Sys2Proof/Laws/KeepsRegAccess.lean ====
section
/-! SUPPORT. What the operations of Machine/RegAccess.lean keep, in the sense of Laws/Keeps.lean. -/

namespace Sys2Proof.Machine

variable {s₀ s t : State}

theorem Keeps.after (h : Keeps s₀ s) {r : Result} (hr : KeepsR s₀ r) : Keeps s₀ (s.after r) := by
  unfold State.after
  split
  · exact hr _ rfl
  · exact h

theorem Keeps.readEvq (h : Keeps s₀ s) (q requester : Nat) (half : Half) :
    Keeps s₀ (State.readEvq s q requester half) := by
  unfold State.readEvq
  repeat' first
    | with_reducible assumption
    | with_reducible first | apply Keeps.deliver | apply Keeps.stalled
    | fail_if_no_progress (with_reducible apply Keeps.upd)
    | split

theorem Keeps.readCpb (h : Keeps s₀ s) (i requester : Nat) (half : Half) :
    Keeps s₀ (State.readCpb s i requester half) := by
  unfold State.readCpb
  repeat' first
    | with_reducible assumption
    | with_reducible first | apply Keeps.answerCpb
    | fail_if_no_progress (with_reducible apply Keeps.upd)
    | split

theorem Keeps.unlatch (h : Keeps s₀ s) (a : Access) : Keeps s₀ (State.unlatch s a) := h.upd

theorem Keeps.readPlace (h : Keeps s₀ s) (a : Access) (at_ : Nat) (p : RegPlace) :
    Keeps s₀ (State.readPlace s a at_ p) := by
  unfold State.readPlace
  repeat' first
    | with_reducible assumption
    | with_reducible first | apply Keeps.deliver | apply Keeps.fracNow | apply Keeps.progressNow | apply Keeps.readCpb
                           | apply Keeps.readEvq
    | split

theorem Keeps.readBar0 (h : Keeps s₀ s) (a : Access) : Keeps s₀ (State.readBar0 s a) := by
  unfold State.readBar0
  repeat' first
    | with_reducible assumption
    | (intro s; refine Keeps.cut (a := s₀) s ?_ ?_ <;> [subst s; (intro h; clear_value s)])
    | (intro x; clear_value x)
    | with_reducible first | apply Keeps.deliver | apply Keeps.free | apply Keeps.readPlace | apply Keeps.send
                           | apply Keeps.unlatch
    | split
    | lift_lets

theorem Keeps.read (h : Keeps s₀ s) (a : Access) : Keeps s₀ (State.read s a) := by
  unfold State.read
  repeat' first
    | with_reducible assumption
    | with_reducible first | apply Keeps.barRefused | apply Keeps.fracNow | apply Keeps.readBar0 | apply Keeps.send
    | fail_if_no_progress (with_reducible apply Keeps.upd)
    | split

theorem Keeps.writeRw (h : Keeps s₀ s) (requester : Nat) (f : Fld) (i v : Nat) :
    Keeps s₀ (State.writeRw s requester f i v) := by
  unfold State.writeRw
  repeat' first
    | with_reducible assumption
    | with_reducible first | refine Keeps.after ?_ ?_ | apply KeepsR.execBucketEnClear | apply KeepsR.execForce
                           | apply KeepsR.execHmbEnable | apply KeepsR.execHmbWithdrawal
                           | apply KeepsR.execPmcFreeze | apply KeepsR.execPmcWin | apply Keeps.msixFlush
                           | apply Keeps.setReg | apply Keeps.setSamplePtr
    | fail_if_no_progress (with_reducible apply Keeps.upd)
    | split

theorem Keeps.writeWo (h : Keeps s₀ s) (f : Fld) (i : Nat) : Keeps s₀ (State.writeWo s f i) := by
  unfold State.writeWo
  repeat' first
    | with_reducible assumption
    | with_reducible first | refine Keeps.after ?_ ?_ | apply KeepsR.execAbort | apply KeepsR.execArm
                           | apply KeepsR.execDisarm | apply KeepsR.execOffReqWrite | apply KeepsR.execRearm
                           | apply KeepsR.execRetrain | apply KeepsR.execSlumberReq | apply KeepsR.execSnapNow
                           | apply KeepsR.execTestNow | apply KeepsR.execTrapDone | apply KeepsR.execWakeWrite
    | fail_if_no_progress (with_reducible apply Keeps.upd)
    | split

theorem Keeps.bstCommand (h : Keeps s₀ s) (v : Word) : Keeps s₀ (State.bstCommand s v) := by
  unfold State.bstCommand
  repeat' first
    | with_reducible assumption
    | with_reducible first | refine Keeps.after ?_ ?_ | apply KeepsR.execLbist | apply KeepsR.execLbistAndMbist
                           | apply KeepsR.execMbist
    | fail_if_no_progress (with_reducible apply Keeps.upd)
    | split

theorem Keeps.writeReg (h : Keeps s₀ s) (requester : Nat) (p : RegPlace) (lanes value : Word) :
    Keeps s₀ (State.writeReg s requester p lanes value) := by
  unfold State.writeReg
  repeat' first
    | with_reducible assumption
    | (intro x; clear_value x)
    | with_reducible first | apply Keeps.bstCommand | apply Keeps.writeRw | apply Keeps.writeWo
    | fail_if_no_progress (with_reducible apply Keeps.upd)
    | with_reducible refine Keeps.foldl ?_ fun s x h => ?_
    | with_reducible refine Keeps.foldlFst ?_ fun s x h => ?_
    | with_reducible refine Keeps.foldlSnd ?_ fun s x h => ?_
    | split
    | lift_lets

theorem Keeps.writeMsix (h : Keeps s₀ s) (offset : Nat) (lanes value : Word) :
    Keeps s₀ (State.writeMsix s offset lanes value) := by
  unfold State.writeMsix
  repeat' first
    | with_reducible assumption
    | with_reducible first | refine Keeps.after ?_ ?_ | apply KeepsR.execMsixUnmask
    | fail_if_no_progress (with_reducible apply Keeps.upd)
    | split

theorem Keeps.writeBar0 (h : Keeps s₀ s) (a : Access) (v : Word) : Keeps s₀ (State.writeBar0 s a v) := by
  unfold State.writeBar0
  repeat' first
    | with_reducible assumption
    | (intro s; refine Keeps.cut (a := s₀) s ?_ ?_ <;> [subst s; (intro h; clear_value s)])
    | (intro x; clear_value x)
    | with_reducible first | apply Keeps.unlatch | apply Keeps.writeMsix | apply Keeps.writeReg
    | fail_if_no_progress (with_reducible apply Keeps.upd)
    | split
    | lift_lets

theorem Keeps.writeDoorbell (h : Keeps s₀ s) (a : Access) (v : Word) : Keeps s₀ (State.writeDoorbell s a v) := by
  unfold State.writeDoorbell
  repeat' first
    | with_reducible assumption
    | (intro x; clear_value x)
    | with_reducible first | refine Keeps.after ?_ ?_ | refine Keeps.doorbell ?_ _ _ _ fun s k h => ?_
                           | apply Keeps.doorbellIgnored | apply KeepsR.execCqHead | apply KeepsR.execEventSet
                           | apply KeepsR.execRingReset | apply KeepsR.execRingResume | apply KeepsR.execRingStart
                           | apply KeepsR.execRingStop | apply KeepsR.execSemAdd | apply KeepsR.execSqTail
    | fail_if_no_progress (with_reducible apply Keeps.upd)
    | split
    | lift_lets

theorem Keeps.write (h : Keeps s₀ s) (a : Access) (v : Word) : Keeps s₀ (State.write s a v) := by
  unfold State.write
  repeat' first
    | with_reducible assumption
    | with_reducible first | apply Keeps.barRefused | apply Keeps.writeBar0 | apply Keeps.writeDoorbell
                           | apply Keeps.writeWo
    | fail_if_no_progress (with_reducible apply Keeps.upd)
    | with_reducible refine Keeps.foldl ?_ fun s x h => ?_
    | with_reducible refine Keeps.foldlFst ?_ fun s x h => ?_
    | with_reducible refine Keeps.foldlSnd ?_ fun s x h => ?_
    | split

theorem Keeps.accessNow (h : Keeps s₀ s) (a : Access) : Keeps s₀ (State.accessNow s a) := by
  unfold State.accessNow
  repeat' first
    | with_reducible assumption
    | with_reducible first | apply Keeps.read | apply Keeps.write
    | fail_if_no_progress (with_reducible apply Keeps.upd)
    | split

theorem Keeps.releaseN (n : Nat) (h : Keeps s₀ s) : Keeps s₀ (State.releaseN n s) := by
  induction n generalizing s with
  | zero => exact h
  | succ n ih =>
    unfold State.releaseN
    split
    · exact ih (h.upd.accessNow _)
    · exact h

theorem Keeps.release (h : Keeps s₀ s) : Keeps s₀ (State.release s) := by
  unfold State.release
  repeat' first
    | with_reducible assumption
    | with_reducible first | apply Keeps.releaseN

theorem Keeps.access (h : Keeps s₀ s) (a : Access) : Keeps s₀ (State.access s a) := by
  unfold State.access
  repeat' first
    | with_reducible assumption
    | (intro s; refine Keeps.cut (a := s₀) s ?_ ?_ <;> [subst s; (intro h; clear_value s)])
    | (intro x; clear_value x)
    | with_reducible first | apply Keeps.accessNow | apply Keeps.release
    | fail_if_no_progress (with_reducible apply Keeps.upd)
    | split
    | lift_lets

theorem KeepsR.execRegisterWrite (h : Keeps s₀ s) (path : Path) (requester : Requester) (offset width : Nat) (value : Word) :
    KeepsR s₀ (Sys2Proof.Machine.execRegisterWrite path requester offset width value s) := by
  unfold Sys2Proof.Machine.execRegisterWrite
  repeat' first
    | with_reducible assumption
    | with_reducible apply KeepsR.next
    | with_reducible exact KeepsR.fault
    | with_reducible first | apply Keeps.access

theorem KeepsR.execRegisterRead (h : Keeps s₀ s) (path : Path) (requester : Requester) (offset width : Nat) (within1us fetchOk : Bool) :
    KeepsR s₀ (Sys2Proof.Machine.execRegisterRead path requester offset width within1us fetchOk s) := by
  unfold Sys2Proof.Machine.execRegisterRead
  repeat' first
    | with_reducible assumption
    | with_reducible apply KeepsR.next
    | with_reducible exact KeepsR.fault
    | with_reducible first | apply Keeps.access

theorem Keeps.readPort (h : Keeps s₀ s) (requester offset : Nat) (fetchOk : Bool) :
    Keeps s₀ (State.readPort s requester offset fetchOk) := by
  unfold State.readPort
  repeat' first
    | with_reducible assumption
    | with_reducible first | apply Keeps.access

theorem KeepsR.execFltEvq (h : Keeps s₀ s) (queue : Option Wing) (requester : Requester) :
    KeepsR s₀ (Sys2Proof.Machine.execFltEvq queue requester s) := by
  unfold Sys2Proof.Machine.execFltEvq
  repeat' first
    | with_reducible assumption
    | with_reducible apply KeepsR.next
    | with_reducible exact KeepsR.fault
    | with_reducible first | apply Keeps.readPort

theorem KeepsR.execAtcWin (h : Keeps s₀ s) (i : Fin 128) (requester : Requester) (fetchOk : Bool) :
    KeepsR s₀ (Sys2Proof.Machine.execAtcWin i requester fetchOk s) := by
  unfold Sys2Proof.Machine.execAtcWin
  repeat' first
    | with_reducible assumption
    | with_reducible apply KeepsR.next
    | with_reducible exact KeepsR.fault
    | with_reducible first | apply Keeps.readPort

theorem KeepsR.execCpbData (h : Keeps s₀ s) (i : Fin 8) (requester : Requester) :
    KeepsR s₀ (Sys2Proof.Machine.execCpbData i requester s) := by
  unfold Sys2Proof.Machine.execCpbData
  repeat' first
    | with_reducible assumption
    | with_reducible apply KeepsR.next
    | with_reducible exact KeepsR.fault
    | with_reducible first | apply Keeps.readPort

theorem KeepsR.execPmcSmpWin (h : Keeps s₀ s) (w : Wing) (i : Fin 8) (requester : Requester) (fetchOk : Bool) :
    KeepsR s₀ (Sys2Proof.Machine.execPmcSmpWin w i requester fetchOk s) := by
  unfold Sys2Proof.Machine.execPmcSmpWin
  repeat' first
    | with_reducible assumption
    | with_reducible apply KeepsR.next
    | with_reducible exact KeepsR.fault
    | with_reducible first | apply Keeps.readPort

end Sys2Proof.Machine
end

