-- ==== Sys2Proof/Laws/KeepsStalls.lean ====
section
/-! SUPPORT. What the operations of Machine/Stalls.lean keep, in the sense of Laws/Keeps.lean. -/

namespace Sys2Proof.Machine

variable {s₀ s t : State}

theorem KeepsR.execEvent (h : Keeps s₀ s) (external : Option EventIn) :
    KeepsR s₀ (Sys2Proof.Machine.execEvent external s) := by
  unfold Sys2Proof.Machine.execEvent
  repeat' first
    | with_reducible assumption
    | with_reducible apply KeepsR.next
    | with_reducible exact KeepsR.fault
    | with_reducible first | apply Keeps.collect | apply Keeps.release
    | fail_if_no_progress (with_reducible apply Keeps.upd)
    | split

theorem KeepsR.execEvqStallLimit (h : Keeps s₀ s) (queue : Option Wing) :
    KeepsR s₀ (Sys2Proof.Machine.execEvqStallLimit queue s) := by
  unfold Sys2Proof.Machine.execEvqStallLimit
  repeat' first
    | with_reducible assumption
    | (intro x; clear_value x)
    | with_reducible apply KeepsR.next
    | with_reducible exact KeepsR.fault
    | with_reducible first | apply Keeps.deliver | apply Keeps.release | apply Keeps.stalled
    | fail_if_no_progress (with_reducible apply Keeps.upd)
    | split
    | lift_lets

theorem KeepsR.execCupboardWriteDone (h : Keeps s₀ s) (matches_ : Bool) :
    KeepsR s₀ (Sys2Proof.Machine.execCupboardWriteDone matches_ s) := by
  unfold Sys2Proof.Machine.execCupboardWriteDone
  repeat' first
    | with_reducible assumption
    | with_reducible apply KeepsR.next
    | with_reducible exact KeepsR.fault
    | with_reducible first | apply Keeps.pageDone | apply Keeps.release
    | split

end Sys2Proof.Machine
end

