-- ==== Sys2Proof/Laws/State.lean ====
section
/-! SUPPORT. What the smallest operations on the state leave alone and what they set, one lemma for each field. -/

namespace Sys2Proof.Machine

variable (s : State)

@[simp] theorem State.setReg_pending (f : Fld) (i v : Nat) : (s.setReg f i v).pending = s.pending := rfl
@[simp] theorem State.setReg_out (f : Fld) (i v : Nat) : (s.setReg f i v).out = s.out := rfl
@[simp] theorem State.setReg_fresh (f : Fld) (i v : Nat) : (s.setReg f i v).fresh = s.fresh := rfl
@[simp] theorem State.setReg_part (f : Fld) (i v : Nat) : (s.setReg f i v).part = s.part := rfl
@[simp] theorem State.setReg_pw (f : Fld) (i v : Nat) : (s.setReg f i v).pw = s.pw := rfl
@[simp] theorem State.setReg_res (f : Fld) (i v : Nat) : (s.setReg f i v).res = s.res := rfl
@[simp] theorem State.setReg_flash (f : Fld) (i v : Nat) : (s.setReg f i v).flash = s.flash := rfl
@[simp] theorem State.setReg_plan (f : Fld) (i v : Nat) : (s.setReg f i v).plan = s.plan := rfl
@[simp] theorem State.setReg_hp (f : Fld) (i v : Nat) : (s.setReg f i v).hp = s.hp := rfl
@[simp] theorem State.setReg_rooms (f : Fld) (i v : Nat) : (s.setReg f i v).rooms = s.rooms := rfl
@[simp] theorem State.setReg_ti (f : Fld) (i v : Nat) : (s.setReg f i v).ti = s.ti := rfl
@[simp] theorem State.setReg_md (f : Fld) (i v : Nat) : (s.setReg f i v).md = s.md := rfl
@[simp] theorem State.setReg_rt (f : Fld) (i v : Nat) : (s.setReg f i v).rt = s.rt := rfl
@[simp] theorem State.setReg_lk (f : Fld) (i v : Nat) : (s.setReg f i v).lk = s.lk := rfl
@[simp] theorem State.setReg_br (f : Fld) (i v : Nat) : (s.setReg f i v).br = s.br := rfl
@[simp] theorem State.setReg_rg (f : Fld) (i v : Nat) : (s.setReg f i v).rg = s.rg := rfl
@[simp] theorem State.setReg_pl (f : Fld) (i v : Nat) : (s.setReg f i v).pl = s.pl := rfl
@[simp] theorem State.setReg_fl (f : Fld) (i v : Nat) : (s.setReg f i v).fl = s.fl := rfl
@[simp] theorem State.setReg_at_ (f : Fld) (i v : Nat) : (s.setReg f i v).at_ = s.at_ := rfl
@[simp] theorem State.setReg_cb (f : Fld) (i v : Nat) : (s.setReg f i v).cb = s.cb := rfl
@[simp] theorem State.setReg_me (f : Fld) (i v : Nat) : (s.setReg f i v).me = s.me := rfl

@[simp] theorem State.setFlag_pending (f : Fld) (i : Nat) (b : Bool) : (s.setFlag f i b).pending = s.pending := rfl
@[simp] theorem State.setFlag_out (f : Fld) (i : Nat) (b : Bool) : (s.setFlag f i b).out = s.out := rfl
@[simp] theorem State.setFlag_fresh (f : Fld) (i : Nat) (b : Bool) : (s.setFlag f i b).fresh = s.fresh := rfl
@[simp] theorem State.setFlag_part (f : Fld) (i : Nat) (b : Bool) : (s.setFlag f i b).part = s.part := rfl
@[simp] theorem State.setFlag_pw (f : Fld) (i : Nat) (b : Bool) : (s.setFlag f i b).pw = s.pw := rfl
@[simp] theorem State.setFlag_res (f : Fld) (i : Nat) (b : Bool) : (s.setFlag f i b).res = s.res := rfl
@[simp] theorem State.setFlag_flash (f : Fld) (i : Nat) (b : Bool) : (s.setFlag f i b).flash = s.flash := rfl
@[simp] theorem State.setFlag_plan (f : Fld) (i : Nat) (b : Bool) : (s.setFlag f i b).plan = s.plan := rfl
@[simp] theorem State.setFlag_hp (f : Fld) (i : Nat) (b : Bool) : (s.setFlag f i b).hp = s.hp := rfl
@[simp] theorem State.setFlag_rooms (f : Fld) (i : Nat) (b : Bool) : (s.setFlag f i b).rooms = s.rooms := rfl
@[simp] theorem State.setFlag_ti (f : Fld) (i : Nat) (b : Bool) : (s.setFlag f i b).ti = s.ti := rfl
@[simp] theorem State.setFlag_md (f : Fld) (i : Nat) (b : Bool) : (s.setFlag f i b).md = s.md := rfl
@[simp] theorem State.setFlag_rt (f : Fld) (i : Nat) (b : Bool) : (s.setFlag f i b).rt = s.rt := rfl
@[simp] theorem State.setFlag_lk (f : Fld) (i : Nat) (b : Bool) : (s.setFlag f i b).lk = s.lk := rfl
@[simp] theorem State.setFlag_br (f : Fld) (i : Nat) (b : Bool) : (s.setFlag f i b).br = s.br := rfl
@[simp] theorem State.setFlag_rg (f : Fld) (i : Nat) (b : Bool) : (s.setFlag f i b).rg = s.rg := rfl
@[simp] theorem State.setFlag_pl (f : Fld) (i : Nat) (b : Bool) : (s.setFlag f i b).pl = s.pl := rfl
@[simp] theorem State.setFlag_fl (f : Fld) (i : Nat) (b : Bool) : (s.setFlag f i b).fl = s.fl := rfl
@[simp] theorem State.setFlag_at_ (f : Fld) (i : Nat) (b : Bool) : (s.setFlag f i b).at_ = s.at_ := rfl
@[simp] theorem State.setFlag_cb (f : Fld) (i : Nat) (b : Bool) : (s.setFlag f i b).cb = s.cb := rfl
@[simp] theorem State.setFlag_me (f : Fld) (i : Nat) (b : Bool) : (s.setFlag f i b).me = s.me := rfl

@[simp] theorem State.satReg_pending (f : Fld) (i n : Nat) : (s.satReg f i n).pending = s.pending := rfl
@[simp] theorem State.satReg_out (f : Fld) (i n : Nat) : (s.satReg f i n).out = s.out := rfl
@[simp] theorem State.satReg_fresh (f : Fld) (i n : Nat) : (s.satReg f i n).fresh = s.fresh := rfl
@[simp] theorem State.satReg_part (f : Fld) (i n : Nat) : (s.satReg f i n).part = s.part := rfl
@[simp] theorem State.satReg_pw (f : Fld) (i n : Nat) : (s.satReg f i n).pw = s.pw := rfl
@[simp] theorem State.satReg_res (f : Fld) (i n : Nat) : (s.satReg f i n).res = s.res := rfl
@[simp] theorem State.satReg_flash (f : Fld) (i n : Nat) : (s.satReg f i n).flash = s.flash := rfl
@[simp] theorem State.satReg_plan (f : Fld) (i n : Nat) : (s.satReg f i n).plan = s.plan := rfl
@[simp] theorem State.satReg_hp (f : Fld) (i n : Nat) : (s.satReg f i n).hp = s.hp := rfl
@[simp] theorem State.satReg_rooms (f : Fld) (i n : Nat) : (s.satReg f i n).rooms = s.rooms := rfl
@[simp] theorem State.satReg_ti (f : Fld) (i n : Nat) : (s.satReg f i n).ti = s.ti := rfl
@[simp] theorem State.satReg_md (f : Fld) (i n : Nat) : (s.satReg f i n).md = s.md := rfl
@[simp] theorem State.satReg_rt (f : Fld) (i n : Nat) : (s.satReg f i n).rt = s.rt := rfl
@[simp] theorem State.satReg_lk (f : Fld) (i n : Nat) : (s.satReg f i n).lk = s.lk := rfl
@[simp] theorem State.satReg_br (f : Fld) (i n : Nat) : (s.satReg f i n).br = s.br := rfl
@[simp] theorem State.satReg_rg (f : Fld) (i n : Nat) : (s.satReg f i n).rg = s.rg := rfl
@[simp] theorem State.satReg_pl (f : Fld) (i n : Nat) : (s.satReg f i n).pl = s.pl := rfl
@[simp] theorem State.satReg_fl (f : Fld) (i n : Nat) : (s.satReg f i n).fl = s.fl := rfl
@[simp] theorem State.satReg_at_ (f : Fld) (i n : Nat) : (s.satReg f i n).at_ = s.at_ := rfl
@[simp] theorem State.satReg_cb (f : Fld) (i n : Nat) : (s.satReg f i n).cb = s.cb := rfl
@[simp] theorem State.satReg_me (f : Fld) (i n : Nat) : (s.satReg f i n).me = s.me := rfl

@[simp] theorem State.goto_pending (d : DevState) : (s.goto d).pending = s.pending := rfl
@[simp] theorem State.goto_out (d : DevState) : (s.goto d).out = s.out := rfl
@[simp] theorem State.goto_fresh (d : DevState) : (s.goto d).fresh = s.fresh := rfl
@[simp] theorem State.goto_part (d : DevState) : (s.goto d).part = s.part := rfl
@[simp] theorem State.goto_regs (d : DevState) : (s.goto d).regs = s.regs := rfl
@[simp] theorem State.goto_res (d : DevState) : (s.goto d).res = s.res := rfl
@[simp] theorem State.goto_flash (d : DevState) : (s.goto d).flash = s.flash := rfl
@[simp] theorem State.goto_plan (d : DevState) : (s.goto d).plan = s.plan := rfl
@[simp] theorem State.goto_hp (d : DevState) : (s.goto d).hp = s.hp := rfl
@[simp] theorem State.goto_rooms (d : DevState) : (s.goto d).rooms = s.rooms := rfl
@[simp] theorem State.goto_ti (d : DevState) : (s.goto d).ti = s.ti := rfl
@[simp] theorem State.goto_md (d : DevState) : (s.goto d).md = s.md := rfl
@[simp] theorem State.goto_rt (d : DevState) : (s.goto d).rt = s.rt := rfl
@[simp] theorem State.goto_lk (d : DevState) : (s.goto d).lk = s.lk := rfl
@[simp] theorem State.goto_br (d : DevState) : (s.goto d).br = s.br := rfl
@[simp] theorem State.goto_rg (d : DevState) : (s.goto d).rg = s.rg := rfl
@[simp] theorem State.goto_pl (d : DevState) : (s.goto d).pl = s.pl := rfl
@[simp] theorem State.goto_fl (d : DevState) : (s.goto d).fl = s.fl := rfl
@[simp] theorem State.goto_at_ (d : DevState) : (s.goto d).at_ = s.at_ := rfl
@[simp] theorem State.goto_cb (d : DevState) : (s.goto d).cb = s.cb := rfl
@[simp] theorem State.goto_me (d : DevState) : (s.goto d).me = s.me := rfl

@[simp] theorem State.send_pending (o : Out) : (s.send o).pending = s.pending := rfl
@[simp] theorem State.send_fresh (o : Out) : (s.send o).fresh = s.fresh := rfl
@[simp] theorem State.send_part (o : Out) : (s.send o).part = s.part := rfl
@[simp] theorem State.send_regs (o : Out) : (s.send o).regs = s.regs := rfl
@[simp] theorem State.send_pw (o : Out) : (s.send o).pw = s.pw := rfl
@[simp] theorem State.send_res (o : Out) : (s.send o).res = s.res := rfl
@[simp] theorem State.send_flash (o : Out) : (s.send o).flash = s.flash := rfl
@[simp] theorem State.send_plan (o : Out) : (s.send o).plan = s.plan := rfl
@[simp] theorem State.send_hp (o : Out) : (s.send o).hp = s.hp := rfl
@[simp] theorem State.send_rooms (o : Out) : (s.send o).rooms = s.rooms := rfl
@[simp] theorem State.send_ti (o : Out) : (s.send o).ti = s.ti := rfl
@[simp] theorem State.send_md (o : Out) : (s.send o).md = s.md := rfl
@[simp] theorem State.send_rt (o : Out) : (s.send o).rt = s.rt := rfl
@[simp] theorem State.send_lk (o : Out) : (s.send o).lk = s.lk := rfl
@[simp] theorem State.send_br (o : Out) : (s.send o).br = s.br := rfl
@[simp] theorem State.send_rg (o : Out) : (s.send o).rg = s.rg := rfl
@[simp] theorem State.send_pl (o : Out) : (s.send o).pl = s.pl := rfl
@[simp] theorem State.send_fl (o : Out) : (s.send o).fl = s.fl := rfl
@[simp] theorem State.send_at_ (o : Out) : (s.send o).at_ = s.at_ := rfl
@[simp] theorem State.send_cb (o : Out) : (s.send o).cb = s.cb := rfl
@[simp] theorem State.send_me (o : Out) : (s.send o).me = s.me := rfl

@[simp] theorem State.goto_pw (d : DevState) :
    (s.goto d).pw = { s.pw with dev := d, previous := s.pw.dev } := rfl
@[simp] theorem State.send_out (o : Out) : (s.send o).out = s.out ++ [o] := rfl
@[simp] theorem State.goto_reg (d : DevState) (f : Fld) (i : Nat) : (s.goto d).reg f i = s.reg f i := rfl
@[simp] theorem State.send_reg (o : Out) (f : Fld) (i : Nat) : (s.send o).reg f i = s.reg f i := rfl

@[simp] theorem State.post_pending (e : EventIn) (own : Bool) : (s.post e own).pending = s.pending := by
  unfold State.post; split <;> rfl
@[simp] theorem State.post_out (e : EventIn) (own : Bool) : (s.post e own).out = s.out := by
  unfold State.post; split <;> rfl
@[simp] theorem State.post_fresh (e : EventIn) (own : Bool) : (s.post e own).fresh = s.fresh := by
  unfold State.post; split <;> rfl
@[simp] theorem State.post_part (e : EventIn) (own : Bool) : (s.post e own).part = s.part := by
  unfold State.post; split <;> rfl
@[simp] theorem State.post_reg (e : EventIn) (own : Bool) (f : Fld) (i : Nat) : (s.post e own).reg f i = s.reg f i := by
  unfold State.post; split <;> rfl
@[simp] theorem State.emitEv_reg (e : EventIn) (f : Fld) (i : Nat) : (s.emitEv e).reg f i = s.reg f i := s.post_reg ..
@[simp] theorem State.emit_reg (src : Nat) (f : Fld) (i : Nat) : (s.emit src).reg f i = s.reg f i := s.post_reg ..
@[simp] theorem State.post_regs (e : EventIn) (own : Bool) : (s.post e own).regs = s.regs := by
  unfold State.post; split <;> rfl
@[simp] theorem State.post_pw (e : EventIn) (own : Bool) : (s.post e own).pw = s.pw := by
  unfold State.post; split <;> rfl
@[simp] theorem State.post_res (e : EventIn) (own : Bool) : (s.post e own).res = s.res := by
  unfold State.post; split <;> rfl
@[simp] theorem State.post_flash (e : EventIn) (own : Bool) : (s.post e own).flash = s.flash := by
  unfold State.post; split <;> rfl
@[simp] theorem State.post_plan (e : EventIn) (own : Bool) : (s.post e own).plan = s.plan := by
  unfold State.post; split <;> rfl
@[simp] theorem State.post_hp (e : EventIn) (own : Bool) : (s.post e own).hp = s.hp := by
  unfold State.post; split <;> rfl
@[simp] theorem State.post_rooms (e : EventIn) (own : Bool) : (s.post e own).rooms = s.rooms := by
  unfold State.post; split <;> rfl
@[simp] theorem State.post_ti (e : EventIn) (own : Bool) : (s.post e own).ti = s.ti := by
  unfold State.post; split <;> rfl
@[simp] theorem State.post_md (e : EventIn) (own : Bool) : (s.post e own).md = s.md := by
  unfold State.post; split <;> rfl
@[simp] theorem State.post_rt (e : EventIn) (own : Bool) : (s.post e own).rt = s.rt := by
  unfold State.post; split <;> rfl
@[simp] theorem State.post_lk (e : EventIn) (own : Bool) : (s.post e own).lk = s.lk := by
  unfold State.post; split <;> rfl
@[simp] theorem State.post_br (e : EventIn) (own : Bool) : (s.post e own).br = s.br := by
  unfold State.post; split <;> rfl
@[simp] theorem State.post_rg (e : EventIn) (own : Bool) : (s.post e own).rg = s.rg := by
  unfold State.post; split <;> rfl
@[simp] theorem State.post_pl (e : EventIn) (own : Bool) : (s.post e own).pl = s.pl := by
  unfold State.post; split <;> rfl
@[simp] theorem State.post_at_ (e : EventIn) (own : Bool) : (s.post e own).at_ = s.at_ := by
  unfold State.post; split <;> rfl
@[simp] theorem State.post_cb (e : EventIn) (own : Bool) : (s.post e own).cb = s.cb := by
  unfold State.post; split <;> rfl
@[simp] theorem State.post_me (e : EventIn) (own : Bool) : (s.post e own).me = s.me := by
  unfold State.post; split <;> rfl

@[simp] theorem State.emitEv_pending (e : EventIn) : (s.emitEv e).pending = s.pending := s.post_pending e false
@[simp] theorem State.emitEv_out (e : EventIn) : (s.emitEv e).out = s.out := s.post_out e false
@[simp] theorem State.emitEv_fresh (e : EventIn) : (s.emitEv e).fresh = s.fresh := s.post_fresh e false
@[simp] theorem State.emitEv_part (e : EventIn) : (s.emitEv e).part = s.part := s.post_part e false
@[simp] theorem State.emitEv_regs (e : EventIn) : (s.emitEv e).regs = s.regs := s.post_regs e false
@[simp] theorem State.emitEv_pw (e : EventIn) : (s.emitEv e).pw = s.pw := s.post_pw e false
@[simp] theorem State.emitEv_res (e : EventIn) : (s.emitEv e).res = s.res := s.post_res e false
@[simp] theorem State.emitEv_flash (e : EventIn) : (s.emitEv e).flash = s.flash := s.post_flash e false
@[simp] theorem State.emitEv_plan (e : EventIn) : (s.emitEv e).plan = s.plan := s.post_plan e false
@[simp] theorem State.emitEv_hp (e : EventIn) : (s.emitEv e).hp = s.hp := s.post_hp e false
@[simp] theorem State.emitEv_rooms (e : EventIn) : (s.emitEv e).rooms = s.rooms := s.post_rooms e false
@[simp] theorem State.emitEv_ti (e : EventIn) : (s.emitEv e).ti = s.ti := s.post_ti e false
@[simp] theorem State.emitEv_md (e : EventIn) : (s.emitEv e).md = s.md := s.post_md e false
@[simp] theorem State.emitEv_rt (e : EventIn) : (s.emitEv e).rt = s.rt := s.post_rt e false
@[simp] theorem State.emitEv_lk (e : EventIn) : (s.emitEv e).lk = s.lk := s.post_lk e false
@[simp] theorem State.emitEv_br (e : EventIn) : (s.emitEv e).br = s.br := s.post_br e false
@[simp] theorem State.emitEv_rg (e : EventIn) : (s.emitEv e).rg = s.rg := s.post_rg e false
@[simp] theorem State.emitEv_pl (e : EventIn) : (s.emitEv e).pl = s.pl := s.post_pl e false
@[simp] theorem State.emitEv_at_ (e : EventIn) : (s.emitEv e).at_ = s.at_ := s.post_at_ e false
@[simp] theorem State.emitEv_cb (e : EventIn) : (s.emitEv e).cb = s.cb := s.post_cb e false
@[simp] theorem State.emitEv_me (e : EventIn) : (s.emitEv e).me = s.me := s.post_me e false

@[simp] theorem State.emit_pending (src : Nat) : (s.emit src).pending = s.pending := s.post_pending _ false
@[simp] theorem State.emit_out (src : Nat) : (s.emit src).out = s.out := s.post_out _ false
@[simp] theorem State.emit_fresh (src : Nat) : (s.emit src).fresh = s.fresh := s.post_fresh _ false
@[simp] theorem State.emit_part (src : Nat) : (s.emit src).part = s.part := s.post_part _ false
@[simp] theorem State.emit_regs (src : Nat) : (s.emit src).regs = s.regs := s.post_regs _ false
@[simp] theorem State.emit_pw (src : Nat) : (s.emit src).pw = s.pw := s.post_pw _ false
@[simp] theorem State.emit_res (src : Nat) : (s.emit src).res = s.res := s.post_res _ false
@[simp] theorem State.emit_flash (src : Nat) : (s.emit src).flash = s.flash := s.post_flash _ false
@[simp] theorem State.emit_plan (src : Nat) : (s.emit src).plan = s.plan := s.post_plan _ false
@[simp] theorem State.emit_hp (src : Nat) : (s.emit src).hp = s.hp := s.post_hp _ false
@[simp] theorem State.emit_rooms (src : Nat) : (s.emit src).rooms = s.rooms := s.post_rooms _ false
@[simp] theorem State.emit_ti (src : Nat) : (s.emit src).ti = s.ti := s.post_ti _ false
@[simp] theorem State.emit_md (src : Nat) : (s.emit src).md = s.md := s.post_md _ false
@[simp] theorem State.emit_rt (src : Nat) : (s.emit src).rt = s.rt := s.post_rt _ false
@[simp] theorem State.emit_lk (src : Nat) : (s.emit src).lk = s.lk := s.post_lk _ false
@[simp] theorem State.emit_br (src : Nat) : (s.emit src).br = s.br := s.post_br _ false
@[simp] theorem State.emit_rg (src : Nat) : (s.emit src).rg = s.rg := s.post_rg _ false
@[simp] theorem State.emit_pl (src : Nat) : (s.emit src).pl = s.pl := s.post_pl _ false
@[simp] theorem State.emit_at_ (src : Nat) : (s.emit src).at_ = s.at_ := s.post_at_ _ false
@[simp] theorem State.emit_cb (src : Nat) : (s.emit src).cb = s.cb := s.post_cb _ false
@[simp] theorem State.emit_me (src : Nat) : (s.emit src).me = s.me := s.post_me _ false

@[simp] theorem State.emitReq_pending (a b c d e : Nat) : (s.emitReq a b c d e).pending = s.pending := s.post_pending _ false
@[simp] theorem State.emitReq_out (a b c d e : Nat) : (s.emitReq a b c d e).out = s.out := s.post_out _ false
@[simp] theorem State.emitReq_fresh (a b c d e : Nat) : (s.emitReq a b c d e).fresh = s.fresh := s.post_fresh _ false
@[simp] theorem State.emitReq_part (a b c d e : Nat) : (s.emitReq a b c d e).part = s.part := s.post_part _ false
@[simp] theorem State.emitReq_regs (a b c d e : Nat) : (s.emitReq a b c d e).regs = s.regs := s.post_regs _ false
@[simp] theorem State.emitReq_pw (a b c d e : Nat) : (s.emitReq a b c d e).pw = s.pw := s.post_pw _ false
@[simp] theorem State.emitReq_res (a b c d e : Nat) : (s.emitReq a b c d e).res = s.res := s.post_res _ false
@[simp] theorem State.emitReq_flash (a b c d e : Nat) : (s.emitReq a b c d e).flash = s.flash := s.post_flash _ false
@[simp] theorem State.emitReq_plan (a b c d e : Nat) : (s.emitReq a b c d e).plan = s.plan := s.post_plan _ false
@[simp] theorem State.emitReq_hp (a b c d e : Nat) : (s.emitReq a b c d e).hp = s.hp := s.post_hp _ false
@[simp] theorem State.emitReq_rooms (a b c d e : Nat) : (s.emitReq a b c d e).rooms = s.rooms := s.post_rooms _ false
@[simp] theorem State.emitReq_ti (a b c d e : Nat) : (s.emitReq a b c d e).ti = s.ti := s.post_ti _ false
@[simp] theorem State.emitReq_md (a b c d e : Nat) : (s.emitReq a b c d e).md = s.md := s.post_md _ false
@[simp] theorem State.emitReq_rt (a b c d e : Nat) : (s.emitReq a b c d e).rt = s.rt := s.post_rt _ false
@[simp] theorem State.emitReq_lk (a b c d e : Nat) : (s.emitReq a b c d e).lk = s.lk := s.post_lk _ false
@[simp] theorem State.emitReq_br (a b c d e : Nat) : (s.emitReq a b c d e).br = s.br := s.post_br _ false
@[simp] theorem State.emitReq_rg (a b c d e : Nat) : (s.emitReq a b c d e).rg = s.rg := s.post_rg _ false
@[simp] theorem State.emitReq_pl (a b c d e : Nat) : (s.emitReq a b c d e).pl = s.pl := s.post_pl _ false
@[simp] theorem State.emitReq_at_ (a b c d e : Nat) : (s.emitReq a b c d e).at_ = s.at_ := s.post_at_ _ false
@[simp] theorem State.emitReq_cb (a b c d e : Nat) : (s.emitReq a b c d e).cb = s.cb := s.post_cb _ false
@[simp] theorem State.emitReq_me (a b c d e : Nat) : (s.emitReq a b c d e).me = s.me := s.post_me _ false

@[simp] theorem State.level_pending (src : Nat) (on : Bool) : (s.level src on).pending = s.pending := by
  unfold State.level; dsimp only; split <;> simp
@[simp] theorem State.level_out (src : Nat) (on : Bool) : (s.level src on).out = s.out := by
  unfold State.level; dsimp only; split <;> simp
@[simp] theorem State.level_fresh (src : Nat) (on : Bool) : (s.level src on).fresh = s.fresh := by
  unfold State.level; dsimp only; split <;> simp
@[simp] theorem State.level_part (src : Nat) (on : Bool) : (s.level src on).part = s.part := by
  unfold State.level; dsimp only; split <;> simp
@[simp] theorem State.level_pw (src : Nat) (on : Bool) : (s.level src on).pw = s.pw := by
  unfold State.level; dsimp only; split <;> simp
@[simp] theorem State.level_res (src : Nat) (on : Bool) : (s.level src on).res = s.res := by
  unfold State.level; dsimp only; split <;> simp
@[simp] theorem State.level_flash (src : Nat) (on : Bool) : (s.level src on).flash = s.flash := by
  unfold State.level; dsimp only; split <;> simp
@[simp] theorem State.level_plan (src : Nat) (on : Bool) : (s.level src on).plan = s.plan := by
  unfold State.level; dsimp only; split <;> simp
@[simp] theorem State.level_hp (src : Nat) (on : Bool) : (s.level src on).hp = s.hp := by
  unfold State.level; dsimp only; split <;> simp
@[simp] theorem State.level_rooms (src : Nat) (on : Bool) : (s.level src on).rooms = s.rooms := by
  unfold State.level; dsimp only; split <;> simp
@[simp] theorem State.level_ti (src : Nat) (on : Bool) : (s.level src on).ti = s.ti := by
  unfold State.level; dsimp only; split <;> simp
@[simp] theorem State.level_md (src : Nat) (on : Bool) : (s.level src on).md = s.md := by
  unfold State.level; dsimp only; split <;> simp
@[simp] theorem State.level_rt (src : Nat) (on : Bool) : (s.level src on).rt = s.rt := by
  unfold State.level; dsimp only; split <;> simp
@[simp] theorem State.level_lk (src : Nat) (on : Bool) : (s.level src on).lk = s.lk := by
  unfold State.level; dsimp only; split <;> simp
@[simp] theorem State.level_br (src : Nat) (on : Bool) : (s.level src on).br = s.br := by
  unfold State.level; dsimp only; split <;> simp
@[simp] theorem State.level_rg (src : Nat) (on : Bool) : (s.level src on).rg = s.rg := by
  unfold State.level; dsimp only; split <;> simp
@[simp] theorem State.level_pl (src : Nat) (on : Bool) : (s.level src on).pl = s.pl := by
  unfold State.level; dsimp only; split <;> simp
@[simp] theorem State.level_at_ (src : Nat) (on : Bool) : (s.level src on).at_ = s.at_ := by
  unfold State.level; dsimp only; split <;> simp
@[simp] theorem State.level_cb (src : Nat) (on : Bool) : (s.level src on).cb = s.cb := by
  unfold State.level; dsimp only; split <;> simp
@[simp] theorem State.level_me (src : Nat) (on : Bool) : (s.level src on).me = s.me := by
  unfold State.level; dsimp only; split <;> simp

@[simp] theorem State.wrapped_pending (c : Nat) : (s.wrapped c).pending = s.pending := by
  unfold State.wrapped; dsimp only; split <;> split <;> (try split) <;> rfl
@[simp] theorem State.wrapped_fresh (c : Nat) : (s.wrapped c).fresh = s.fresh := by
  unfold State.wrapped; dsimp only; split <;> split <;> (try split) <;> rfl
@[simp] theorem State.wrapped_part (c : Nat) : (s.wrapped c).part = s.part := by
  unfold State.wrapped; dsimp only; split <;> split <;> (try split) <;> rfl
@[simp] theorem State.wrapped_pw (c : Nat) : (s.wrapped c).pw = s.pw := by
  unfold State.wrapped; dsimp only; split <;> split <;> (try split) <;> rfl
@[simp] theorem State.wrapped_res (c : Nat) : (s.wrapped c).res = s.res := by
  unfold State.wrapped; dsimp only; split <;> split <;> (try split) <;> rfl
@[simp] theorem State.wrapped_flash (c : Nat) : (s.wrapped c).flash = s.flash := by
  unfold State.wrapped; dsimp only; split <;> split <;> (try split) <;> rfl
@[simp] theorem State.wrapped_plan (c : Nat) : (s.wrapped c).plan = s.plan := by
  unfold State.wrapped; dsimp only; split <;> split <;> (try split) <;> rfl
@[simp] theorem State.wrapped_hp (c : Nat) : (s.wrapped c).hp = s.hp := by
  unfold State.wrapped; dsimp only; split <;> split <;> (try split) <;> rfl
@[simp] theorem State.wrapped_rooms (c : Nat) : (s.wrapped c).rooms = s.rooms := by
  unfold State.wrapped; dsimp only; split <;> split <;> (try split) <;> rfl
@[simp] theorem State.wrapped_ti (c : Nat) : (s.wrapped c).ti = s.ti := by
  unfold State.wrapped; dsimp only; split <;> split <;> (try split) <;> rfl
@[simp] theorem State.wrapped_md (c : Nat) : (s.wrapped c).md = s.md := by
  unfold State.wrapped; dsimp only; split <;> split <;> (try split) <;> rfl
@[simp] theorem State.wrapped_rt (c : Nat) : (s.wrapped c).rt = s.rt := by
  unfold State.wrapped; dsimp only; split <;> split <;> (try split) <;> rfl
@[simp] theorem State.wrapped_lk (c : Nat) : (s.wrapped c).lk = s.lk := by
  unfold State.wrapped; dsimp only; split <;> split <;> (try split) <;> rfl
@[simp] theorem State.wrapped_br (c : Nat) : (s.wrapped c).br = s.br := by
  unfold State.wrapped; dsimp only; split <;> split <;> (try split) <;> rfl
@[simp] theorem State.wrapped_rg (c : Nat) : (s.wrapped c).rg = s.rg := by
  unfold State.wrapped; dsimp only; split <;> split <;> (try split) <;> rfl
@[simp] theorem State.wrapped_pl (c : Nat) : (s.wrapped c).pl = s.pl := by
  unfold State.wrapped; dsimp only; split <;> split <;> (try split) <;> rfl
@[simp] theorem State.wrapped_fl (c : Nat) : (s.wrapped c).fl = s.fl := by
  unfold State.wrapped; dsimp only; split <;> split <;> (try split) <;> rfl
@[simp] theorem State.wrapped_at_ (c : Nat) : (s.wrapped c).at_ = s.at_ := by
  unfold State.wrapped; dsimp only; split <;> split <;> (try split) <;> rfl
@[simp] theorem State.wrapped_cb (c : Nat) : (s.wrapped c).cb = s.cb := by
  unfold State.wrapped; dsimp only; split <;> split <;> (try split) <;> rfl

@[simp] theorem State.count_pending (c n : Nat) : (s.count c n).pending = s.pending := by
  unfold State.count; dsimp only; split <;> (try split) <;> first | rfl | simp
@[simp] theorem State.count_fresh (c n : Nat) : (s.count c n).fresh = s.fresh := by
  unfold State.count; dsimp only; split <;> (try split) <;> first | rfl | simp
@[simp] theorem State.count_part (c n : Nat) : (s.count c n).part = s.part := by
  unfold State.count; dsimp only; split <;> (try split) <;> first | rfl | simp
@[simp] theorem State.count_pw (c n : Nat) : (s.count c n).pw = s.pw := by
  unfold State.count; dsimp only; split <;> (try split) <;> first | rfl | simp
@[simp] theorem State.count_res (c n : Nat) : (s.count c n).res = s.res := by
  unfold State.count; dsimp only; split <;> (try split) <;> first | rfl | simp
@[simp] theorem State.count_flash (c n : Nat) : (s.count c n).flash = s.flash := by
  unfold State.count; dsimp only; split <;> (try split) <;> first | rfl | simp
@[simp] theorem State.count_plan (c n : Nat) : (s.count c n).plan = s.plan := by
  unfold State.count; dsimp only; split <;> (try split) <;> first | rfl | simp
@[simp] theorem State.count_hp (c n : Nat) : (s.count c n).hp = s.hp := by
  unfold State.count; dsimp only; split <;> (try split) <;> first | rfl | simp
@[simp] theorem State.count_rooms (c n : Nat) : (s.count c n).rooms = s.rooms := by
  unfold State.count; dsimp only; split <;> (try split) <;> first | rfl | simp
@[simp] theorem State.count_ti (c n : Nat) : (s.count c n).ti = s.ti := by
  unfold State.count; dsimp only; split <;> (try split) <;> first | rfl | simp
@[simp] theorem State.count_md (c n : Nat) : (s.count c n).md = s.md := by
  unfold State.count; dsimp only; split <;> (try split) <;> first | rfl | simp
@[simp] theorem State.count_rt (c n : Nat) : (s.count c n).rt = s.rt := by
  unfold State.count; dsimp only; split <;> (try split) <;> first | rfl | simp
@[simp] theorem State.count_lk (c n : Nat) : (s.count c n).lk = s.lk := by
  unfold State.count; dsimp only; split <;> (try split) <;> first | rfl | simp
@[simp] theorem State.count_br (c n : Nat) : (s.count c n).br = s.br := by
  unfold State.count; dsimp only; split <;> (try split) <;> first | rfl | simp
@[simp] theorem State.count_rg (c n : Nat) : (s.count c n).rg = s.rg := by
  unfold State.count; dsimp only; split <;> (try split) <;> first | rfl | simp
@[simp] theorem State.count_pl (c n : Nat) : (s.count c n).pl = s.pl := by
  unfold State.count; dsimp only; split <;> (try split) <;> first | rfl | simp
@[simp] theorem State.count_fl (c n : Nat) : (s.count c n).fl = s.fl := by
  unfold State.count; dsimp only; split <;> (try split) <;> first | rfl | simp
@[simp] theorem State.count_at_ (c n : Nat) : (s.count c n).at_ = s.at_ := by
  unfold State.count; dsimp only; split <;> (try split) <;> first | rfl | simp
@[simp] theorem State.count_cb (c n : Nat) : (s.count c n).cb = s.cb := by
  unfold State.count; dsimp only; split <;> (try split) <;> first | rfl | simp

end Sys2Proof.Machine
end

