-- ==== Sys2Proof/Laws/Commands.lean ====
section
/-! SUPPORT. What the operations that commands share do, said once: a mailbox command, a doorbell, a command of a Stair
channel, a Landing request or a pool command that reaches its unit; and what counting and events leave of the
registers. -/

namespace Sys2Proof

open Machine

/-- No register differs. -/
theorem SameRegs.refl (l s) : SameRegs l s s := fun _ _ _ => rfl

/-- Setting a register of the list leaves the others as they were. -/
theorem SameRegs.set {l s t} (h : SameRegs l s t) (f i v) (m : (f,i) ∈ l) : SameRegs l s (t.setReg f i v) := by
  intro g j hj
  rw [reg_setReg_other]; exact h g j hj
  rintro ⟨rfl, rfl⟩; exact hj m

/-- Setting a flag of the list leaves the others as they were. -/
theorem SameRegs.flag {l s t} (h : SameRegs l s t) (f i v) (m : (f,i) ∈ l) : SameRegs l s (t.setFlag f i v) := h.set
    f i _ m

end Sys2Proof

namespace Sys2Proof.Machine

/-- A register after one is set. -/
theorem reg_set (s : State) (f g : Fld) (i j v : Nat) (h : RegsOk s.regs) : (s.setReg f i v).reg g j = if g = f ∧ j
    = i then v % 2 ^ f.desc.width else s.reg g j := by
  split
  · next e => obtain ⟨rfl, rfl⟩ := e; exact reg_setReg_same _ _ _ _ h.1
  · next e => exact reg_setReg_other _ _ _ _ _ _ e

/-- A flag reads as it was set. -/
theorem flag_setFlag {s : State} (h : RegsOk s.regs) (f : Fld) (i) (b : Bool) (w : f.desc.width = 1) : (s.setFlag f
    i b).flag f i = b := by
  unfold State.flag State.setFlag
  rw [reg_setReg_same _ _ _ _ h.1, w]; cases b <;> rfl

/-- A register that no step of a fold changes. -/
theorem reg_foldl {α : Type} (l : List α) (f : State → α → State) (g : Fld) (j : Nat) (h : ∀ s x, (f s x).reg g j =
    s.reg g j) (s : State) :
   (l.foldl f s).reg g j = s.reg g j := by
  induction l generalizing s with
  | nil => rfl
  | cons x l ih => exact (ih _).trans (h s x)

/-- A part of the state that no step of a fold changes. -/
theorem proj_foldl {α β : Type} (l : List α) (f : State → α → State) (p : State → β) (h : ∀ s x, p (f s x) = p s) (s
    : State) :
   p (l.foldl f s) = p s := by
  induction l generalizing s with
  | nil => rfl
  | cons x l ih => exact (ih _).trans (h s x)

/-- A fold keeps the register table canonical where each step does. -/
theorem ok_foldl {α : Type} (l : List α) (f : State → α → State) (h : ∀ s x, RegsOk s.regs → RegsOk (f s x).regs) (s
    : State) (hs : RegsOk s.regs) :
   RegsOk (l.foldl f s).regs := by
  induction l generalizing s with
  | nil => exact hs
  | cons x l ih => exact ih _ (h s x hs)

/-- A flag is set where its register is not zero. -/
theorem flag_iff (s : State) (f : Fld) (i : Nat) : (s.flag f i = true) = (s.reg f i ≠ 0) := by simp [State.flag]

/-- A flag is clear where its register is zero. -/
theorem flag_iff' (s : State) (f : Fld) (i : Nat) : (s.flag f i = false) = (s.reg f i = 0) := by simp [State.flag]

/-- A level changes no register but its STATUS. -/
theorem reg_level_other (s : State) (src : Nat) (on : Bool) (f : Fld) (i : Nat) (h : f ≠ .FLT_SRC_STATUS) : (s.level
    src on).reg f i = s.reg f i := by
  have e : (s.setFlag .FLT_SRC_STATUS src on).reg f i = s.reg f i := reg_setReg_other _ _ _ _ _ _ (by simp [h])
  unfold State.level
  dsimp only
  split <;> simp [e]

/-- A wrap changes no register but PMC_OVF. -/
theorem reg_wrapped_other (s : State) (c : Nat) (f : Fld) (i : Nat) (h : f ≠ .PMC_OVF) : (s.wrapped c).reg f i =
    s.reg f i := by
  unfold State.wrapped
  dsimp only
  repeat' split
  all_goals first
    | rfl
    | exact (reg_setReg_other _ _ _ _ _ _ (by simp [h])).trans rfl

/-- Counting changes no register but PMC_OVF. -/
theorem reg_count_other (s : State) (c n : Nat) (f : Fld) (i : Nat) (h : f ≠ .PMC_OVF) : (s.count c n).reg f i =
    s.reg f i := by
  unfold State.count
  dsimp only
  repeat' split
  · rfl
  · rfl
  · exact (reg_wrapped_other _ _ _ _ h).trans rfl

/-- Registers are read from the register table alone. -/
theorem reg_congr {s t : State} (h : s.regs = t.regs) (f : Fld) (i : Nat) : s.reg f i = t.reg f i := by
  unfold State.reg; rw [h]

/-! ### Commands that reach their unit -/

/-- A mailbox command that reaches the mailbox runs and is answered (R100). -/
theorem mailbox_run {s : State} {f : Sender} (h : MayCommand s f) (op : Nat) (run : State → State × RetCode × List
    Word) :
    s.mailbox f op run = (run s).1.mailAnswer f op (run s).2.1 (run s).2.2 := by
  unfold State.mailbox
  rw [if_neg (by simp [h.1]), if_neg (by rcases h.2 with h | h <;> simp [h])]

/-- The same of the answer, from what the run gives. -/
theorem mailbox_next {s : State} {f : Sender} (h : MayCommand s f) (op : Nat) (run : State → State × RetCode × List
    Word)
    {t c p} (e : run s = (t, c, p)) : (Host.Outcome.next (s.mailbox f op run) : Result) = .next (t.mailAnswer f op c
        p) := by
  rw [mailbox_run h, e]

/-- Counting changes no plan. -/
theorem plan_count (s : State) (a b : Nat) : (s.count a b).plan = s.plan := by simp

/-- Counting changes no ring. -/
theorem ctx_count (s : State) (a b k : Nat) : (s.count a b).ctx k = s.ctx k := by simp [State.ctx]

/-- A doorbell that reaches its ring is counted and acts. -/
theorem doorbell_run {s : State} {requester page ring} (h : RingDoorbell s requester page ring) (run : State → Nat →
    State) :
    s.doorbell requester.val page.val ring.val run = run (s.count 256 1) (ringKey page ring) := by
  obtain ⟨h1, h2, h3⟩ := h
  unfold State.doorbell
  rw [if_neg (by simp [h1])]
  dsimp only
  rw [h2, if_neg (by simp), if_neg]
  simp only [State.ringExists, plan_count] at h3 ⊢
  simp [h3]

/-- The same of the answer, from what the run gives. -/
theorem doorbell_next {s : State} {requester page ring} (h : RingDoorbell s requester page ring) (run : State → Nat
    → State) {t}
    (e : run (s.count 256 1) (ringKey page ring) = t) : (Host.Outcome.next (s.doorbell requester.val page.val
        ring.val run) : Result) = .next t := by
  rw [doorbell_run h, e]

/-- The requester of a ring. -/
theorem ringKey_div (p : Requester) (r : RingNo) : ringKey p.val r.val / 64 = p.val := by unfold ringKey; omega

/-- A doorbell on another requester's page is discarded with an event (R93). -/
theorem foreign_run {s : State} {requester page : Requester} (ring : Nat) (h : s.pw.dev.hallOn = true) (n :
    s.requesterOf requester ≠ page.val) (run : State → Nat → State) :
    s.doorbell requester.val page.val ring run = ((s.count 256 1).satReg .RING_ERR_FOREIGN 0 1).emitReq srcForeign
        (s.requesterOf requester) 2 0 0 := by
  unfold State.doorbell
  rw [if_neg (by simp [h])]
  dsimp only
  rw [if_pos (by simp; exact n)]

/-- A command of a channel runs, and what waited for it goes on. -/
theorem onCommand_run {s : State} {ch : StairCh} {op c} (h : OnChannel s ch op c) (run : State → Channel → StairCmd
    → State) :
    s.onCommand ch.val op run = .next (run s c (stairCmd c.cmd)).settle := by
  obtain ⟨h1, h2, h3, h4⟩ := h
  unfold State.onCommand
  rw [h1]
  exact if_neg (by simp [h2, h3, h4])

/-- An instruction of a channel's program runs, and what waited for it goes on. -/
theorem onInstr_run {s : State} {ch : StairCh} {c i} (h : OnChannel s ch 11 c) (hi : c.instr = some i) (run : State
    → Channel → StairInstr → State) :
    s.onInstr ch.val run = .next (run s c i).settle := by
  unfold State.onInstr
  rw [onCommand_run h, hi]

/-- A Landing request that is acted on is answered with what the run gives. -/
theorem try_run {s : State} {h : Hdr} (p : LandingPasses s h) (type : Nat) (run : State → State × Option (Nat × Nat
    × List Word)) {u ty st b}
    (e : run (s.taken h) = (u, some (ty, st, b))) : s.landingTry h type run = u.landingAnswer h ty st b := by
  obtain ⟨p1, p2, p3, p4, p5⟩ := p
  unfold State.landingTry
  rw [if_neg (by simp [p1])]
  dsimp only
  have f : (lookD s.pl.answered h.src []).find? (fun x => x.seq == h.seq) = none := by
    rw [List.find?_eq_none]; intro x hx; simpa using p2 x hx
  rw [f]; dsimp only
  have tm : (s.count 321 1).term = s.term := by unfold State.term; exact reg_count_other _ _ _ _ _ (by simp)
  rw [if_neg (by simp [p3]), if_neg (by simp; exact p4), if_neg (by rw [tm]; omega)]
  unfold State.taken at e
  rw [e]

/-- The same of a request whose answer has its own type. -/
theorem in_run {s : State} {h : Hdr} (p : LandingPasses s h) (type : Nat) (run : State → State × Nat × List Word)
    {u st b}
    (e : run (s.taken h) = (u, st, b)) : s.landingIn h type run = u.landingAnswer h type st b := try_run p _ _ (by
        dsimp only; rw [e])

/-- The same of a request that only the manager may send, from the manager. -/
theorem mgr_run {s : State} {h : Hdr} (p : LandingPasses s h) (q : h.src = (s.taken h).pl.manager) (type : Nat) (run
    : State → State × Nat × List Word) {u st b}
    (e : run (s.taken h) = (u, st, b)) : s.landingIn h type (fun s => s.managerOnly h run) = u.landingAnswer h type
        st b :=
  in_run p _ _ (by unfold State.managerOnly; rw [if_pos (by simpa using q), e])

/-- A key operation that succeeds. -/
theorem key_run {s : State} {h : Hdr} (p : LandingPasses s h) (q : h.src = (s.taken h).pl.manager) (run : State →
    State × Except Nat (List Word)) {u b}
    (e : run (s.taken h) = (u, .ok b)) : s.keyOp h run = (u.count 193 1).landingAnswer h 5 0 b := by
  unfold State.keyOp
  exact mgr_run p q _ _ (by rw [e])

/-- A key operation that is refused answers its cause. -/
theorem key_bad {s : State} {h : Hdr} (p : LandingPasses s h) (q : h.src = (s.taken h).pl.manager) (run : State →
    State × Except Nat (List Word)) {u b}
    (e : run (s.taken h) = (u, .error b)) : s.keyOp h run = u.landingAnswer h 5 4 [pword b] := by
  unfold State.keyOp
  exact mgr_run p q _ _ (by rw [e])

/-- A pool command at the manager runs and is answered. -/
theorem pool_run {s : State} {f : Sender} (h : MayManage s f) (op : Nat) (run : State → State × Option (RetCode ×
    List Word)) {t c p}
    (e : run s = (t, some (c, p))) : (Host.Outcome.next (s.poolCommand f op run) : Result) = .next (t.mailAnswer f
        op c p) := by
  obtain ⟨⟨h1, h2⟩, h3⟩ := h
  unfold State.poolCommand
  rw [if_neg (by simp [h1]), if_neg (by rcases h2 with h | h <;> simp [h]), if_neg (by simp [h3]), e]

/-- A pool command at the manager whose answer comes later. -/
theorem pool_none {s : State} {f : Sender} (h : MayManage s f) (op : Nat) (run : State → State × Option (RetCode ×
    List Word)) {t}
    (e : run s = (t, none)) : (Host.Outcome.next (s.poolCommand f op run) : Result) = .next t := by
  obtain ⟨⟨h1, h2⟩, h3⟩ := h
  unfold State.poolCommand
  rw [if_neg (by simp [h1]), if_neg (by rcases h2 with h | h <;> simp [h]), if_neg (by simp [h3]), e]

/-! ### Counters -/

/-- A table reads what was put. -/
theorem lookD_put_same {α : Type} (m : SMap α) (k : Nat) (v d : α) : lookD (put m k v) k d = v := by simp [lookD]

/-- A table reads the same elsewhere. -/
theorem lookD_put_other {α : Type} (m : SMap α) {k j : Nat} (v d : α) (h : j ≠ k) : lookD (put m k v) j d = lookD m
    j d := by
  simp [lookD, look_put_other _ _ h]

/-- A wrap changes no counter. -/
theorem live_wrapped (s : State) (c : Nat) : (s.wrapped c).me.live = s.me.live := by
  unfold State.wrapped; dsimp only; repeat' split
  all_goals rfl

/-! ### What rings and their records change -/

/-- Nothing but the registers, the rings, the counters, the faults and what leaves the device differs. -/
structure RingFrame (s t : State) : Prop where
  pending : t.pending = s.pending
  fresh : t.fresh = s.fresh
  part : t.part = s.part
  pw : t.pw = s.pw
  res : t.res = s.res
  flash : t.flash = s.flash
  plan : t.plan = s.plan
  hp : t.hp = s.hp
  rooms : t.rooms = s.rooms
  ti : t.ti = s.ti
  md : t.md = s.md
  rt : t.rt = s.rt
  lk : t.lk = s.lk
  br : t.br = s.br
  pl : t.pl = s.pl
  at_ : t.at_ = s.at_
  cb : t.cb = s.cb

/-- The frame as an equation. -/
theorem RingFrame.eq {s t : State} (h : RingFrame s t) : t =
    { s with regs := t.regs, fl := t.fl, rg := t.rg, me := t.me, out := t.out } := by
  obtain ⟨a1,a2,a3,a4,a5,a6,a7,a8,a9,b1,b2,b3,b4,b5,b6,b7,b8⟩ := h
  cases t; cases s; simp_all

/-- Nothing differs. -/
theorem RingFrame.refl (s : State) : RingFrame s s := by constructor <;> rfl

/-- One after the other. -/
theorem RingFrame.trans {a s t : State} (h : RingFrame a s) (k : RingFrame s t) : RingFrame a t := by
  constructor
  all_goals first
    | exact k.pending.trans h.pending | exact k.fresh.trans h.fresh | exact k.part.trans h.part
    | exact k.pw.trans h.pw
    | exact k.res.trans h.res | exact k.flash.trans h.flash | exact k.plan.trans h.plan | exact k.hp.trans h.hp
    | exact k.rooms.trans h.rooms | exact k.ti.trans h.ti | exact k.md.trans h.md | exact k.rt.trans h.rt
    | exact k.lk.trans h.lk | exact k.br.trans h.br | exact k.pl.trans h.pl | exact k.at_.trans h.at_
    | exact k.cb.trans h.cb

/-- Setting a register. -/
theorem RingFrame.setReg (s : State) (f i v) : RingFrame s (s.setReg f i v) := by constructor <;> rfl

/-- A counter wraps. -/
theorem RingFrame.wrapped (s : State) (c) : RingFrame s (s.wrapped c) := by
  unfold State.wrapped; dsimp only; repeat' split
  all_goals (constructor <;> rfl)

/-- Counting. -/
theorem RingFrame.count (s : State) (c n) : RingFrame s (s.count c n) := by
  unfold State.count; dsimp only; repeat' split
  · exact .refl _
  · constructor <;> rfl
  · exact RingFrame.trans (by constructor <;> rfl) (RingFrame.wrapped _ _)

/-- An event. -/
theorem RingFrame.emitEv (s : State) (e) : RingFrame s (s.emitEv e) := by
  unfold State.emitEv State.post; split <;> (constructor <;> rfl)

/-- A ring context. -/
theorem RingFrame.setCtx (s : State) (k c) : RingFrame s (s.setCtx k c) := by constructor <;> rfl

/-- Something leaves the device. -/
theorem RingFrame.send (s : State) (o) : RingFrame s (s.send o) := by constructor <;> rfl

/-- A ring's interrupt message. -/
theorem RingFrame.ringMessage (s : State) (k) : RingFrame s (s.ringMessage k) := by
  unfold State.ringMessage; dsimp only; split
  · exact .refl _
  · exact ((RingFrame.setCtx _ _ _).trans (RingFrame.send _ _)).trans (RingFrame.count _ _ _)

/-- A choice. -/
theorem RingFrame.ite {s x y : State} {p : Prop} [Decidable p] (h : RingFrame s x) (k : RingFrame s y) : RingFrame s (if p then x else y) := by
  split <;> assumption

/-- A record written. -/
theorem RingFrame.putRecord (s : State) (k x) : RingFrame s (s.putRecord k x) := by
  obtain ⟨a, b, c, d, e⟩ := x
  unfold State.putRecord; dsimp only
  generalize hu : State.count (s.send _) 258 1 = u
  have base : RingFrame s u := by rw [← hu]; exact (RingFrame.send _ _).trans (RingFrame.count _ _ _)
  exact RingFrame.ite ((base.trans (RingFrame.setCtx _ _ _)).trans (RingFrame.ringMessage _ _)) (base.trans (RingFrame.setCtx _ _ _))

/-- A record written or waiting. -/
theorem RingFrame.record (s : State) (k x) : RingFrame s (s.record k x) := by
  unfold State.record; dsimp only; repeat' split
  · exact .refl _
  · exact RingFrame.setCtx _ _ _
  · exact RingFrame.putRecord _ _ _

/-- Waiting records written. -/
theorem RingFrame.flushRecords (n : Nat) : ∀ (s : State) (k), RingFrame s (State.flushRecords n s k) := by
  induction n with
  | zero => intro s k; exact .refl _
  | succ n ih =>
    intro s k; unfold State.flushRecords; dsimp only; repeat' split
    · exact .refl _
    · exact .refl _
    · exact ((RingFrame.setCtx _ _ _).trans (RingFrame.putRecord _ _ _)).trans (ih _ _)

/-- A ring moves to a state. -/
theorem RingFrame.setRing (s : State) (k st) : RingFrame s (s.setRing k st) := by
  unfold State.setRing; dsimp only; split
  · exact (RingFrame.setCtx _ _ _).trans (RingFrame.record _ _ _)
  · exact RingFrame.setCtx _ _ _

/-- Commands not started go back. -/
theorem RingFrame.unfetch (s : State) (k) : RingFrame s (s.unfetch k) := by
  unfold State.unfetch; dsimp only; split
  · exact .refl _
  · exact RingFrame.trans (by constructor <;> rfl) (RingFrame.setCtx _ _ _)

/-- A ring goes to ERROR. -/
theorem RingFrame.ringError (s : State) (k i st) : RingFrame s (s.ringError k i st) := by
  unfold State.ringError; dsimp only
  exact ((RingFrame.unfetch _ _).trans (RingFrame.setCtx _ _ _)).trans (RingFrame.setRing _ _ _)

/-- A STOPPING ring becomes STOPPED. -/
theorem RingFrame.ringStopped (s : State) (k) : RingFrame s (s.ringStopped k) := by
  unfold State.ringStopped; split
  · exact RingFrame.setRing _ _ _
  · exact .refl _

/-- A doorbell. -/
theorem RingFrame.doorbell (s : State) (r p k) (run : State → Nat → State) (h : ∀ s k, RingFrame s (run s k)) : RingFrame s (s.doorbell r p
    k run) := by
  unfold State.doorbell; dsimp only; repeat' split
  · exact .refl _
  · exact ((RingFrame.count _ _ _).trans (RingFrame.setReg _ _ _ _)).trans (RingFrame.emitEv _ _)
  · exact (RingFrame.count _ _ _).trans (RingFrame.setReg _ _ _ _)
  · exact (RingFrame.count _ _ _).trans (h _ _)

/-- A CTRL value. -/
theorem RingFrame.ctrl (s : State) (k l) (run : State → State) (h : ∀ s, RingFrame s (run s)) : RingFrame s (s.ctrl k l run) := by
  unfold State.ctrl; split
  · exact h _
  · exact RingFrame.setReg _ _ _ _

end Sys2Proof.Machine
end

