-- ==== Sys2Proof/Laws/KeepsExec.lean ====
section
/-! SUPPORT. What every command keeps: one case for each, from the lemmas of the families. -/

namespace Sys2Proof.Machine

/-- Every command that answers a next state keeps the queue it was run with, the part, what has left the device, and the
canonical forms of the register table and the memories. -/
theorem KeepsR.exec (c : Instr) (s : State) : KeepsR s (exec c s) := by
  cases c with
  | vstbyRise => exact KeepsR.execVstbyRise (Keeps.refl s)
  | vstbyLoss => exact KeepsR.execVstbyLoss (Keeps.refl s)
  | strapSample a => exact KeepsR.execStrapSample (Keeps.refl s) a
  | minimumOffTimeExpiry => exact KeepsR.execMinimumOffTimeExpiry (Keeps.refl s)
  | onRequest => exact KeepsR.execOnRequest (Keeps.refl s)
  | offRequest => exact KeepsR.execOffRequest (Keeps.refl s)
  | offReqWrite => exact KeepsR.execOffReqWrite (Keeps.refl s)
  | monitorConversion a b => exact KeepsR.execMonitorConversion (Keeps.refl s) a b
  | monitorQualified a => exact KeepsR.execMonitorQualified (Keeps.refl s) a
  | railFault a => exact KeepsR.execRailFault (Keeps.refl s) a
  | stepDelayExpiry => exact KeepsR.execStepDelayExpiry (Keeps.refl s)
  | stepTimeout => exact KeepsR.execStepTimeout (Keeps.refl s)
  | powerDownStepDelay => exact KeepsR.execPowerDownStepDelay (Keeps.refl s)
  | seqFaultRetry => exact KeepsR.execSeqFaultRetry (Keeps.refl s)
  | lrefLoss => exact KeepsR.execLrefLoss (Keeps.refl s)
  | groupSwitchDone a => exact KeepsR.execGroupSwitchDone (Keeps.refl s) a
  | floorPlanLoad a => exact KeepsR.execFloorPlanLoad (Keeps.refl s) a
  | pantryInitDone a => exact KeepsR.execPantryInitDone (Keeps.refl s) a
  | recovery => exact KeepsR.execRecovery (Keeps.refl s)
  | servingEntry a => exact KeepsR.execServingEntry (Keeps.refl s) a
  | vinSample a => exact KeepsR.execVinSample (Keeps.refl s) a
  | inputFailure => exact KeepsR.execInputFailure (Keeps.refl s)
  | reservoirExhausted => exact KeepsR.execReservoirExhausted (Keeps.refl s)
  | vinGood => exact KeepsR.execVinGood (Keeps.refl s)
  | wakeN => exact KeepsR.execWakeN (Keeps.refl s)
  | wakeWrite => exact KeepsR.execWakeWrite (Keeps.refl s)
  | wakeBeat => exact KeepsR.execWakeBeat (Keeps.refl s)
  | slumberReq => exact KeepsR.execSlumberReq (Keeps.refl s)
  | resSenseSample a => exact KeepsR.execResSenseSample (Keeps.refl s) a
  | reservoirReady => exact KeepsR.execReservoirReady (Keeps.refl s)
  | chgLimitExpiry => exact KeepsR.execChgLimitExpiry (Keeps.refl s)
  | reservoirAbsent => exact KeepsR.execReservoirAbsent (Keeps.refl s)
  | resNtcSample a => exact KeepsR.execResNtcSample (Keeps.refl s) a
  | chargeTestStart => exact KeepsR.execChargeTestStart (Keeps.refl s)
  | chargeTestFallEnd a b => exact KeepsR.execChargeTestFallEnd (Keeps.refl s) a b
  | chargeTestRiseEnd a => exact KeepsR.execChargeTestRiseEnd (Keeps.refl s) a
  | chargeTestRiseTimeout => exact KeepsR.execChargeTestRiseTimeout (Keeps.refl s)
  | testNow => exact KeepsR.execTestNow (Keeps.refl s)
  | sensorConversion a b => exact KeepsR.execSensorConversion (Keeps.refl s) a b
  | stageStep => exact KeepsR.execStageStep (Keeps.refl s)
  | rbeatEdge a => exact KeepsR.execRbeatEdge (Keeps.refl s) a
  | missingBeat => exact KeepsR.execMissingBeat (Keeps.refl s)
  | checkpoint => exact KeepsR.execCheckpoint (Keeps.refl s)
  | descriptorRewrite a b c d => exact KeepsR.execDescriptorRewrite (Keeps.refl s) a b c d
  | cupboardAnchor => exact KeepsR.execCupboardAnchor (Keeps.refl s)
  | atticFlush => exact KeepsR.execAtticFlush (Keeps.refl s)
  | healthSample => exact KeepsR.execHealthSample (Keeps.refl s)
  | bucketLeak => exact KeepsR.execBucketLeak (Keeps.refl s)
  | sketchDecay a => exact KeepsR.execSketchDecay (Keeps.refl s) a
  | scrubPassStart a => exact KeepsR.execScrubPassStart (Keeps.refl s) a
  | ageUnitTick => exact KeepsR.execAgeUnitTick (Keeps.refl s)
  | counterSnapshot => exact KeepsR.execCounterSnapshot (Keeps.refl s)
  | cadenceFrame a => exact KeepsR.execCadenceFrame (Keeps.refl s) a
  | programSlot a b c => exact KeepsR.execProgramSlot (Keeps.refl s) a b c
  | writeBackSelection a => exact KeepsR.execWriteBackSelection (Keeps.refl s) a
  | mediaReadData a b c d e f => exact KeepsR.execMediaReadData (Keeps.refl s) a b c d e f
  | doneNLow a => exact KeepsR.execDoneNLow (Keeps.refl s) a
  | statusRecord a b c d e f g => exact KeepsR.execStatusRecord (Keeps.refl s) a b c d e f g
  | suspendOp a b => exact KeepsR.execSuspendOp (Keeps.refl s) a b
  | bankSuspended a b => exact KeepsR.execBankSuspended (Keeps.refl s) a b
  | tempRead a b c => exact KeepsR.execTempRead (Keeps.refl s) a b c
  | alertN a => exact KeepsR.execAlertN (Keeps.refl s) a
  | mediaTimeout a b c => exact KeepsR.execMediaTimeout (Keeps.refl s) a b c
  | frameMigrationSwitch a b => exact KeepsR.execFrameMigrationSwitch (Keeps.refl s) a b
  | promotionDone a b => exact KeepsR.execPromotionDone (Keeps.refl s) a b
  | larderReadData a b c d e f g => exact KeepsR.execLarderReadData (Keeps.refl s) a b c d e f g
  | larderPatrolScrub a b c d => exact KeepsR.execLarderPatrolScrub (Keeps.refl s) a b c d
  | larderTempRead a b c => exact KeepsR.execLarderTempRead (Keeps.refl s) a b c
  | pacedWriteAdmit a => exact KeepsR.execPacedWriteAdmit (Keeps.refl s) a
  | logEntryApply a => exact KeepsR.execLogEntryApply (Keeps.refl s) a
  | corridorPacket a b => exact KeepsR.execCorridorPacket (Keeps.refl s) a b
  | laneRepair a => exact KeepsR.execLaneRepair (Keeps.refl s) a
  | linkTraining a => exact KeepsR.execLinkTraining (Keeps.refl s) a
  | trainingRetry => exact KeepsR.execTrainingRetry (Keeps.refl s)
  | linkRecovery => exact KeepsR.execLinkRecovery (Keeps.refl s)
  | linkL0 => exact KeepsR.execLinkL0 (Keeps.refl s)
  | flitReplay a => exact KeepsR.execFlitReplay (Keeps.refl s) a
  | dlDown => exact KeepsR.execDlDown (Keeps.refl s)
  | perstN => exact KeepsR.execPerstN (Keeps.refl s)
  | retrain => exact KeepsR.execRetrain (Keeps.refl s)
  | viral => exact KeepsR.execViral (Keeps.refl s)
  | memRd a b => exact KeepsR.execMemRd (Keeps.refl s) a b
  | memRdData a => exact KeepsR.execMemRdData (Keeps.refl s) a
  | memWr a b c d => exact KeepsR.execMemWr (Keeps.refl s) a b c d
  | memWrPtl a b c d e => exact KeepsR.execMemWrPtl (Keeps.refl s) a b c d e
  | memInv a b => exact KeepsR.execMemInv (Keeps.refl s) a b
  | memInvNt a b => exact KeepsR.execMemInvNt (Keeps.refl s) a b
  | uioRead a b => exact KeepsR.execUioRead (Keeps.refl s) a b
  | uioWrite a b => exact KeepsR.execUioWrite (Keeps.refl s) a b
  | biRsp a b c d => exact KeepsR.execBiRsp (Keeps.refl s) a b c d
  | bisnpResend a b c d => exact KeepsR.execBisnpResend (Keeps.refl s) a b c d
  | requesterFailed a => exact KeepsR.execRequesterFailed (Keeps.refl s) a
  | globalPersistentFlush a => exact KeepsR.execGlobalPersistentFlush (Keeps.refl s) a
  | atomicDescriptor a b c d => exact KeepsR.execAtomicDescriptor (Keeps.refl s) a b c d
  | refillRound => exact KeepsR.execRefillRound (Keeps.refl s)
  | ideKeyProgram a => exact KeepsR.execIdeKeyProgram (Keeps.refl s) a
  | spdmGetMeasurements a => exact KeepsR.execSpdmGetMeasurements (Keeps.refl s) a
  | msixDestValid a => exact KeepsR.execMsixDestValid (Keeps.refl s) a
  | msixUnmask a => exact KeepsR.execMsixUnmask (Keeps.refl s) a
  | identify a => exact KeepsR.execIdentify (Keeps.refl s) a
  | getEventRecords a b => exact KeepsR.execGetEventRecords (Keeps.refl s) a b
  | clearEventRecords a b => exact KeepsR.execClearEventRecords (Keeps.refl s) a b
  | getEventInterruptPolicy a => exact KeepsR.execGetEventInterruptPolicy (Keeps.refl s) a
  | setEventInterruptPolicy a b => exact KeepsR.execSetEventInterruptPolicy (Keeps.refl s) a b
  | getFwInfo a => exact KeepsR.execGetFwInfo (Keeps.refl s) a
  | transferFw a => exact KeepsR.execTransferFw (Keeps.refl s) a
  | activateFw a => exact KeepsR.execActivateFw (Keeps.refl s) a
  | getTimestamp a => exact KeepsR.execGetTimestamp (Keeps.refl s) a
  | setTimestamp a => exact KeepsR.execSetTimestamp (Keeps.refl s) a
  | getSupportedLogs a => exact KeepsR.execGetSupportedLogs (Keeps.refl s) a
  | getLog a => exact KeepsR.execGetLog (Keeps.refl s) a
  | identifyMemoryDevice a => exact KeepsR.execIdentifyMemoryDevice (Keeps.refl s) a
  | getPartitionInfo a => exact KeepsR.execGetPartitionInfo (Keeps.refl s) a
  | getHealthInfo a => exact KeepsR.execGetHealthInfo (Keeps.refl s) a
  | getAlertConfiguration a => exact KeepsR.execGetAlertConfiguration (Keeps.refl s) a
  | setAlertConfiguration a b c d => exact KeepsR.execSetAlertConfiguration (Keeps.refl s) a b c d
  | getPoisonList a b => exact KeepsR.execGetPoisonList (Keeps.refl s) a b
  | injectPoison a b c => exact KeepsR.execInjectPoison (Keeps.refl s) a b c
  | clearPoison a b c d => exact KeepsR.execClearPoison (Keeps.refl s) a b c d
  | sanitize a => exact KeepsR.execSanitize (Keeps.refl s) a
  | secureErase a => exact KeepsR.execSecureErase (Keeps.refl s) a
  | getDcConfiguration a => exact KeepsR.execGetDcConfiguration (Keeps.refl s) a
  | getDcExtentList a => exact KeepsR.execGetDcExtentList (Keeps.refl s) a
  | addDcResponse a b c d e => exact KeepsR.execAddDcResponse (Keeps.refl s) a b c d e
  | releaseDc a b c d e => exact KeepsR.execReleaseDc (Keeps.refl s) a b c d e
  | imageBegin a b => exact KeepsR.execImageBegin (Keeps.refl s) a b
  | imageWrite a b c => exact KeepsR.execImageWrite (Keeps.refl s) a b c
  | imageCheck a => exact KeepsR.execImageCheck (Keeps.refl s) a
  | setDecoder a b c d e f g h i => exact KeepsR.execSetDecoder (Keeps.refl s) a b c d e f g h i
  | restoreRequester a b => exact KeepsR.execRestoreRequester (Keeps.refl s) a b
  | getRoomStatus a b => exact KeepsR.execGetRoomStatus (Keeps.refl s) a b
  | setManagementRequesters a b => exact KeepsR.execSetManagementRequesters (Keeps.refl s) a b
  | poolStatus a => exact KeepsR.execPoolStatus (Keeps.refl s) a
  | poolHealth a => exact KeepsR.execPoolHealth (Keeps.refl s) a
  | deliverAmendment a b c => exact KeepsR.execDeliverAmendment (Keeps.refl s) a b c
  | setQuota a b c => exact KeepsR.execSetQuota (Keeps.refl s) a b c
  | migrateRoom a b c d => exact KeepsR.execMigrateRoom (Keeps.refl s) a b c d
  | evacuate a b => exact KeepsR.execEvacuate (Keeps.refl s) a b
  | poolSnapshot a b => exact KeepsR.execPoolSnapshot (Keeps.refl s) a b
  | atticRead a b c d => exact KeepsR.execAtticRead (Keeps.refl s) a b c d
  | atticClear a b c d e f => exact KeepsR.execAtticClear (Keeps.refl s) a b c d e f
  | mailboxUnsupported a b => exact KeepsR.execMailboxUnsupported (Keeps.refl s) a b
  | registerWrite a b c d e => exact KeepsR.execRegisterWrite (Keeps.refl s) a b c d e
  | hmbEnable a b => exact KeepsR.execHmbEnable (Keeps.refl s) a b
  | hmbWithdrawal a => exact KeepsR.execHmbWithdrawal (Keeps.refl s) a
  | hmbFetchData a b c d => exact KeepsR.execHmbFetchData (Keeps.refl s) a b c d
  | hmbFetchTimeout a b => exact KeepsR.execHmbFetchTimeout (Keeps.refl s) a b
  | amendment a b c => exact KeepsR.execAmendment (Keeps.refl s) a b c
  | amdResult a b c => exact KeepsR.execAmdResult (Keeps.refl s) a b c
  | roomRemovalDone a => exact KeepsR.execRoomRemovalDone (Keeps.refl s) a
  | unitFenced a => exact KeepsR.execUnitFenced (Keeps.refl s) a
  | unitRebuilt a => exact KeepsR.execUnitRebuilt (Keeps.refl s) a
  | unitLoss a => exact KeepsR.execUnitLoss (Keeps.refl s) a
  | actingHomeServe a => exact KeepsR.execActingHomeServe (Keeps.refl s) a
  | remirrorDone a => exact KeepsR.execRemirrorDone (Keeps.refl s) a
  | parityDelta a => exact KeepsR.execParityDelta (Keeps.refl s) a
  | parityRecompute a => exact KeepsR.execParityRecompute (Keeps.refl s) a
  | watchdogExpiry a => exact KeepsR.execWatchdogExpiry (Keeps.refl s) a
  | sqTail a b c d => exact KeepsR.execSqTail (Keeps.refl s) a b c d
  | cqHead a b c d => exact KeepsR.execCqHead (Keeps.refl s) a b c d
  | ringStart a b c => exact KeepsR.execRingStart (Keeps.refl s) a b c
  | ringStop a b c => exact KeepsR.execRingStop (Keeps.refl s) a b c
  | ringResume a b c => exact KeepsR.execRingResume (Keeps.refl s) a b c
  | ringReset a b c => exact KeepsR.execRingReset (Keeps.refl s) a b c
  | semAdd a b c d => exact KeepsR.execSemAdd (Keeps.refl s) a b c d
  | eventSet a b c d => exact KeepsR.execEventSet (Keeps.refl s) a b c d
  | context a b c d => exact KeepsR.execContext (Keeps.refl s) a b c d
  | dispatch a => exact KeepsR.execDispatch (Keeps.refl s) a
  | copy a b => exact KeepsR.execCopy (Keeps.refl s) a b
  | zero a => exact KeepsR.execZero (Keeps.refl s) a
  | release a => exact KeepsR.execRelease (Keeps.refl s) a
  | secureRelease a => exact KeepsR.execSecureRelease (Keeps.refl s) a
  | prefetch a => exact KeepsR.execPrefetch (Keeps.refl s) a
  | pin a => exact KeepsR.execPin (Keeps.refl s) a
  | unpin a => exact KeepsR.execUnpin (Keeps.refl s) a
  | persistBarrier a => exact KeepsR.execPersistBarrier (Keeps.refl s) a
  | migrateOut a => exact KeepsR.execMigrateOut (Keeps.refl s) a
  | migrateIn a => exact KeepsR.execMigrateIn (Keeps.refl s) a
  | run a b c => exact KeepsR.execRun (Keeps.refl s) a b c
  | move a b => exact KeepsR.execMove (Keeps.refl s) a b
  | move2d a b => exact KeepsR.execMove2d (Keeps.refl s) a b
  | fill a => exact KeepsR.execFill (Keeps.refl s) a
  | loop a => exact KeepsR.execLoop (Keeps.refl s) a
  | waitInstr a => exact KeepsR.execWaitInstr (Keeps.refl s) a
  | beatWaitEnd a => exact KeepsR.execBeatWaitEnd (Keeps.refl s) a
  | waitTimeout a => exact KeepsR.execWaitTimeout (Keeps.refl s) a
  | signal a => exact KeepsR.execSignal (Keeps.refl s) a
  | persist a => exact KeepsR.execPersist (Keeps.refl s) a
  | commandComplete a => exact KeepsR.execCommandComplete (Keeps.refl s) a
  | lineRequestTimeout a => exact KeepsR.execLineRequestTimeout (Keeps.refl s) a
  | coalesceTimer a b => exact KeepsR.execCoalesceTimer (Keeps.refl s) a b
  | pause a b => exact KeepsR.execPause (Keeps.refl s) a b
  | abort a => exact KeepsR.execAbort (Keeps.refl s) a
  | heartbeatSend => exact KeepsR.execHeartbeatSend (Keeps.refl s)
  | heartbeat a b c d e f g => exact KeepsR.execHeartbeat (Keeps.refl s) a b c d e f g
  | heartbeatMissed a => exact KeepsR.execHeartbeatMissed (Keeps.refl s) a
  | takeover a => exact KeepsR.execTakeover (Keeps.refl s) a
  | termResponse a b c => exact KeepsR.execTermResponse (Keeps.refl s) a b c
  | landingRetry a b => exact KeepsR.execLandingRetry (Keeps.refl s) a b
  | generate a b => exact KeepsR.execGenerate (Keeps.refl s) a b
  | importKey a b c => exact KeepsR.execImportKey (Keeps.refl s) a b c
  | exportKey a b => exact KeepsR.execExportKey (Keeps.refl s) a b
  | destroy a b => exact KeepsR.execDestroy (Keeps.refl s) a b
  | escrowKey a b => exact KeepsR.execEscrowKey (Keeps.refl s) a b
  | nonceRequest a => exact KeepsR.execNonceRequest (Keeps.refl s) a
  | clearToken a b c d e f => exact KeepsR.execClearToken (Keeps.refl s) a b c d e f
  | snapshotMsg a b => exact KeepsR.execSnapshotMsg (Keeps.refl s) a b
  | migrateBegin a b c d => exact KeepsR.execMigrateBegin (Keeps.refl s) a b c d
  | migrateCutover a b c => exact KeepsR.execMigrateCutover (Keeps.refl s) a b c
  | migrationRoundEnd a b => exact KeepsR.execMigrationRoundEnd (Keeps.refl s) a b
  | freezeTimeout => exact KeepsR.execFreezeTimeout (Keeps.refl s)
  | pageRelease a b c => exact KeepsR.execPageRelease (Keeps.refl s) a b c
  | mirrorMsg a b => exact KeepsR.execMirrorMsg (Keeps.refl s) a b
  | event a => exact KeepsR.execEvent (Keeps.refl s) a
  | collectorFault => exact KeepsR.execCollectorFault (Keeps.refl s)
  | rearm => exact KeepsR.execRearm (Keeps.refl s)
  | trapDone a => exact KeepsR.execTrapDone (Keeps.refl s) a
  | force a b => exact KeepsR.execForce (Keeps.refl s) a b
  | bucketEnClear a => exact KeepsR.execBucketEnClear (Keeps.refl s) a
  | fltEvq a b => exact KeepsR.execFltEvq (Keeps.refl s) a b
  | evqStallLimit a => exact KeepsR.execEvqStallLimit (Keeps.refl s) a
  | atcWin a b c => exact KeepsR.execAtcWin (Keeps.refl s) a b c
  | cpbData a b => exact KeepsR.execCpbData (Keeps.refl s) a b
  | cupboardWriteDone a => exact KeepsR.execCupboardWriteDone (Keeps.refl s) a
  | pmcFreeze a => exact KeepsR.execPmcFreeze (Keeps.refl s) a
  | snapNow => exact KeepsR.execSnapNow (Keeps.refl s)
  | arm => exact KeepsR.execArm (Keeps.refl s)
  | disarm => exact KeepsR.execDisarm (Keeps.refl s)
  | pmcWin a b c => exact KeepsR.execPmcWin (Keeps.refl s) a b c
  | counterWrap a => exact KeepsR.execCounterWrap (Keeps.refl s) a
  | pmcSmpWin a b c d => exact KeepsR.execPmcSmpWin (Keeps.refl s) a b c d
  | pmcSmpPtr a b => exact KeepsR.execPmcSmpPtr (Keeps.refl s) a b
  | lbist a => exact KeepsR.execLbist (Keeps.refl s) a
  | mbist a => exact KeepsR.execMbist (Keeps.refl s) a
  | lbistAndMbist a => exact KeepsR.execLbistAndMbist (Keeps.refl s) a
  | bistDone a b c => exact KeepsR.execBistDone (Keeps.refl s) a b c
  | hotReset => exact KeepsR.execHotReset (Keeps.refl s)
  | registerRead a b c d e f => exact KeepsR.execRegisterRead (Keeps.refl s) a b c d e f
  | spdmSessionSetup a b c d => exact KeepsR.execSpdmSessionSetup (Keeps.refl s) a b c d
  | larderTrainingDone a b => exact KeepsR.execLarderTrainingDone (Keeps.refl s) a b
  | blockResetDone a b => exact KeepsR.execBlockResetDone (Keeps.refl s) a b
  | groupSwitchTimeout a => exact KeepsR.execGroupSwitchTimeout (Keeps.refl s) a
  | backgroundCommandDone => exact KeepsR.execBackgroundCommandDone (Keeps.refl s)

end Sys2Proof.Machine
end

