-- ==== Sys2Proof/Laws/PerInstr.lean ====
section
/-! SUPPORT. One statement about the operands of every command, and a lemma for each: what a well-formed command names lies
in the spec's ranges. -/

namespace Sys2Proof.Laws.Sized

/-- The room pages a command names. -/
def pages : Instr → List Nat
  | .frameMigrationSwitch _ page | .promotionDone _ page | .larderReadData _ page _ _ _ _ _ | .biRsp _ _ page _
  | .bisnpResend _ _ page _ | .hmbFetchData _ page _ _ | .hmbFetchTimeout _ page => [page]
  | .pageRelease _ _ l => l.map Prod.fst
  | _ => []

/-- The pool members a command comes from or speaks of. -/
def members : Instr → List Nat
  | .amendment h _ _ | .amdResult h _ _ | .heartbeat h _ _ _ _ _ _ | .takeover h | .termResponse h _ _
  | .generate h _ | .importKey h _ _ | .exportKey h _ | .destroy h _ | .escrowKey h _ | .nonceRequest h
  | .clearToken h _ _ _ _ _ | .snapshotMsg h _ | .migrateBegin h _ _ _ | .migrateCutover h _ _ | .mirrorMsg h _
  | .pageRelease h _ _ => [h.src]
  | .heartbeatMissed peer | .landingRetry peer _ | .spdmSessionSetup peer _ _ _ => [peer]
  | _ => []

/-- The bytes a UIO request carries. -/
def carried : Instr → Option Nat
  | .uioRead _ length => some length
  | .uioWrite _ bytes => some bytes.length
  | _ => none

/-- A well-formed command names pages of a window (R106, R107) and members of a pool (R22), and a UIO request carries 1 to
4,096 bytes (R87). -/
def Statement (i : Instr) : Prop :=
  i.wellFormed = true →
    (∀ p ∈ pages i, p < 2 ^ 36) ∧ (∀ n ∈ members i, n < 4096) ∧ (∀ n, carried i = some n → 1 ≤ n ∧ n ≤ 4096)

/-- A command that names none of them. -/
theorem plain {i : Instr} (hp : pages i = []) (hm : members i = []) (hc : carried i = none) : Statement i :=
  fun _ => ⟨by simp [hp], by simp [hm], by simp [hc]⟩

/-- A command that names one page. -/
theorem paged {i : Instr} {p : Nat} (hw : i.wellFormed = pageOk p) (hp : pages i = [p]) (hm : members i = [])
    (hc : carried i = none) : Statement i := by
  intro h
  rw [hw] at h
  exact ⟨by simpa [hp, pageOk] using h, by simp [hm], by simp [hc]⟩

/-- A Landing message. -/
theorem sent {i : Instr} {n : Nat} (hw : i.wellFormed = memberOk n) (hp : pages i = []) (hm : members i = [n])
    (hc : carried i = none) : Statement i := by
  intro h
  rw [hw] at h
  exact ⟨by simp [hp], by simpa [hm, memberOk] using h, by simp [hc]⟩

/-- A UIO request. -/
theorem uio {i : Instr} {n : Nat} (hw : i.wellFormed = uioOk n) (hp : pages i = []) (hm : members i = [])
    (hc : carried i = some n) : Statement i := by
  intro h
  rw [hw] at h
  exact ⟨by simp [hp], by simp [hm], by simpa [hc, uioOk] using h⟩

theorem vstbyRise : Statement (.vstbyRise) := plain rfl rfl rfl
theorem vstbyLoss : Statement (.vstbyLoss) := plain rfl rfl rfl
theorem strapSample (a) : Statement (.strapSample a) := plain rfl rfl rfl
theorem minimumOffTimeExpiry : Statement (.minimumOffTimeExpiry) := plain rfl rfl rfl
theorem onRequest : Statement (.onRequest) := plain rfl rfl rfl
theorem offRequest : Statement (.offRequest) := plain rfl rfl rfl
theorem offReqWrite : Statement (.offReqWrite) := plain rfl rfl rfl
theorem monitorConversion (a) (b) : Statement (.monitorConversion a b) := plain rfl rfl rfl
theorem monitorQualified (a) : Statement (.monitorQualified a) := plain rfl rfl rfl
theorem railFault (a) : Statement (.railFault a) := plain rfl rfl rfl
theorem stepDelayExpiry : Statement (.stepDelayExpiry) := plain rfl rfl rfl
theorem stepTimeout : Statement (.stepTimeout) := plain rfl rfl rfl
theorem powerDownStepDelay : Statement (.powerDownStepDelay) := plain rfl rfl rfl
theorem seqFaultRetry : Statement (.seqFaultRetry) := plain rfl rfl rfl
theorem lrefLoss : Statement (.lrefLoss) := plain rfl rfl rfl
theorem groupSwitchDone (a) : Statement (.groupSwitchDone a) := plain rfl rfl rfl
theorem floorPlanLoad (a) : Statement (.floorPlanLoad a) := plain rfl rfl rfl
theorem pantryInitDone (a) : Statement (.pantryInitDone a) := plain rfl rfl rfl
theorem recovery : Statement (.recovery) := plain rfl rfl rfl
theorem servingEntry (a) : Statement (.servingEntry a) := plain rfl rfl rfl
theorem vinSample (a) : Statement (.vinSample a) := plain rfl rfl rfl
theorem inputFailure : Statement (.inputFailure) := plain rfl rfl rfl
theorem reservoirExhausted : Statement (.reservoirExhausted) := plain rfl rfl rfl
theorem vinGood : Statement (.vinGood) := plain rfl rfl rfl
theorem wakeN : Statement (.wakeN) := plain rfl rfl rfl
theorem wakeWrite : Statement (.wakeWrite) := plain rfl rfl rfl
theorem wakeBeat : Statement (.wakeBeat) := plain rfl rfl rfl
theorem slumberReq : Statement (.slumberReq) := plain rfl rfl rfl
theorem resSenseSample (a) : Statement (.resSenseSample a) := plain rfl rfl rfl
theorem reservoirReady : Statement (.reservoirReady) := plain rfl rfl rfl
theorem chgLimitExpiry : Statement (.chgLimitExpiry) := plain rfl rfl rfl
theorem reservoirAbsent : Statement (.reservoirAbsent) := plain rfl rfl rfl
theorem resNtcSample (a) : Statement (.resNtcSample a) := plain rfl rfl rfl
theorem chargeTestStart : Statement (.chargeTestStart) := plain rfl rfl rfl
theorem chargeTestFallEnd (a) (b) : Statement (.chargeTestFallEnd a b) := plain rfl rfl rfl
theorem chargeTestRiseEnd (a) : Statement (.chargeTestRiseEnd a) := plain rfl rfl rfl
theorem chargeTestRiseTimeout : Statement (.chargeTestRiseTimeout) := plain rfl rfl rfl
theorem testNow : Statement (.testNow) := plain rfl rfl rfl
theorem sensorConversion (a) (b) : Statement (.sensorConversion a b) := plain rfl rfl rfl
theorem stageStep : Statement (.stageStep) := plain rfl rfl rfl
theorem rbeatEdge (a) : Statement (.rbeatEdge a) := plain rfl rfl rfl
theorem missingBeat : Statement (.missingBeat) := plain rfl rfl rfl
theorem checkpoint : Statement (.checkpoint) := plain rfl rfl rfl
theorem descriptorRewrite (a) (b) (c) (d) : Statement (.descriptorRewrite a b c d) := plain rfl rfl rfl
theorem cupboardAnchor : Statement (.cupboardAnchor) := plain rfl rfl rfl
theorem atticFlush : Statement (.atticFlush) := plain rfl rfl rfl
theorem healthSample : Statement (.healthSample) := plain rfl rfl rfl
theorem bucketLeak : Statement (.bucketLeak) := plain rfl rfl rfl
theorem sketchDecay (a) : Statement (.sketchDecay a) := plain rfl rfl rfl
theorem scrubPassStart (a) : Statement (.scrubPassStart a) := plain rfl rfl rfl
theorem ageUnitTick : Statement (.ageUnitTick) := plain rfl rfl rfl
theorem counterSnapshot : Statement (.counterSnapshot) := plain rfl rfl rfl
theorem cadenceFrame (a) : Statement (.cadenceFrame a) := plain rfl rfl rfl
theorem programSlot (a) (b) (c) : Statement (.programSlot a b c) := plain rfl rfl rfl
theorem writeBackSelection (a) : Statement (.writeBackSelection a) := plain rfl rfl rfl
theorem mediaReadData (a) (b) (c) (d) (e) (f) : Statement (.mediaReadData a b c d e f) := plain rfl rfl rfl
theorem doneNLow (a) : Statement (.doneNLow a) := plain rfl rfl rfl
theorem statusRecord (a) (b) (c) (d) (e) (f) (g) : Statement (.statusRecord a b c d e f g) := plain rfl rfl rfl
theorem suspendOp (a) (b) : Statement (.suspendOp a b) := plain rfl rfl rfl
theorem bankSuspended (a) (b) : Statement (.bankSuspended a b) := plain rfl rfl rfl
theorem tempRead (a) (b) (c) : Statement (.tempRead a b c) := plain rfl rfl rfl
theorem alertN (a) : Statement (.alertN a) := plain rfl rfl rfl
theorem mediaTimeout (a) (b) (c) : Statement (.mediaTimeout a b c) := plain rfl rfl rfl
theorem frameMigrationSwitch (a) (b) : Statement (.frameMigrationSwitch a b) := paged rfl rfl rfl rfl
theorem promotionDone (a) (b) : Statement (.promotionDone a b) := paged rfl rfl rfl rfl
theorem larderReadData (a) (b) (c) (d) (e) (f) (g) : Statement (.larderReadData a b c d e f g) := paged rfl rfl rfl rfl
theorem larderPatrolScrub (a) (b) (c) (d) : Statement (.larderPatrolScrub a b c d) := plain rfl rfl rfl
theorem larderTempRead (a) (b) (c) : Statement (.larderTempRead a b c) := plain rfl rfl rfl
theorem pacedWriteAdmit (a) : Statement (.pacedWriteAdmit a) := plain rfl rfl rfl
theorem logEntryApply (a) : Statement (.logEntryApply a) := plain rfl rfl rfl
theorem corridorPacket (a) (b) : Statement (.corridorPacket a b) := plain rfl rfl rfl
theorem laneRepair (a) : Statement (.laneRepair a) := plain rfl rfl rfl
theorem linkTraining (a) : Statement (.linkTraining a) := plain rfl rfl rfl
theorem trainingRetry : Statement (.trainingRetry) := plain rfl rfl rfl
theorem linkRecovery : Statement (.linkRecovery) := plain rfl rfl rfl
theorem linkL0 : Statement (.linkL0) := plain rfl rfl rfl
theorem flitReplay (a) : Statement (.flitReplay a) := plain rfl rfl rfl
theorem dlDown : Statement (.dlDown) := plain rfl rfl rfl
theorem perstN : Statement (.perstN) := plain rfl rfl rfl
theorem retrain : Statement (.retrain) := plain rfl rfl rfl
theorem viral : Statement (.viral) := plain rfl rfl rfl
theorem memRd (a) (b) : Statement (.memRd a b) := plain rfl rfl rfl
theorem memRdData (a) : Statement (.memRdData a) := plain rfl rfl rfl
theorem memWr (a) (b) (c) (d) : Statement (.memWr a b c d) := plain rfl rfl rfl
theorem memWrPtl (a) (b) (c) (d) (e) : Statement (.memWrPtl a b c d e) := plain rfl rfl rfl
theorem memInv (a) (b) : Statement (.memInv a b) := plain rfl rfl rfl
theorem memInvNt (a) (b) : Statement (.memInvNt a b) := plain rfl rfl rfl
theorem uioRead (a) (b) : Statement (.uioRead a b) := uio rfl rfl rfl rfl
theorem uioWrite (a) (b) : Statement (.uioWrite a b) := uio rfl rfl rfl rfl
theorem biRsp (a) (b) (c) (d) : Statement (.biRsp a b c d) := paged rfl rfl rfl rfl
theorem bisnpResend (a) (b) (c) (d) : Statement (.bisnpResend a b c d) := paged rfl rfl rfl rfl
theorem requesterFailed (a) : Statement (.requesterFailed a) := plain rfl rfl rfl
theorem globalPersistentFlush (a) : Statement (.globalPersistentFlush a) := plain rfl rfl rfl
theorem atomicDescriptor (a) (b) (c) (d) : Statement (.atomicDescriptor a b c d) := plain rfl rfl rfl
theorem refillRound : Statement (.refillRound) := plain rfl rfl rfl
theorem ideKeyProgram (a) : Statement (.ideKeyProgram a) := plain rfl rfl rfl
theorem spdmGetMeasurements (a) : Statement (.spdmGetMeasurements a) := plain rfl rfl rfl
theorem msixDestValid (a) : Statement (.msixDestValid a) := plain rfl rfl rfl
theorem msixUnmask (a) : Statement (.msixUnmask a) := plain rfl rfl rfl
theorem identify (a) : Statement (.identify a) := plain rfl rfl rfl
theorem getEventRecords (a) (b) : Statement (.getEventRecords a b) := plain rfl rfl rfl
theorem clearEventRecords (a) (b) : Statement (.clearEventRecords a b) := plain rfl rfl rfl
theorem getEventInterruptPolicy (a) : Statement (.getEventInterruptPolicy a) := plain rfl rfl rfl
theorem setEventInterruptPolicy (a) (b) : Statement (.setEventInterruptPolicy a b) := plain rfl rfl rfl
theorem getFwInfo (a) : Statement (.getFwInfo a) := plain rfl rfl rfl
theorem transferFw (a) : Statement (.transferFw a) := plain rfl rfl rfl
theorem activateFw (a) : Statement (.activateFw a) := plain rfl rfl rfl
theorem getTimestamp (a) : Statement (.getTimestamp a) := plain rfl rfl rfl
theorem setTimestamp (a) : Statement (.setTimestamp a) := plain rfl rfl rfl
theorem getSupportedLogs (a) : Statement (.getSupportedLogs a) := plain rfl rfl rfl
theorem getLog (a) : Statement (.getLog a) := plain rfl rfl rfl
theorem identifyMemoryDevice (a) : Statement (.identifyMemoryDevice a) := plain rfl rfl rfl
theorem getPartitionInfo (a) : Statement (.getPartitionInfo a) := plain rfl rfl rfl
theorem getHealthInfo (a) : Statement (.getHealthInfo a) := plain rfl rfl rfl
theorem getAlertConfiguration (a) : Statement (.getAlertConfiguration a) := plain rfl rfl rfl
theorem setAlertConfiguration (a) (b) (c) (d) : Statement (.setAlertConfiguration a b c d) := plain rfl rfl rfl
theorem getPoisonList (a) (b) : Statement (.getPoisonList a b) := plain rfl rfl rfl
theorem injectPoison (a) (b) (c) : Statement (.injectPoison a b c) := plain rfl rfl rfl
theorem clearPoison (a) (b) (c) (d) : Statement (.clearPoison a b c d) := plain rfl rfl rfl
theorem sanitize (a) : Statement (.sanitize a) := plain rfl rfl rfl
theorem secureErase (a) : Statement (.secureErase a) := plain rfl rfl rfl
theorem getDcConfiguration (a) : Statement (.getDcConfiguration a) := plain rfl rfl rfl
theorem getDcExtentList (a) : Statement (.getDcExtentList a) := plain rfl rfl rfl
theorem addDcResponse (a) (b) (c) (d) (e) : Statement (.addDcResponse a b c d e) := plain rfl rfl rfl
theorem releaseDc (a) (b) (c) (d) (e) : Statement (.releaseDc a b c d e) := plain rfl rfl rfl
theorem imageBegin (a) (b) : Statement (.imageBegin a b) := plain rfl rfl rfl
theorem imageWrite (a) (b) (c) : Statement (.imageWrite a b c) := plain rfl rfl rfl
theorem imageCheck (a) : Statement (.imageCheck a) := plain rfl rfl rfl
theorem setDecoder (a) (b) (c) (d) (e) (f) (g) (h) (i) : Statement (.setDecoder a b c d e f g h i) := plain rfl rfl rfl
theorem restoreRequester (a) (b) : Statement (.restoreRequester a b) := plain rfl rfl rfl
theorem getRoomStatus (a) (b) : Statement (.getRoomStatus a b) := plain rfl rfl rfl
theorem setManagementRequesters (a) (b) : Statement (.setManagementRequesters a b) := plain rfl rfl rfl
theorem poolStatus (a) : Statement (.poolStatus a) := plain rfl rfl rfl
theorem poolHealth (a) : Statement (.poolHealth a) := plain rfl rfl rfl
theorem deliverAmendment (a) (b) (c) : Statement (.deliverAmendment a b c) := plain rfl rfl rfl
theorem setQuota (a) (b) (c) : Statement (.setQuota a b c) := plain rfl rfl rfl
theorem migrateRoom (a) (b) (c) (d) : Statement (.migrateRoom a b c d) := plain rfl rfl rfl
theorem evacuate (a) (b) : Statement (.evacuate a b) := plain rfl rfl rfl
theorem poolSnapshot (a) (b) : Statement (.poolSnapshot a b) := plain rfl rfl rfl
theorem atticRead (a) (b) (c) (d) : Statement (.atticRead a b c d) := plain rfl rfl rfl
theorem atticClear (a) (b) (c) (d) (e) (f) : Statement (.atticClear a b c d e f) := plain rfl rfl rfl
theorem mailboxUnsupported (a) (b) : Statement (.mailboxUnsupported a b) := plain rfl rfl rfl
theorem registerWrite (a) (b) (c) (d) (e) : Statement (.registerWrite a b c d e) := plain rfl rfl rfl
theorem hmbEnable (a) (b) : Statement (.hmbEnable a b) := plain rfl rfl rfl
theorem hmbWithdrawal (a) : Statement (.hmbWithdrawal a) := plain rfl rfl rfl
theorem hmbFetchData (a) (b) (c) (d) : Statement (.hmbFetchData a b c d) := paged rfl rfl rfl rfl
theorem hmbFetchTimeout (a) (b) : Statement (.hmbFetchTimeout a b) := paged rfl rfl rfl rfl
theorem amendment (a) (b) (c) : Statement (.amendment a b c) := sent rfl rfl rfl rfl
theorem amdResult (a) (b) (c) : Statement (.amdResult a b c) := sent rfl rfl rfl rfl
theorem roomRemovalDone (a) : Statement (.roomRemovalDone a) := plain rfl rfl rfl
theorem unitFenced (a) : Statement (.unitFenced a) := plain rfl rfl rfl
theorem unitRebuilt (a) : Statement (.unitRebuilt a) := plain rfl rfl rfl
theorem unitLoss (a) : Statement (.unitLoss a) := plain rfl rfl rfl
theorem actingHomeServe (a) : Statement (.actingHomeServe a) := plain rfl rfl rfl
theorem remirrorDone (a) : Statement (.remirrorDone a) := plain rfl rfl rfl
theorem parityDelta (a) : Statement (.parityDelta a) := plain rfl rfl rfl
theorem parityRecompute (a) : Statement (.parityRecompute a) := plain rfl rfl rfl
theorem watchdogExpiry (a) : Statement (.watchdogExpiry a) := plain rfl rfl rfl
theorem sqTail (a) (b) (c) (d) : Statement (.sqTail a b c d) := plain rfl rfl rfl
theorem cqHead (a) (b) (c) (d) : Statement (.cqHead a b c d) := plain rfl rfl rfl
theorem ringStart (a) (b) (c) : Statement (.ringStart a b c) := plain rfl rfl rfl
theorem ringStop (a) (b) (c) : Statement (.ringStop a b c) := plain rfl rfl rfl
theorem ringResume (a) (b) (c) : Statement (.ringResume a b c) := plain rfl rfl rfl
theorem ringReset (a) (b) (c) : Statement (.ringReset a b c) := plain rfl rfl rfl
theorem semAdd (a) (b) (c) (d) : Statement (.semAdd a b c d) := plain rfl rfl rfl
theorem eventSet (a) (b) (c) (d) : Statement (.eventSet a b c d) := plain rfl rfl rfl
theorem context (a) (b) (c) (d) : Statement (.context a b c d) := plain rfl rfl rfl
theorem dispatch (a) : Statement (.dispatch a) := plain rfl rfl rfl
theorem copy (a) (b) : Statement (.copy a b) := plain rfl rfl rfl
theorem zero (a) : Statement (.zero a) := plain rfl rfl rfl
theorem release (a) : Statement (.release a) := plain rfl rfl rfl
theorem secureRelease (a) : Statement (.secureRelease a) := plain rfl rfl rfl
theorem prefetch (a) : Statement (.prefetch a) := plain rfl rfl rfl
theorem pin (a) : Statement (.pin a) := plain rfl rfl rfl
theorem unpin (a) : Statement (.unpin a) := plain rfl rfl rfl
theorem persistBarrier (a) : Statement (.persistBarrier a) := plain rfl rfl rfl
theorem migrateOut (a) : Statement (.migrateOut a) := plain rfl rfl rfl
theorem migrateIn (a) : Statement (.migrateIn a) := plain rfl rfl rfl
theorem run (a) (b) (c) : Statement (.run a b c) := plain rfl rfl rfl
theorem move (a) (b) : Statement (.move a b) := plain rfl rfl rfl
theorem move2d (a) (b) : Statement (.move2d a b) := plain rfl rfl rfl
theorem fill (a) : Statement (.fill a) := plain rfl rfl rfl
theorem loop (a) : Statement (.loop a) := plain rfl rfl rfl
theorem waitInstr (a) : Statement (.waitInstr a) := plain rfl rfl rfl
theorem beatWaitEnd (a) : Statement (.beatWaitEnd a) := plain rfl rfl rfl
theorem waitTimeout (a) : Statement (.waitTimeout a) := plain rfl rfl rfl
theorem signal (a) : Statement (.signal a) := plain rfl rfl rfl
theorem persist (a) : Statement (.persist a) := plain rfl rfl rfl
theorem commandComplete (a) : Statement (.commandComplete a) := plain rfl rfl rfl
theorem lineRequestTimeout (a) : Statement (.lineRequestTimeout a) := plain rfl rfl rfl
theorem coalesceTimer (a) (b) : Statement (.coalesceTimer a b) := plain rfl rfl rfl
theorem pause (a) (b) : Statement (.pause a b) := plain rfl rfl rfl
theorem abort (a) : Statement (.abort a) := plain rfl rfl rfl
theorem heartbeatSend : Statement (.heartbeatSend) := plain rfl rfl rfl
theorem heartbeat (a) (b) (c) (d) (e) (f) (g) : Statement (.heartbeat a b c d e f g) := sent rfl rfl rfl rfl
theorem heartbeatMissed (a) : Statement (.heartbeatMissed a) := sent rfl rfl rfl rfl
theorem takeover (a) : Statement (.takeover a) := sent rfl rfl rfl rfl
theorem termResponse (a) (b) (c) : Statement (.termResponse a b c) := sent rfl rfl rfl rfl
theorem landingRetry (a) (b) : Statement (.landingRetry a b) := sent rfl rfl rfl rfl
theorem generate (a) (b) : Statement (.generate a b) := sent rfl rfl rfl rfl
theorem importKey (a) (b) (c) : Statement (.importKey a b c) := sent rfl rfl rfl rfl
theorem exportKey (a) (b) : Statement (.exportKey a b) := sent rfl rfl rfl rfl
theorem destroy (a) (b) : Statement (.destroy a b) := sent rfl rfl rfl rfl
theorem escrowKey (a) (b) : Statement (.escrowKey a b) := sent rfl rfl rfl rfl
theorem nonceRequest (a) : Statement (.nonceRequest a) := sent rfl rfl rfl rfl
theorem clearToken (a) (b) (c) (d) (e) (f) : Statement (.clearToken a b c d e f) := sent rfl rfl rfl rfl
theorem snapshotMsg (a) (b) : Statement (.snapshotMsg a b) := sent rfl rfl rfl rfl
theorem migrateBegin (a) (b) (c) (d) : Statement (.migrateBegin a b c d) := sent rfl rfl rfl rfl
theorem migrateCutover (a) (b) (c) : Statement (.migrateCutover a b c) := sent rfl rfl rfl rfl
theorem migrationRoundEnd (a) (b) : Statement (.migrationRoundEnd a b) := plain rfl rfl rfl
theorem freezeTimeout : Statement (.freezeTimeout) := plain rfl rfl rfl
theorem pageRelease (a) (b) (c) : Statement (.pageRelease a b c) := by
  intro h
  simp only [Instr.wellFormed, Bool.and_eq_true, List.all_eq_true, pageOk, decide_eq_true_eq, Hdr.ok, memberOk] at h
  refine ⟨fun p hp => ?_, by simpa [members] using h.1, by simp [carried]⟩
  obtain ⟨x, hx, rfl⟩ := List.mem_map.1 hp
  exact h.2 x hx
theorem mirrorMsg (a) (b) : Statement (.mirrorMsg a b) := sent rfl rfl rfl rfl
theorem event (a) : Statement (.event a) := plain rfl rfl rfl
theorem collectorFault : Statement (.collectorFault) := plain rfl rfl rfl
theorem rearm : Statement (.rearm) := plain rfl rfl rfl
theorem trapDone (a) : Statement (.trapDone a) := plain rfl rfl rfl
theorem force (a) (b) : Statement (.force a b) := plain rfl rfl rfl
theorem bucketEnClear (a) : Statement (.bucketEnClear a) := plain rfl rfl rfl
theorem fltEvq (a) (b) : Statement (.fltEvq a b) := plain rfl rfl rfl
theorem evqStallLimit (a) : Statement (.evqStallLimit a) := plain rfl rfl rfl
theorem atcWin (a) (b) (c) : Statement (.atcWin a b c) := plain rfl rfl rfl
theorem cpbData (a) (b) : Statement (.cpbData a b) := plain rfl rfl rfl
theorem cupboardWriteDone (a) : Statement (.cupboardWriteDone a) := plain rfl rfl rfl
theorem pmcFreeze (a) : Statement (.pmcFreeze a) := plain rfl rfl rfl
theorem snapNow : Statement (.snapNow) := plain rfl rfl rfl
theorem arm : Statement (.arm) := plain rfl rfl rfl
theorem disarm : Statement (.disarm) := plain rfl rfl rfl
theorem pmcWin (a) (b) (c) : Statement (.pmcWin a b c) := plain rfl rfl rfl
theorem counterWrap (a) : Statement (.counterWrap a) := plain rfl rfl rfl
theorem pmcSmpWin (a) (b) (c) (d) : Statement (.pmcSmpWin a b c d) := plain rfl rfl rfl
theorem pmcSmpPtr (a) (b) : Statement (.pmcSmpPtr a b) := plain rfl rfl rfl
theorem lbist (a) : Statement (.lbist a) := plain rfl rfl rfl
theorem mbist (a) : Statement (.mbist a) := plain rfl rfl rfl
theorem lbistAndMbist (a) : Statement (.lbistAndMbist a) := plain rfl rfl rfl
theorem bistDone (a) (b) (c) : Statement (.bistDone a b c) := plain rfl rfl rfl
theorem hotReset : Statement (.hotReset) := plain rfl rfl rfl
theorem registerRead (a) (b) (c) (d) (e) (f) : Statement (.registerRead a b c d e f) := plain rfl rfl rfl
theorem spdmSessionSetup (a) (b) (c) (d) : Statement (.spdmSessionSetup a b c d) := sent rfl rfl rfl rfl
theorem larderTrainingDone (a) (b) : Statement (.larderTrainingDone a b) := plain rfl rfl rfl
theorem blockResetDone (a) (b) : Statement (.blockResetDone a b) := plain rfl rfl rfl
theorem groupSwitchTimeout (a) : Statement (.groupSwitchTimeout a) := plain rfl rfl rfl
theorem backgroundCommandDone : Statement (.backgroundCommandDone) := plain rfl rfl rfl

end Sys2Proof.Laws.Sized
end

