-- ==== Sys2Proof/Tests/Slice0.lean ====
section
/-! SUPPORT. The model's own tests: terms the well-formedness check refuses, small runs of one command with the result that
the rule named gives, and for each obligation a state and operands that meet its hypotheses, clause by clause. -/

namespace Sys2Proof.Tests

open Machine

set_option Elab.async false

/-! ### Small states -/

/-- A device in a state, all else as after reset. -/
def inState (d : DevState) : State := { State.reset with pw := { State.reset.pw with dev := d } }

/-- A device that serves, with no floor plan. -/
def on : State := inState .serving

/-- A profile of 1,000 frames, four planes, one percent spare. -/
def profile : MediaProfile where
  name := []
  vendor := 1
  device := 1
  frames := 1000
  sysFrames := 0
  banks := 4
  bankShift := 2
  progPerPkg := 2
  spareInit := 100
  rl := 1
  tsusMax := 1
  tminrun := 1
  tresMax := 1
  tprogTyp := 1
  tprogMax := 2
  teraseMax := 1
  tta := 4
  busRate := 2
  progCurrent := 1
  drift := []
  rated := 10000
  refreshBits := 20
  uncRetire := 1

/-- A floor plan with every wing, Larder channel and cellar enabled and one ring for requester 0. -/
def plan : Plan where
  imageSeq := 5
  imageId := 0
  keyIndex := 0
  units :=
    { wingEn := 0xFF, larderEn := 0xFF, cellarEn := 0xFFFFFFFF, profile := List.replicate 32 0,
      packages := List.replicate 32 1 }
  media := [(0, profile)]
  larder :=
    { speed := 0, ranks := 1, density := 0, topo := 0, capacity := 16, refresh := 0, train := 0, metaShare := 8,
      dirShare := 8, scrubHours := 24 }
  rooms := []
  rings := [{ requester := 0, count := 1, mask := 0xFF, charge := 1 }]
  power := []
  mons := [{ low := 1, high := 4000, glitch := 2, qual := 1, sense := 0, enabled := true, reservoir := false }]
  steps := []
  retries := 3
  thermal :=
    { warn := 300, throttle := 340, shutdown := 420, hyst := 8, mediaLo := 0, mediaHi := 280, drainLo := -40,
      drainHi := 380, chgLo := 0, chgHi := 240 }
  react := []
  pantry := []
  pool := { role := 0, index := 0, poolId := 0, standby := 0xFFFF, transport := 0, mgmt := 0 }
  attic := List.replicate 11 8
  limits := { capMiB := 16, spareFloor := 5, wearDelta := 100, horizon := 1000 }
  fwVersion := [1, 2]
  bist :=
    { hallLbist := 0, hallMbist := 0, wingLbist := List.replicate 8 0, wingMbist := List.replicate 8 0, bootBist := 0 }
  service := { wings := 0, larders := 0, cellars := 0, flags := 0 }

/-- A persistent room of 1 GiB at DPA 0, open to every requester. -/
def roomCfg : RoomCfg where
  room := 1
  cls := 0
  attr := 0x10
  tier := 0
  action := 0
  keySlot := 0
  base := 0
  size := 2 ^ 30
  weight := 4
  credits := 64
  acl := []
  region := 0

/-- A room in service with none of its credits in use. -/
def room (c : RoomCfg) : Room where
  cfg := c
  state := .serving
  inUse := 0
  limit := c.credits
  tokens := 4
  allocFail := 0
  plain := 0
  secure := 0
  deferred := 0
  forwarding := false
  former := none

/-- A device that serves with the link up, the plan above, one package on every cellar, room 1, and requester 0 a
management requester with a decoder and an extent of the room. -/
def up : State :=
  let s : State := { on with
    plan := some plan
    rooms := [(1, room roomCfg)]
    hp := { on.hp with
      link := .l0
      decoders := [(0, { hpaBase := 2 ^ 40, size := 2 ^ 30, ways := 1, granularity := 256, way := 0, dpaBase := 0 })]
      extents := [{ requester := 0, room := 1, region := 0, base := 0, size := 2 ^ 30 }] }
    regs := [] }
  let s := s.setReg .HALL_HP_MGMT_VALID0 0 1
  let s := (s.setReg .CEL_STATUS_PRESENT 0 1).setReg .CEL_STATUS_PRESENT 4 1
  let s := (s.setReg .FBX_PD_ON 0 (2 ^ 46 - 1)).setFlag .COR_LINK_UP 0 true
  s

/-- A table with no entry is canonical. -/
theorem regsOk_nil : RegsOk [] := ⟨trivial, fun _ h => nomatch h⟩

/-- The state above has a canonical table. -/
theorem regsOk_up : RegsOk up.regs := by
  unfold up
  repeat first
    | exact regsOk_nil
    | apply regsOk_setReg

/-- A host request of requester 0 at the first line of room 1. -/
def hostReq : HostReq := { requester := 0, hpa := 0x10000000000, tag := 7, ideOk := true, pantry := .clean }

/-- A management requester's mailbox command. -/
def boss : Sender := { requester := 0, landing := false }

/-! ### Ill-formed commands -/

/-- A descriptor line past the last (R209, R214). -/
theorem ill_descriptor_line : (Instr.descriptorRewrite 0 0 (2 ^ 27) 0).wellFormed = false := by decide

/-- A frame no map entry can name (R117). -/
theorem ill_frame : (Instr.mediaReadData 0 0 (2 ^ 26) 0 [.clean] none).wellFormed = false := by decide

/-- A media read without a read (R203). -/
theorem ill_media_read_empty : (Instr.mediaReadData 0 0 0 0 [] none).wellFormed = false := by decide

/-- A media line of three host lines (R201). -/
theorem ill_media_line : (Instr.mediaReadData 0 0 0 0 [.clean]
    (some (List.replicate 3 { ct := 0, mac := 0, poison := false }))).wellFormed = false := by decide

/-- A page past the largest window (R106, R107), in each command that names one. -/
theorem ill_page :
    (Instr.frameMigrationSwitch 0 (2 ^ 36)).wellFormed = false ∧ (Instr.promotionDone 0 (2 ^ 36)).wellFormed = false ∧
    (Instr.larderReadData 0 (2 ^ 36) 0 .data .clean .clean none).wellFormed = false ∧
    (Instr.biRsp 0 0 (2 ^ 36) 0).wellFormed = false ∧ (Instr.bisnpResend 0 0 (2 ^ 36) 0).wellFormed = false ∧
    (Instr.hmbFetchData 0 (2 ^ 36) true false).wellFormed = false ∧
    (Instr.hmbFetchTimeout 0 (2 ^ 36)).wellFormed = false := by decide

/-- UIO requests of no byte and of 4,097 bytes (R87). -/
theorem ill_uio :
    (Instr.uioRead hostReq 0).wellFormed = false ∧ (Instr.uioRead hostReq 4097).wellFormed = false ∧
    (Instr.uioWrite hostReq []).wellFormed = false := by decide

/-- Register accesses outside their BAR, or of no byte (R92, R559). -/
theorem ill_access :
    (Instr.registerRead .bar0 0 (2 ^ 28) 8 false true).wellFormed = false ∧
    (Instr.registerWrite .bar2 0 (2 ^ 30) 8 0).wellFormed = false ∧
    (Instr.registerRead .bar4 0 (2 ^ 25) 8 false true).wellFormed = false ∧
    (Instr.registerWrite .i3c 0 (2 ^ 32) 8 0).wellFormed = false ∧
    (Instr.registerRead .bar0 0 0 0 false true).wellFormed = false ∧
    (Instr.registerRead .bar0 0 0 9 false true).wellFormed = false := by decide

/-- A Landing header that names no member of a pool (R22, R414). -/
def strangerHdr : Hdr := { version := 1, poolId := 0, term := 0, src := 4096, dst := 0, seq := 0 }

/-- Landing messages of no member, and peers that are none. -/
theorem ill_member :
    (Instr.takeover strangerHdr).wellFormed = false ∧ (Instr.pageRelease strangerHdr 0 []).wellFormed = false ∧
    (Instr.pageRelease { strangerHdr with src := 0 } 0 [(2 ^ 36, false)]).wellFormed = false ∧
    (Instr.heartbeatMissed 4096).wellFormed = false ∧ (Instr.landingRetry 4096 0).wellFormed = false ∧
    (Instr.spdmSessionSetup 4096 true true true).wellFormed = false := by decide

/-! ### Witnesses: states and operands that meet the hypotheses of the statements, clause by clause -/

/-- A device off, its straps sampled. -/
def off : State := { inState .off with pw := { (inState .off).pw with straps := some 0 } }

/-- SupplyCommands: each command in a state it asks for, the off request in both of its states. -/
theorem witness_SupplyCommands :
    State.reset.pw.dev = .noVstby ∧ (on.pw.dev ≠ .noVstby ∧ on.pw.straps = none) ∧
    (off.pw.dev = .off ∧ off.pw.enables = 0 ∧ off.pw.straps.isSome ∧ off.pw.pwrOn = false ∧ off.pw.wakeLatched = false ∧
      off.flag .FBX_SEQ_ON_LATCHED 0 = false) ∧
    (off.pw.dev = .off ∨ off.pw.dev = .standby) ∧
    ((inState .standby).pw.dev = .off ∨ (inState .standby).pw.dev = .standby) ∧
    (inState .recovery).pw.dev = .recovery := by decide

/-- A device in a state at a step of the sequence, its delay counting. -/
def atStep (d : DevState) (phase step : Nat) : State :=
  let s : State := { inState d with pw := { (inState d).pw with delaying := true, switching := [(45, true)] } }
  ((s.setFlag .FBX_SEQ_HALL 0 true).setReg .FBX_SEQ_PHASE 0 phase).setReg .FBX_SEQ_STEP 0 step

/-- Its table is canonical. -/
theorem regsOk_atStep (d phase step) : RegsOk (atStep d phase step).regs := by
  unfold atStep
  repeat first
    | exact regsOk_nil
    | apply regsOk_setReg

/-- SequencerCommands: the last step that has a next one, a step that waits while powering or in BOOT, a power-down and a
reversal at the lowest step they drop, a retry left, the last group. -/
theorem witness_SequencerCommands :
    ((atStep .powering 1 3).poweringUp = true ∧ (atStep .powering 1 3).pw.delaying = true ∧
      (atStep .powering 1 3).flag .FBX_SEQ_HALL 0 = true ∧ (atStep .powering 1 3).reg .FBX_SEQ_STEP 0 < 4) ∧
    (∀ d ∈ [DevState.powering, .boot], (atStep d 1 2).stepWaits = true ∧
      (atStep d 1 2).flag .FBX_SEQ_OFF_LATCHED 0 = false) ∧
    (∀ phase ∈ [2, 3], ((atStep .draining phase 2).reg .FBX_SEQ_PHASE 0 = 2 ∨
      (atStep .draining phase 2).reg .FBX_SEQ_PHASE 0 = 3) ∧ (atStep .draining phase 2).pw.delaying = true ∧
      1 < (atStep .draining phase 2).reg .FBX_SEQ_STEP 0) ∧
    (((atStep .seqFault 0 0).setReg .FBX_SEQ_RETRIES_LEFT 0 1).reg .FBX_SEQ_PHASE 0 = 0 ∧
      ((atStep .seqFault 0 0).setReg .FBX_SEQ_RETRIES_LEFT 0 1).reg .FBX_SEQ_RETRIES_LEFT 0 ≠ 0) ∧
    (atStep .serving 0 0).pw.switching = ((45 : Fin 46).val, true) :: [] := by decide

/-- A device whose monitor 0 is in a state, with the filter and the count of outside conversions given. -/
def monitored (state glitch outside : Nat) : State :=
  let s : State := { on with pw := { on.pw with outside := if outside = 0 then [] else [(0, outside)] } }
  (s.setReg .FBX_MON_STATE 0 state).setReg .FBX_MON_GLITCH 0 glitch

/-- RailMonitors: a monitor of the fixed sequence; one that qualifies; one excursion past its filter, at the filter's ends;
the loss of LREF in each state that has rails. -/
theorem witness_RailMonitors :
    ((monitored 2 0 0).pw.dev ≠ .noVstby ∧ (monitored 2 0 0).monEnabled (3 : Mon) = true ∧
      SortedKeys (monitored 2 0 0).pw.outside) ∧
    ((monitored 1 0 0).reg .FBX_MON_STATE (0 : Mon) = 1 ∧ (monitored 1 0 0).flag .FBX_MON_OUTSIDE (0 : Mon) = false ∧
      (monitored 1 0 0).poweringUp = false) ∧
    (∀ g ∈ [0, 255], (monitored 2 g (g + 1)).reg .FBX_MON_STATE (0 : Mon) = 2 ∧
      (monitored 2 g (g + 1)).reg .FBX_MON_GLITCH (0 : Mon) < lookD (monitored 2 g (g + 1)).pw.outside (0 : Mon) 0 ∧
      (monitored 2 g (g + 1)).pw.dev ≠ .draining) ∧
    (∀ d ∈ [DevState.powering, .boot, .recovery, .serving, .draining], (inState d).pw.dev = d) := by
  refine ⟨⟨by decide, by decide, trivial⟩, by decide, by decide, by decide⟩

/-- A device on standby whose reservoir is in a state, its charger on. -/
def reservoir (st : ResState) (rising : Bool) : State :=
  let s : State := { inState .standby with res := { (inState .standby).res with st := st, rising := rising } }
  s.setFlag .PRC_RES_STATUS_CHG_EN 0 true

/-- ReservoirCommands: a charging reservoir below 500 mV, a faulty and a sound NTC reading, the two ways a test starts, the
two states that charge anew, and both ends of a test at their limits. -/
theorem witness_ReservoirCommands :
    (reservoir .charging false).pw.dev ≠ .noVstby ∧
    ((reservoir .charging false).res.st = .charging ∧ (reservoir .charging false).flag .PRC_RES_STATUS_CHG_EN 0 = true ∧
      ((reservoir .charging false).setReg .PRC_RES_STATUS_VOLTS 0 49).reg .PRC_RES_STATUS_VOLTS 0 < 50) ∧
    (∀ st ∈ [ResState.charging, .ready], (reservoir st false).pw.dev ≠ .noVstby ∧
      ((reservoir st false).res.st = .charging ∨ (reservoir st false).res.st = .ready)) ∧
    ((reservoir .ready false).res.st = .ready ∧ (reservoir .ready false).flag .PRC_RES_STATUS_CHG_EN 0 = true ∧
      (reservoir .ready false).res.testDue = true) ∧
    (∀ st ∈ [ResState.absent, .failed], (reservoir st false).res.st = .absent ∨ (reservoir st false).res.st = .failed) ∧
    ((reservoir .testing false).res.st = .testing ∧ (reservoir .testing false).res.rising = false ∧
      (reservoir .testing false).res.testDrop ≤ 1) ∧
    ((reservoir .testing true).res.st = .testing ∧ (reservoir .testing true).res.rising = true ∧ 60000 ≤ 60000 ∧
      (reservoir .testing true).pw.dev = .standby) := by decide

/-- A device in a state whose input reads `vin`, with the failure at 10 and the return at 12. -/
def input (d : DevState) (vin : Nat) : State :=
  let s : State := { inState d with pw := { (inState d).pw with vinHistory := [9, 9] } }
  ((s.setReg .PRC_IN_CFG_VIN_FAIL 0 10).setReg .PRC_IN_CFG_VIN_OK 0 12).setReg .PRC_IN_STATUS_VIN 0 vin

/-- InputCommands: a median just below the failure level; a failure while on standby and while serving; the bank at V_MIN at
the first and the last step of a drain; an input back at VIN_OK; a wake at its beat; a slumber request taken, and refused
in each of the two ways. -/
theorem witness_InputCommands :
    ((input .serving 9).pw.dev ≠ .noVstby ∧ (input .serving 9).pw.vinHistory = 9 :: 9 :: [] ∧
      max (min (0xFFF#12).toNat 9) (min (max (0xFFF#12).toNat 9) 9) < (input .serving 9).reg .PRC_IN_CFG_VIN_FAIL 0 ∧
      (input .serving 9).reg .PRC_IN_CFG_VIN_FAIL 0 ≤ (input .serving 9).reg .PRC_IN_CFG_VIN_OK 0) ∧
    (∀ d ∈ [DevState.standby, .serving], (input d 9).pw.dev = d ∧ (input d 9).pw.failLimit ≠ 0 ∧
      (input d 9).reg .PRC_IN_STATUS_VIN 0 < (input d 9).reg .PRC_IN_CFG_VIN_FAIL 0) ∧
    (∀ k ∈ [1, 6], let s := (on.setReg .HALL_DRAIN_STATUS_STEP 0 k).setReg .PRC_RES_CFG0_V_MIN 0 5;
      1 ≤ s.reg .HALL_DRAIN_STATUS_STEP 0 ∧ s.reg .HALL_DRAIN_STATUS_STEP 0 < 7 ∧
      (s.setReg .PRC_RES_STATUS_VOLTS 0 5).reg .PRC_RES_STATUS_VOLTS 0 ≤
        (s.setReg .PRC_RES_STATUS_VOLTS 0 5).reg .PRC_RES_CFG0_V_MIN 0) ∧
    ((input .standby 12).pw.dev ≠ .noVstby ∧
      (input .standby 12).reg .PRC_IN_CFG_VIN_OK 0 ≤ (input .standby 12).reg .PRC_IN_STATUS_VIN 0) ∧
    (let s := ((inState .slumber).setFlag .PRC_SLUMBER_WAKE_ARM 0 true).setReg .PRC_WAKE_BEAT 0 0;
      s.pw.dev = .slumber ∧ s.flag .PRC_SLUMBER_WAKE_ARM 0 = true ∧ s.reg .PRC_WAKE_BEAT 0 ≤ s.beat) ∧
    (on.pw.dev = .serving ∧ on.ephemeralHeld = false) ∧
    (off.pw.dev ≠ .noVstby ∧ off.pw.dev ≠ .serving) ∧
    (let s : State := { up with rooms := [(1, room { roomCfg with cls := 1 })] };
      s.pw.dev ≠ .noVstby ∧ s.ephemeralHeld = true) := by decide

/-- ThermalCommands: a sensor of the Hall, and the stage rising and falling. -/
theorem witness_ThermalCommands :
    (on.pw.dev ≠ .noVstby ∧ (7 : Sensor).val < 8) ∧ on.pw.dev.hallOn = true ∧
    (on.setFlag .CHM_STATUS_THROTTLE 0 true).flag .CHM_STATUS_THROTTLE 0 = true ∧
    on.flag .CHM_STATUS_THROTTLE 0 = false ∧ (1 : Nat) ≠ 0 := by decide

/-- What the board and the dies answer when every part of them is well. -/
def env : BootEnv where
  flashA := true
  flashB := true
  sfdp8d := true
  sfdpMHz := 200
  hallMisr := (0, 0)
  wingMisr := List.replicate 8 (0, 0)
  checkers := 0
  ident := List.replicate 32 1
  formatted := List.replicate 32 1
  trained := 0xFF

/-- StartCommands: a BOOT that has not run R48, a wing whose slice is cleared, a RECOVERY with what BOOT left, and a RECOVERY
that is over on 2 s, on continuity and on an epoch. -/
theorem witness_StartCommands :
    ((inState .boot).pw.dev = .boot ∧ (inState .boot).pw.bootTried = false) ∧
    ((7 : Wing).val ∈ up.wings ∧ up.pw.dev.hallOn = true ∧ up.svc (7 : Wing) ≠ 2) ∧
    (let s : State := { inState .recovery with pw := { (inState .recovery).pw with boot := some env } };
      s.pw.dev = .recovery ∧ s.pw.recovered = false ∧ s.pw.boot = some env) ∧
    (∀ x ∈ [(true, false, false), (false, true, false), (false, false, true)],
      let s : State := { inState .recovery with
        pw := { (inState .recovery).pw with recovered := true }
        rt := { (inState .recovery).rt with continuity := x.1, epochSeen := x.2.1 } };
      s.pw.dev = .recovery ∧ s.pw.recovered = true ∧ s.reg .FBX_SEQ_PHASE 0 = 0 ∧ s.slicesReady = true ∧
      (s.rt.continuity = true ∨ s.rt.epochSeen = true ∨ x.2.2 = true)) := by decide

/-- The hypotheses of the last clause hold of a RECOVERY with no plan. -/
theorem witness_ServingEntry :
    let s : State := { inState .recovery with pw := { (inState .recovery).pw with recovered := true } }
    let t := s.putUnitRecord
    let t := ((t.putMarker (t.marker 0 0)).goto .serving).setReg .HALL_DRAIN_STATUS_STEP 0 0
    let t : State := { t with rt := { t.rt with continuity := true }, pw := { t.pw with fromSlumber := false } }
    let t := t.offerImage.computeBudget.settle
    t.flag .FBX_SEQ_OFF_LATCHED 0 = false ∧ t.pw.shutdownDue = false := by decide

/-- A device with a learned period of 100,000, `n` beats missing, in a time state at a beat. -/
def timed (state missing beat : Nat) : State :=
  (((on.setReg .PRC_RT_FRAC_PERIOD 0 100000).setReg .PRC_RT_STATE_MISSING 0 missing).setReg .PRC_RT_STATE 0 state).setReg
    .PRC_RT_BEAT 0 beat

/-- BeatCommands: an interval just below and at half the period, 0 to 2 and 3 beats missing, a beat counted while the Hall is
off, and a shadow count two below the beat. -/
theorem witness_BeatCommands :
    ((timed 1 0 0).pw.dev ≠ .noVstby ∧ 2 * 49999 < (timed 1 0 0).reg .PRC_RT_FRAC_PERIOD 0) ∧
    (∀ m ∈ [0, 2], (timed 1 m 0).reg .PRC_RT_FRAC_PERIOD 0 ≤ 2 * 50000 ∧ (timed 1 m 0).reg .PRC_RT_STATE_MISSING 0 < 3) ∧
    ((timed 2 3 0).reg .PRC_RT_FRAC_PERIOD 0 ≤ 2 * 100000 ∧ 3 ≤ (timed 2 3 0).reg .PRC_RT_STATE_MISSING 0 ∧
      steadyInterval ((timed 2 3 0).reg .PRC_RT_FRAC_PERIOD 0) 100000 = true ∧
      ({ timed 2 3 0 with rt := { on.rt with steady := 6 } } : State).rt.steady < 7) ∧
    (timed 1 0 0).reg .PRC_RT_FRAC_PERIOD 0 ≠ 0 ∧
    (off.timeState ≠ 3 ∧ off.pw.dev.hallOn = false) ∧
    (let s : State := { (off.setReg .PRC_RT_STATE 0 3).setReg .PRC_RT_BEAT 0 2 with rt := off.rt };
      s.timeState = 3 ∧ s.rt.shadow + 1 < s.beat ∧ s.pw.dev.hallOn = false) := by decide

/-- A stored line of zeros. -/
def stored : StoredLine := { ct := 0, mac := 0, poison := false }

/-- A Larder slot with line 0 valid and dirty. -/
def slot : Slot := { valid := 1, dirty := 1, lines := [(0, stored)], since := 0, ref := false, moving := false, pinned := false }

/-- A frame of page 7 of room 1 with line 0 programmed, in a state of R209. -/
def frame (st : Nat) : Frame where
  pcount := 1
  age := 0
  ageUnknown := false
  room := 1
  index := 0
  home := 0
  st := st
  role := 0
  unc := 0
  lines := [(0, stored)]
  settled := 0
  wroteAt := 0
  pcountCk := 0
  ageCk := 0
  stale := false

/-- Page 7 of room 1, whose home is wing 0: backed by frame 5 of the package, with a dirty line. -/
def page : Page := { Page.blank with
  entry := { Page.blank.entry with frame := some ⟨0, 0, 0, 5⟩ }
  tier := 2
  ctr := some { major := 1, minors := [(0, 1)], suspect := false }
  slot := some slot }

/-- The device above with that page, its frame, and its time LOCKED. -/
def full : State :=
  { up.setReg .PRC_RT_STATE 0 1 with
    ti := { up.ti with pages := [(pageKey 1 7, page)], promoting := [pageKey 1 7], demoting := [pageKey 1 7] }
    md := { up.md with frames := [((⟨0, 0, 0, 5⟩ : FrameAddr).key, frame 2)], wear := [pageKey 1 7] } }

/-- CalendarCommands: the calendar runs, a package's descriptor line, a scrub pass not over and one over, time LOCKED. -/
theorem witness_CalendarCommands :
    full.calendarRuns = true ∧
    (full.profile (0 : Cellar) = some profile ∧ full.cellarUp (0 : Cellar) = true ∧
      (0 : Pkg).val ∈ full.packages (0 : Cellar)) ∧
    ((0 : Wing).val ∈ full.wings) ∧
    (let s : State := { full with md := { full.md with scrub := [(0, 0)] } };
      ∃ n, look s.md.scrub (0 : Wing) = some n ∧ n < s.scrubTotal (0 : Wing)) ∧
    (let s : State := { full with md := { full.md with scrub := [(0, 1)] } };
      ∀ n, look s.md.scrub (0 : Wing) = some n → s.scrubTotal (0 : Wing) ≤ n) ∧
    (full.timeState ≠ 3 ∧ full.timeState ≠ 0) := by
  refine ⟨by decide, by decide, by decide, ⟨0, by decide⟩, ?_, by decide⟩
  intro s n h
  have e : (1 : Nat) = n := by simpa [s, look] using h
  subst e
  decide

/-- An erase of frame 6 that waits for a slot. -/
def erase : MediaOp := mediaOp .erase 1 ⟨0, 0, 0, 6⟩ 0

/-- ProgramCommands: an erase alone in the queue, a page of a demoted victim, a status record, an operation with the last
tag that may be suspended. -/
theorem witness_ProgramCommands :
    (let s : State := { full with md := { full.md with queue := [erase] } };
      s.pw.dev.hallOn = true ∧ s.plan.isSome = true ∧ s.inReset (.cellar (0 : Cellar)) = false ∧
      s.slotChoice (0 : Cellar) = some erase) ∧
    full.writeBackChoice (0 : Wing) = some (pageKey 1 7) ∧
    (full.cellarUp (0 : Cellar) = true ∧ (0 : Pkg).val ∈ full.packages (0 : Cellar) ∧ full.pw.dev.hallOn = true ∧
      (0 : Byte).getLsbD 0 = false) ∧
    (let s : State := { full.setFlag .CEL_CTRL_SUSPEND_EN 0 true with
        md := { full.md with inflight := [{ erase with tag := 63 }] } };
      s.opOf (0 : Cellar) (63 : Fin 64) = some { erase with tag := 63 } ∧ erase.suspended = false ∧
      erase.suspending = false ∧ s.flag .CEL_CTRL_SUSPEND_EN (0 : Cellar) = true) := by decide

/-- A read of line 28 of page 7 that waits for its media line. -/
def waiting : Req where
  id := 1
  requester := 0
  room := 1
  kind := .memRd
  mv := .i
  tag := 0
  todo := [{ page := 7, line := 0, data := 0, mask := 0, poison := false }]
  got := []
  skip := 0
  length := 0
  wait := .media
  asked := []
  mark := false
  pantry := .clean
  source := 0
  flags := 0

/-- The device with that read admitted. -/
def reading : State := { full with hp := { full.hp with pend := [waiting] } }

/-- PackageCommands: a package of a cellar in service; a read that is not over, one whose strobe failed three times, and a
clean one that a request waits for. -/
theorem witness_PackageCommands :
    (reading.frame (frameAt (0 : Cellar) (0 : Pkg) 5) = some (frame 2) ∧ reading.cellarUp (0 : Cellar) = true ∧
      (0 : Pkg).val ∈ reading.packages (0 : Cellar) ∧ reading.pw.dev.hallOn = true ∧
      reading.inReset (.cellar (0 : Cellar)) = false) ∧
    readEnd (reading.readPlan (frame 2)).limit [.busCrc] 0 0 0 = .unfinished ∧
    readEnd (reading.readPlan (frame 2)).limit [.noStrobe, .noStrobe, .noStrobe] 0 0 0 = .pkgFailed ∧
    readEnd (reading.readPlan (frame 2)).limit [.clean] 0 0 0 = .clean ∧
    (let a := frameAt (0 : Cellar) (0 : Pkg) 5;
      let t := ((reading.busCrcs a (0 : MediaLineNo) 0).countOutcome a (0 : MediaLineNo)
        (reading.readPlan (frame 2)) 1 .clean).clearMisses (0 : Cellar) (0 : Pkg) [0, 2];
      t.pageOf a = some (1, 7) ∧ ∃ i < 4, t.mediaWaiters 1 7 (4 * (0 : MediaLineNo) + i) ≠ []) ∧
    ((0 : Cellar).val ∈ reading.cellars) := by
  refine ⟨by decide +kernel, by decide, by decide, by decide, ⟨by decide +kernel, 0, by decide +kernel⟩, by decide⟩

/-- The device with page 7 moving to frame 9. -/
def moving : State :=
  { full with md := { full.md with frames := [((⟨0, 0, 0, 5⟩ : FrameAddr).key, frame 2), ((⟨0, 0, 0, 9⟩ : FrameAddr).key, frame 5)] } }

/-- PackageCommands, its last two clauses: a move target of a page that has left its frame, and of one that has not. -/
theorem witness_FrameMigration :
    (let s : State := { moving with ti := { moving.ti with pages := [] } };
      let t : State := { s with md := { s.md with wear := s.md.wear.filter fun x => x != pageKey (1 : RoomNo) 7 } };
      pageKey (1 : RoomNo) 7 ∈ s.md.wear ∧ t.moveTarget (1 : RoomNo) 7 = some ⟨0, 0, 0, 9⟩ ∧
      (t.page (1 : RoomNo) 7).entry.frame = none) ∧
    (let s := moving;
      let t : State := { s with md := { s.md with wear := s.md.wear.filter fun x => x != pageKey (1 : RoomNo) 7 } };
      let e := { (t.page (1 : RoomNo) 7).entry with frame := some (⟨0, 0, 0, 9⟩ : FrameAddr) };
      let u := (t.setPage (1 : RoomNo) 7 { t.page (1 : RoomNo) 7 with entry := e }).journalEntry (1 : RoomNo) 7 e;
      let v := u.setFrame ⟨0, 0, 0, 9⟩ { frame 5 with st := 2, age := u.ageUnit, ageUnknown := false };
      pageKey (1 : RoomNo) 7 ∈ s.md.wear ∧ t.moveTarget (1 : RoomNo) 7 = some ⟨0, 0, 0, 9⟩ ∧
      (t.page (1 : RoomNo) 7).entry.frame = some ⟨0, 0, 0, 5⟩ ∧ (t.page (1 : RoomNo) 7).entry.lost = false ∧
      u.frame ⟨0, 0, 0, 9⟩ = some (frame 5) ∧ v.isBraced (1 : RoomNo) = false) := by
  decide +kernel

/-- A write that waits on pacing. -/
def pacedReq : Req := { waiting with kind := .memWr, wait := .paced }

/-- A write-through log entry of wing 0. -/
def logged : LogEntry where
  wing := 0
  room := 1
  page := 7
  ml := 0
  seq := 1
  lines := []
  entry := page.entry
  ctr := { major := 0, minors := [], suspect := false }

/-- LarderCommands: a page promoted while its frame is away, a read of a line, the hottest degree past 85 °C, a paced write
that now has room, a log entry, and a Corridor module up. -/
theorem witness_LarderCommands :
    (let s := full.setReg .CEL_STATUS_PRESENT 0 0;
      s.room (1 : RoomNo) = some (room roomCfg) ∧ (s.page (1 : RoomNo) 7).slot = some slot ∧
      pageKey (1 : RoomNo) 7 ∈ s.ti.promoting ∧ s.away (s.page (1 : RoomNo) 7) = true) ∧
    (full.room (1 : RoomNo) = some (room roomCfg) ∧ full.wingUp (full.actingHome (full.home (1 : RoomNo) 7)) = true ∧
      full.pw.dev.hallOn = true) ∧
    (full.wingUp (0 : Wing) = true ∧ (0 : Wing).val ∈ full.wings ∧ (340 : Int) < 341) ∧
    (let s : State := { full with hp := { full.hp with pend := [pacedReq] } };
      let q := pacedReq;
      s.hp.pend.find? (s.pacedOn (0 : Wing)) = some q ∧
      q.todo = { page := 7, line := 0, data := 0, mask := 0, poison := false } :: [] ∧
      s.room q.room = some (room roomCfg) ∧ s.noRoom roomCfg q.room 7 = false) ∧
    (let s : State := { full with md := { full.md with log := [logged] } };
      takeFirst (fun (e : LogEntry) => e.wing == (0 : Wing).val) s.md.log = some (logged, [])) ∧
    (let s := full.setFlag .COR_LINK_UP 8 true;
      s.moduleUp (.hall 0) = true ∧ s.pw.dev.hallOn = true ∧ s.inReset (.corridor (moduleWing (.hall 0))) = false) := by
  decide +kernel

/-- A back-invalidate to requester 0 for line 0 of page 7, sent twice. -/
def snoop : Snoop := { requester := 0, key := lineKey 1 7 0, kind := .inv, resent := true }

/-- A directory entry with no holder. -/
def entry : DirEntry := { hstate := .i, coarse := false, holders := [], groups := 0, slices := 0, owner := none }

/-- CoherenceCommands: an answered snoop, one to be sent again, a requester that failed after it, the host map buffer on and
off, and a leaf of it. -/
theorem witness_CoherenceCommands :
    (let s : State := { full with
        hp := { full.hp with snoops := [snoop] }
        ti := { full.ti with dir := [(lineKey 1 7 0, entry)] } };
      takeFirst (fun (x : Snoop) => x.requester == (0 : Requester).val && x.key == lineKey (1 : RoomNo) 7 (0 : Fin 64))
        s.hp.snoops = some (snoop, []) ∧
      look (({ s with hp := { s.hp with snoops := [] } } : State).count 11 1).ti.dir (lineKey (1 : RoomNo) 7 (0 : Fin 64)) =
        some entry ∧
      snoop ∈ s.hp.snoops ∧ snoop.requester = (0 : Requester).val ∧ snoop.resent = true) ∧
    (let s : State := { full with hp := { full.hp with snoops := [{ snoop with resent := false }] } };
      (s.hp.snoops.find? fun x => x.requester == (0 : Requester).val && x.key == lineKey (1 : RoomNo) 7 (0 : Fin 64) &&
        !x.resent) = some { snoop with resent := false }) ∧
    (full.pw.dev.hallOn = true ∧ full.hp.link = .l0) ∧
    (let s := full.setFlag .HALL_HMB_CTRL_ENABLE 0 true;
      s.pw.dev.hallOn = true ∧ s.isManagement (s.requesterOf (0 : Requester)) = true ∧
      s.flag .HALL_HMB_CTRL_ENABLE 0 = true ∧ full.flag .HALL_HMB_CTRL_ENABLE 0 = false) ∧
    (let s : State := { full with hp := { full.hp with hmbLeaves := [(1, full.leafOf 1 7)] } };
      ((1 : RoomNo).val, s.leafOf (1 : RoomNo) 7) ∈ s.hp.hmbLeaves) := by
  decide +kernel

/-- The full device's table is canonical. -/
theorem regsOk_full : RegsOk full.regs := by
  show RegsOk (up.setReg .PRC_RT_STATE 0 1).regs
  exact regsOk_setReg _ _ _ regsOk_up

/-- HostRequests: requests of requester 0 at the first line of room 1, and the longest UIO requests at its first page, pass
the port. -/
theorem witness_HostRequests :
    (∀ kind ∈ [ReqKind.memRd, .memRdData, .memWr, .memWrPtl, .memInv, .memInvNt],
      PortPasses full hostReq kind 64 0 0 1 (room roomCfg)) ∧
    (∀ kind ∈ [ReqKind.uioRd, .uioWr], ∀ n ∈ [1, 4096], PortPasses full hostReq kind n 0 0 1 (room roomCfg)) := by
  refine ⟨fun kind h => ?_, fun kind h n m => ?_⟩
  all_goals simp only [List.mem_cons, List.not_mem_nil, or_false] at *
  · rcases h with rfl | rfl | rfl | rfl | rfl | rfl <;> constructor <;> decide +kernel
  · rcases h with rfl | rfl <;> rcases m with rfl | rfl <;> constructor <;> decide +kernel

/-- HostRequests, the atomic descriptor: a room with an aperture at its first page, and the last slot of requester 0. -/
theorem witness_AtomicDescriptor :
    let c : RoomCfg := { roomCfg with attr := 0x12 };
    let s : State := { full with rooms := [(1, room c)] };
    s.room (1 : RoomNo) = some (room c) ∧ c.aperture = true ∧ s.hp.link = .l0 ∧ s.pw.dev = .serving ∧
      s.requesterOf (0 : Requester) ∉ s.hp.failed ∧
      s.mayAccess (s.requesterOf (0 : Requester)) c.region
        (c.base + (c.apertureBase + s.requesterOf (0 : Requester)) * 4096 + (31 : Fin 32) * 64) = some (1 : RoomNo).val := by
  decide +kernel

/-- RequestAcceptance: reads and writes, a viral port with its link up, and one that is not. -/
theorem witness_RequestAcceptance :
    full.room 1 = some (room roomCfg) ∧ ReqKind.memRd.writes = false ∧ ReqKind.memWr.writes = true ∧
    ((full.setFlag .HALL_HP_LINK_VIRAL_IN 0 true).flag .HALL_HP_LINK_VIRAL_IN 0 = true ∧ full.hp.link = .l0) ∧
    full.flag .HALL_HP_LINK_VIRAL_IN 0 = false ∧ (roomCfg.descriptorLine 7 0 = false) := by
  decide +kernel

/-- HostRefusals: a decoded address past every room, and UIO lengths just outside those the rule admits. -/
theorem witness_HostRefusals :
    (let s : State := { full with rooms := [] };
      s.hp.link = .l0 ∧ s.pw.dev = .serving ∧ hostReq.ideOk = true ∧ s.insecure false = false ∧
      s.requesterOf hostReq.requester ∉ s.hp.failed ∧
      s.decodeHpa (s.requesterOf hostReq.requester) hostReq.hpa.toNat = some (0, 0) ∧ s.roomAt 0 = none) ∧
    (4096 < 4097) ∧ ([] : List Byte).length = 0 := by
  decide +kernel

/-- LineReads: a room no line of which is written, a poisoned page, and a page with a line never written. -/
theorem witness_LineReads :
    (full.room 1 = some (room roomCfg) ∧ full.unreachable roomCfg 1 8 = false ∧ full.page 1 8 = Page.blank ∧
      full.floorOf roomCfg = 0) ∧
    (let s := full.setPage 1 7 { page with entry := { page.entry with poison := true } };
      s.unreachable roomCfg 1 7 = false ∧ (s.page 1 7).entry.poison = true) ∧
    (full.unreachable roomCfg 1 7 = false ∧ (full.page 1 7).entry.poison = false ∧ (full.page 1 7).entry.lost = false ∧
      ((full.page 1 7).block (full.floorOf roomCfg)).minor 63 = 0) := by
  decide +kernel

/-- A partner that offers what the port needs. -/
def partner : Partner := { rate := 3, width := 3, flit256 := true, cxl := true, pbr := true, lopt := false }

/-- A device in a state with its link in one. -/
def linked (d : DevState) (l : Link) : State := { inState d with hp := { (inState d).hp with link := l } }

/-- LinkCommands: a good partner, partners that lack each need, and every link state a clause asks for. -/
theorem witness_LinkCommands :
    (∀ d ∈ [DevState.boot, .recovery, .serving], ∀ l ∈ [Link.down, .training],
      ((linked d l).pw.dev = .boot ∨ (linked d l).pw.dev = .recovery ∨ (linked d l).pw.dev = .serving) ∧
      ((linked d l).hp.link = .down ∨ (linked d l).hp.link = .training)) ∧
    (let rate := min (min 3 partner.rate) (on.reg .HALL_HP_CTRL_MAX_RATE 0);
      partner.flit256 = true ∧ partner.cxl = true ∧ rate ≠ 0 ∧ partner.width ≠ 0) ∧
    (min (min 3 0) (on.reg .HALL_HP_CTRL_MAX_RATE 0) = 0) ∧
    ((linked .serving .down).hp.link = .down ∧ (linked .serving .down).pw.dev.hallOn = true) ∧
    ((linked .serving .recovery).hp.link = .recovery) ∧ ((1 : Nat) ≠ 0 ∧ (linked .serving .l0).hp.link ≠ .down) ∧
    ((linked .serving .l0).hp.link = .l0) ∧ ((inState .boot).pw.dev = .boot) ∧
    (∀ d ∈ [DevState.serving, .recovery], (inState d).pw.dev = .serving ∨ (inState d).pw.dev = .recovery) := by decide

/-- PortSecurityCommands: every stream, each measurement block, and a vector with a message pending. -/
theorem witness_PortSecurityCommands :
    on.pw.dev.hallOn = true ∧ (4 : Fin 5).val ≠ 0 ∧ (∀ i ∈ [1, 2, 3, 4, 5, 6, 7], (up.measured i).isSome = true) ∧
    (let s : State := { on with hp := { on.hp with msixPending := [2047], msixUnmasked := [2047] } };
      (2047 : Source).val ∈ s.hp.msixPending ∧ (2047 : Source).val ∈ s.hp.msixUnmasked ∧
      (s.setFlag .HALL_MSIX_DEST_VALID 2047 true).flag .HALL_MSIX_DEST_VALID (2047 : Source) = true) := by
  decide

/-- Mailbox commands reach the mailbox from a management requester and over Landing. -/
theorem mayCommand_full : MayCommand full boss := ⟨by decide +kernel, .inr (by decide +kernel)⟩

/-- The same of the state before it has pages. -/
theorem mayCommand_landing : MayCommand on { requester := 5, landing := true } := ⟨by decide, .inl rfl⟩

/-- MailboxReads: a device with a plan and one without, and a room. -/
theorem witness_MailboxReads :
    full.plan = some plan ∧ on.plan = none ∧ full.room (1 : RoomNo) = some (room roomCfg) := by decide +kernel

/-- MailboxWrites: rack time unknown and known, the last line of a room, no extent and no background command, a failed
requester, and a Landing sender. -/
theorem witness_MailboxWrites :
    on.timeState = 0 ∧ full.timeState ≠ 0 ∧ full.offsetOk (1 : RoomNo) (2 ^ 30 - 64) = true ∧
    (on.hp.extents = [] ∧ on.hp.background = none) ∧
    (let s : State := { full with hp := { full.hp with failed := [0] } }; (0 : Requester).val ∈ s.hp.failed) ∧
    ({ requester := 5, landing := true } : Sender).landing = true := by decide +kernel

/-- A device whose slot A is the active one and slot B erased. -/
def updating : State :=
  { full.setReg .HALL_FP_STATUS_ACTIVE 0 1 with flash := { full.flash with target := some 1, erased := true } }

/-- ImageCommands: with an image loaded and with none, the longest write that ends at the slot's end, and the three commands
that run in the background. -/
theorem witness_ImageCommands :
    (full.hp.background = none ∧ (match full.otherSlot with | some t => t | none => (1 : Byte).toNat) = 1 ∧ 1 ≤ 1) ∧
    (MayCommand updating boss ∧ updating.hp.background = none ∧ updating.otherSlot = some 1) ∧
    (updating.flash.target = some 1 ∧ updating.flash.erased = true ∧ updating.reg .HALL_FP_STATUS_ACTIVE 0 ≠ 1 + 1 ∧
      (0x02000000 - 8192) % 256 = 0 ∧ (List.replicate 8192 (0 : Byte)).length = 8192 ∧
      0x02000000 - 8192 + 8192 ≤ 0x02000000) ∧
    (∀ b ∈ [Background.imageBegin 1, .imageCheck 1, .sanitize],
      ({ updating with hp := { updating.hp with background := some b } } : State).hp.background = some b) := by
  refine ⟨by decide +kernel, ⟨⟨by decide +kernel, .inr (by decide +kernel)⟩, by decide +kernel, by decide +kernel⟩,
    ⟨by decide, by decide, by decide +kernel, by decide, List.length_replicate, by decide⟩, ?_⟩
  intro b _
  rfl

/-- MailboxRefusals: an extent held, a background command running, a room that is absent, and a requester with no right. -/
theorem witness_MailboxRefusals :
    full.hp.extents ≠ [] ∧
    (let s : State := { on with hp := { on.hp with background := some .sanitize } };
      s.hp.extents = [] ∧ s.hp.background ≠ none) ∧
    boss.landing = false ∧ full.room (4095 : RoomNo) = none ∧
    (on.pw.dev.hallOn = true ∧ boss.landing = false ∧ on.isManagement (on.requesterOf boss.requester) = false) := by
  decide +kernel

/-- An extent offered to requester 0. -/
def offer : Extent := { requester := 0, room := 1, region := 7, base := 0, size := 2 ^ 30 }

/-- CapacityCommands: an offer made and one not made, a decoder cleared, one that is accepted and one that is refused, and a
room in removal. -/
theorem witness_CapacityCommands :
    (full.pw.dev.hallOn = true ∧ offer ∈ ({ full with hp := { full.hp with offers := [offer] } } : State).hp.offers ∧
      offer ∉ full.hp.offers) ∧
    (decoderOk { hpaBase := 2 ^ 40, size := 2 ^ 30, ways := 1, granularity := 256, way := 0, dpaBase := 0 } = true ∧
      decoderOk { hpaBase := 2 ^ 40, size := 2 ^ 30, ways := 16, granularity := 32768, way := 0, dpaBase := 0 } = false) ∧
    (let x : Room := { room roomCfg with state := .removing };
      let s : State := { full with rooms := [(1, x)] };
      s.room (1 : RoomNo) = some x ∧ x.state = .removing ∧ s.pw.dev.hallOn = true ∧
      s.roomHasRequests (1 : RoomNo) = false) := by
  decide +kernel

/-- CounterCommands: a snapshot armed for the present beat, the last Hall counter and the last wing counter, each through its
window. -/
theorem witness_CounterCommands :
    full.pw.dev.hallOn = true ∧
    (let s : State := { full with me := { full.me with armed := some 0 } };
      s.me.armed = some 0 ∧ s.timeState ≠ 3 ∧ 0 ≤ s.beat) ∧
    (counterListed (451 : Fin 6656) = true ∧ full.flag .PMC_CTRL_FREEZE 0 = false) ∧
    (let s := full.setReg .PMC_SEL_BANK 0 3;
      s.flag .PMC_SEL_SHADOW 0 = false ∧ 128 * s.reg .PMC_SEL_BANK 0 + (67 : Fin 128).val = 451 ∧ 451 < 512 ∧
      counterListed 451 = true) ∧
    (let s := full.setReg .PMC_SEL_BANK (1 + (7 : Wing).val) 5;
      s.flag .PMC_SEL_SHADOW (1 + (7 : Wing).val) = false ∧
      128 * s.reg .PMC_SEL_BANK (1 + (7 : Wing).val) + (98 : Fin 128).val = 738 ∧ 738 < 768 ∧
      counterListed (512 + 768 * (7 : Wing).val + 738) = true) := by decide +kernel

/-- BistCommands: a FENCED wing, a wing in service, and a run that ends. -/
theorem witness_BistCommands :
    (let s := full.setReg .HALL_SVC_STATE 7 2;
      s.pw.dev.hallOn = true ∧ (7 : Wing).val ∈ s.wings ∧ s.svc (7 : Wing) = 2 ∧ ∀ r ∈ s.me.running, r.1 ≠ (7 : Wing).val) ∧
    (full.svc (7 : Wing) ≠ 2 ∧ ∀ r ∈ full.me.running, r.1 ≠ (7 : Wing).val) ∧
    (let s : State := { full with me := { full.me with running := [(8, 2, false)] } };
      s.me.running.find? (fun r => r.1 == (8 : Fin 9).val) = some ((8 : Fin 9).val, 2, false) ∧ s.plan = some plan) := by
  decide +kernel

/-- AtticCommands: a nonce that is the one issued last, with the term, and none. -/
theorem witness_AtticCommands :
    (let s : State := { full with pl := { full.pl with nonce := some 9 } }; s.pl.nonce = some 9 ∧ s.term = (0 : Word).toNat) ∧
    full.tokenOk 9 full.index (0 : Word).toNat true = false := by decide +kernel

/-- FaultCommands: a collector that takes events, a source to force and one below 5, a core, and a reset that is over of a
cellar's source and of another. -/
theorem witness_FaultCommands :
    full.collects = true ∧ full.pw.dev.hallOn = true ∧
    (5 ≤ (8 : Source).val ∧ (severityOf (8 : Source)).isSome = true) ∧ (4 : Source).val < 5 ∧
    (full.flag .FLT_SRC_FORCE (8 : Source) = false ∧
      (full.setFlag .FLT_SRC_FORCE 8 true).flag .FLT_SRC_FORCE (8 : Source) = true) ∧
    (full.wingUp ((63 : Fin 64).val / 8) = true ∧ full.inReset (.core (63 : Fin 64)) = false) ∧
    (let s : State := { full with fl := { full.fl with resets := [256, srcCore 0] } };
      (256 : Source).val ∈ s.fl.resets ∧ ownerOf (256 : Source) = .cellar (0 : Cellar).val ∧
      s.cellarUp (0 : Cellar).val = true ∧ (Fin.ofNat 2048 (srcCore 0)).val ∈ s.fl.resets) ∧
    (∀ c : Cellar, ownerOf (Fin.ofNat 2048 (srcCore 0)).val ≠ .cellar c.val) := by decide +kernel

/-- A requester whose accesses nothing holds back. -/
theorem mayAccess_full : MayAccess full (0 : Requester) :=
  ⟨by decide +kernel, by decide +kernel, rfl, nofun, nofun⟩

/-- An event queue item. -/
def item : QItem := { source := 5, severity := 1, reaction := 0, forced := false, merged := false, beat := 0 }

/-- StalledReads: a queue with an item and an empty one, an idle Cupboard and a busy one, a wing that is reached, an event that
waits, a stalled read, and a page write that ends. -/
theorem witness_StalledReads :
    full.wingReached (0 : Wing) = true ∧
    (let s : State := { full with fl := { full.fl with queues := [(1, [item])], stalled := [(2, 5, .all)] } };
      lookD s.fl.queues 1 [] = item :: [] ∧ lookD s.fl.queues 0 [] = [] ∧ s.fl.stalled = (2, 5, .all) :: []) ∧
    full.cb.queue = [] ∧
    (let s : State := { full with cb := { full.cb with queue := [{ page := 0, value := 0, counter := none, record := none }] } };
      s.cb.queue ≠ []) ∧
    full.collects = true ∧
    (let s := full.emit 8; s.collects = true ∧ s.fl.inbox = ⟨plainEvent 8, 0, false⟩ :: []) := by decide +kernel

/-- EventsCount: a source the map does not list, a plain one, and one whose bucket is on: empty, with a depth of 0, at its
depth, and below it. -/
theorem witness_EventsCount :
    severityOf 2047 = none ∧ (severityOf 10).isSome = true ∧ full.bucketOn 10 = false ∧
    (let s := full.setFlag .FLT_SRC_BUCKET_EN 10 true;
      s.bucketOn 10 = true ∧ s.reg .FLT_SRC_DEPTH 10 = 0 ∧
      (let t := (s.setReg .FLT_SRC_DEPTH 10 2).setReg .FLT_SRC_LEVEL 10 2; t.bucketOn 10 = true ∧
        t.reg .FLT_SRC_LEVEL 10 = t.reg .FLT_SRC_DEPTH 10) ∧
      (let t := (s.setReg .FLT_SRC_DEPTH 10 2).setReg .FLT_SRC_LEVEL 10 1; t.bucketOn 10 = true ∧ t.reg .FLT_SRC_DEPTH 10 ≠ 0 ∧
        t.reg .FLT_SRC_LEVEL 10 ≠ t.reg .FLT_SRC_DEPTH 10)) ∧ full.fl.first = none := by decide +kernel

/-- UnitCommands: a wing in a failover window with a stand-in, a unit drained and one rebuilt, a re-admission, a delta, a
recomputation and a group to switch. -/
theorem witness_UnitCommands :
    (let s : State := { full with br := { full.br with window := [0] } };
      (0 : Wing).val ∈ s.br.window ∧ s.pw.dev.hallOn = true ∧ s.standIn (0 : Wing) = some 1) ∧
    ((full.setFlag .HALL_SVC_REMIRROR 0 true).flag .HALL_SVC_REMIRROR (0 : Wing) = true ∧
      (full.setFlag .HALL_SVC_REMIRROR 0 true).standIn (0 : Wing) = some 1) ∧
    (let s := up.setReg .HALL_SVC_STATE (unitIndex (.cellar 31)) 1;
      s.svc (unitIndex (.cellar 31)) = 1 ∧ s.drained (unitIndex (.cellar 31)) = true) ∧
    (let s := up.setReg .HALL_SVC_STATE (unitIndex (.cellar 31)) 4;
      s.svc (unitIndex (.cellar 31)) = 4 ∧ s.rebuildOver (unitIndex (.cellar 31)) = true) ∧
    (let s : State := { full with br := { full.br with readmit := [15] } };
      s.br.readmit = 15 :: [] ∧ 15 < 16 ∧ unitWing 15 = (7 : Wing).val ∧ s.svc 15 ≠ 3 ∧ ∀ r ∈ s.me.running, r.1 ≠ 15) ∧
    (let d : ParityDelta := { wing := 7, stripe := 0, position := 0, dct := 0, dmac := 0, free := none };
      let s : State := { full with br := { full.br with deltas := [d] } }; d.wing = (7 : Wing).val ∧ s.br.deltas = d :: []) ∧
    (let x : Stripe := { Stripe.blank 7 with recompute := true };
      let s : State := { full with br := { full.br with stripes := [(stripeKey 1 0, x)] } };
      s.pw.dev = .serving ∧ (s.br.stripes.filter fun x => x.2.recompute &&
        s.parityWing (x.1 / 2 ^ 40) (x.1 % 2 ^ 40) == (1 : Wing).val) = (stripeKey 1 0, x) :: []) ∧
    (let s : State := { full with pw := { full.pw with switching := [(45, true)] } };
      s.pw.switching = ((45 : Fin 46).val, true) :: []) := by decide +kernel

/-- UnitCommands, its third clause: a cellar is no package. -/
theorem witness_UnitCommands_cellar : ∀ c p, UnitId.cellar 31 ≠ .package c p := nofun

/-- A context of 16 and 16 slots with the head and tail indices given, in a state. -/
def ctx (st : RingState) (sqHead sqTail cqHead cqTail : BitVec 32) : RingCtx :=
  { RingCtx.blank with
    sqLog2 := 4, cqLog2 := 4, state := st, sqHead := sqHead, sqTail := sqTail, cqHead := cqHead, cqTail := cqTail }

/-- The device with ring 0 of requester 0 in that context. -/
def ringed (c : RingCtx) : State := { full with rg := { full.rg with ctx := [(0, c)] } }

/-- The doorbells of ring 0 reach it. -/
theorem ringDoorbell (c : RingCtx) : RingDoorbell (ringed c) (0 : Requester) (0 : Requester) (0 : RingNo) :=
  ⟨rfl, rfl, rfl⟩

/-- A context that R379 admits: 2^4 and 2^16 slots, the largest interrupt mode. -/
def goodContext : Line := BitVec.ofNat 512 (4 * 2 ^ 224 + 16 * 2 ^ 232 + 2 * 2 ^ 240)

/-- One it does not: a base that is not a multiple of 64. -/
def badContext : Line := BitVec.ofNat 512 (4 * 2 ^ 224 + 16 * 2 ^ 232 + 2 * 2 ^ 240 + 1)

/-- DoorbellCommands and ContextWrites: a tail across the wrap of the indices at a full ring's distance and one past it, one
behind the old tail, a head at the tail, each state a CTRL value acts in, and contexts at the ends of the sizes. -/
theorem witness_DoorbellCommands :
    (let c := ctx .running 0xFFFFFFFF 0xFFFFFFFF 0 1;
      (ringed c).ctx (ringKey (0 : Requester) (0 : RingNo)) = c ∧ c.state ≠ .idle ∧ c.state ≠ .error ∧
      (c.sqTail - c.sqHead).toNat ≤ ((15 : BitVec 32) - c.sqHead).toNat ∧ ((15 : BitVec 32) - c.sqHead).toNat ≤ 2 ^ c.sqLog2 ∧
      2 ^ c.sqLog2 < ((16 : BitVec 32) - c.sqHead).toNat ∧
      ((1 : BitVec 32) - c.cqHead).toNat ≤ (c.cqTail - c.cqHead).toNat) ∧
    (let c := ctx .running 0 2 0 0; ((1 : BitVec 32) - c.sqHead).toNat < (c.sqTail - c.sqHead).toNat) ∧
    (∀ st ∈ [RingState.stopped, .running, .error],
      ((ringed (ctx st 0 0 0 0)).ctx (ringKey (0 : Requester) (0 : RingNo))).state = st) ∧
    ((ringed (ctx .idle 0 0 0 0)).ctx (ringKey (0 : Requester) (0 : RingNo))).state = .idle ∧
    (contextOf goodContext).ok = true ∧ (contextOf badContext).ok = false := by decide +kernel

/-- ContextWrites: the two contexts against the sizes and bases of the rule. -/
theorem witness_ContextWrites :
    (let field := fun (lo width : Nat) => (goodContext.extractLsb' lo width).toNat;
      4 ≤ field 224 8 ∧ field 224 8 ≤ 16 ∧ 4 ≤ field 232 8 ∧ field 232 8 ≤ 16 ∧ field 0 64 % 64 = 0 ∧
      field 64 64 % 64 = 0 ∧ field 240 8 ≤ 2) ∧
    (let field := fun (lo width : Nat) => (badContext.extractLsb' lo width).toNat; field 0 64 % 64 ≠ 0) ∧
    ((ringed (ctx .stopped 0 0 0 0)).ctx (ringKey (0 : Requester) (0 : RingNo))).state ≠ .idle := by decide +kernel

/-- DoorbellsIgnored and ForeignDoorbells: a ring past those the section gives, each CTRL value in a state it does not act in,
and another requester's page. -/
theorem witness_DoorbellsIgnored :
    (full.pw.dev.hallOn = true ∧ full.requesterOf (0 : Requester) = (0 : Requester).val ∧
      full.ringExists (0 : Requester) (1 : RingNo) = false) ∧
    (∀ st ∈ [RingState.idle, .running, .stopping], let c := (ringed (ctx st 0 0 0 0)).ctx (ringKey (0 : Requester) (0 : RingNo));
      c.state ≠ .stopped ∧ c.state ≠ .error) ∧
    ((ringed (ctx .stopped 0 0 0 0)).ctx (ringKey (0 : Requester) (0 : RingNo))).state ≠ .running ∧
    (full.requesterOf (0 : Requester) ≠ (4095 : Requester).val ∧ full.hp.behind = [] ∧
      4095 * 0x40000 / 0x40000 = (4095 : Requester).val ∧ full.fl.dead = false) := by decide +kernel

/-- The 64 bytes of a command (R384). -/
def cmd (op sspace dspace src dst len sid did arg0 : Nat) : Line :=
  BitVec.ofNat 512 (op + sspace * 2 ^ 16 + dspace * 2 ^ 24 + src * 2 ^ 64 + dst * 2 ^ 128 + len * 2 ^ 192 + sid * 2 ^ 256 +
    did * 2 ^ 272 + arg0 * 2 ^ 320)

/-- A command fetched and not started. -/
def fetched (d : Line) : RingCmd := { ring := 0, index := 0, cmd := d, started := false }

/-- DispatchCommands: a ring with a command fetched, one with a command to fetch, a channel that is over well and one that
is over with an error, and records counted towards a message. -/
theorem witness_DispatchCommands :
    (let s : State := { ringed (ctx .running 0 1 0 0) with
        rg := { (ringed (ctx .running 0 1 0 0)).rg with fetched := [fetched (cmd 2 0 0 0 0 64 0 1 0)] } };
      s.pw.dev = .serving ∧ s.dispatchChoice true = some 0 ∧ s.unstarted 0 = some (fetched (cmd 2 0 0 0 0 64 0 1 0))) ∧
    ((ringed (ctx .running 0 1 0 0)).dispatchChoice true = some 0 ∧ (ringed (ctx .running 0 1 0 0)).unstarted 0 = none) ∧
    (let s := ringed { ctx .running 0 1 0 0 with counted := 1, coalesceTime := 1 };
      (s.ctx (ringKey (0 : Requester) (0 : RingNo))).counted ≠ 0 ∧
      (s.ctx (ringKey (0 : Requester) (0 : RingNo))).coalesceTime ≠ 0) := by decide +kernel

/-- A channel's command, not over. -/
def chan (d : Line) : Channel where
  ring := 0
  index := 0
  cmd := d
  charge := 1
  done := false
  status := 0
  result := 0
  bases := []
  program := []
  pc := 0
  loops := []
  waitBeat := none
  loaded := false
  todo := []

/-- The device with a command on the last channel. -/
def busy (c : Channel) : State :=
  { ringed (ctx .running 0 1 0 0) with rg := { (ringed (ctx .running 0 1 0 0)).rg with chans := [(255, c)] } }

/-- DispatchCommands, the completions: over with COMPLETED, with PARTIAL and with the first error status. -/
theorem witness_CommandComplete :
    (∀ st ∈ [0, 1, 0x10], let c := { chan (cmd 2 0 0 0 0 64 0 1 0) with done := true, status := st };
      look (busy c).rg.chans (255 : StairCh) = some c ∧ c.done = true) ∧
    (let c := { chan (cmd 2 0 0 0 0 64 0 1 0) with done := true, status := 0x10 };
      let s := busy c;
      let d := stairCmd c.cmd;
      let t : State := { s with rg := { s.rg with
        chans := del s.rg.chans (255 : StairCh)
        waiters := s.rg.waiters.filter fun x => x != (255 : StairCh).val
        fetched := s.rg.fetched.filter fun x => !(x.ring == c.ring && x.index == c.index && x.started) } };
      let u := t.record c.ring (d.tag, c.index.toNat % 2 ^ 16, c.status,
        (if d.unordered then 4 else 0) + (if d.irq then 256 else 0), c.result);
      let v := (u.satReg .STR_STAT_ERRORS (255 : StairCh) 1).emit (srcStair (255 : StairCh));
      (v.ctx c.ring).state = .running) := by decide +kernel

/-- CompletionRecords: a full completion ring, records that wait, and the last slot of a ring with room. -/
theorem witness_CompletionRecords :
    (0 : Nat) ≠ internalRing ∧ ((ringed (ctx .running 0 0 0 16)).ctx 0).full = true ∧
    ((ringed { ctx .running 0 0 0 0 with waiting := [(0, 0, 0, 0, 0)] }).ctx 0).waiting ≠ [] ∧
    (let c := (ringed (ctx .running 0 0 1 15)).ctx 0;
      c.state ≠ .idle ∧ c.full = false ∧ c.waiting = [] ∧ c.irqMode = 0 ∧ c.cqTail.toNat % 2 ^ c.cqLog2 + 1 = 2 ^ c.cqLog2) := by
  decide +kernel

/-- The status an access or a fetch of a channel ends with, none when it succeeds. -/
def failure {α : Type} : Except Nat α → Option Nat
  | .ok _ => none
  | .error st => some st

/-- A command runs on the last channel. -/
theorem onChannel (c : Channel) (op : Nat) (h : c.done = false) (k : (stairCmd c.cmd).op = op) :
    OnChannel (busy c) (255 : StairCh) op c :=
  ⟨by simp [busy, look], h, k, rfl⟩

/-- StairTransfers: a copy from the requester's memory whose bytes came and one that came short, a copy and a zero that have
read their source, each page command, a PERSIST and a room that a migration does not touch, and a TIER 2 room. -/
theorem witness_StairTransfers :
    (let c := chan (cmd 1 1 0 0 0 64 0 1 0);
      let d := stairCmd c.cmd;
      d.op = 1 ∧ c.loaded = false ∧ { c with loaded := true }.loaded = true ∧
      (busy c).stairReadHeld c.ring d.sspace d.sid d.src d.len = false ∧
      failure ((busy c).stairRead c.ring d.sspace d.sid d.src d.len (List.replicate 64 0)) = none ∧
      failure ((busy c).stairRead c.ring d.sspace d.sid d.src d.len []) = some 0x17) ∧
    (stairCmd (cmd 2 0 0 0 0 64 0 1 0)).op = 2 ∧
    (∀ op ∈ [3, 4, 5, 6, 7], let c := chan (cmd op 0 0 0 28672 4096 0 1 0);
      let d := stairCmd c.cmd;
      d.op = op ∧ (busy c).rangeBusy d.did (d.dst / 4096) (d.len / 4096) = false ∧ (busy c).tier2 d.did = false) ∧
    (let c := chan (cmd 8 0 0 0 0 0 0 0 0); (stairCmd c.cmd).op = 8 ∧ (busy c).earlierBusy c = false) ∧
    (∀ op ∈ [5, 6], let c := chan (cmd op 0 0 0 28672 4096 0 1 0);
      let s : State := { busy c with rooms := [(1, room { roomCfg with tier := 2 })] };
      s.tier2 (stairCmd c.cmd).did = true ∧ look s.rg.chans (255 : StairCh) = some c ∧
      s.channelRuns (255 : StairCh) = true) := by decide +kernel

/-- StairMigration: a range opened and one closed, a round with the link up and one without, and a room that is absent. -/
theorem witness_StairMigration :
    (∀ arg ∈ [0, 2 ^ 16], let c := chan (cmd 10 0 0 0 28672 4096 0 1 arg);
      let d := stairCmd c.cmd;
      d.op = 10 ∧ (busy c).reachable c.ring d.did (d.dst / 4096) (d.len / 4096) = d.len / 4096 ∧
      d.arg0.testBit 16 = decide (arg = 2 ^ 16)) ∧
    (let c := chan (cmd 9 0 2 28672 0 4096 1 2 0);
      let d := stairCmd c.cmd;
      d.op = 9 ∧ (busy c).room d.sid = some (room roomCfg) ∧
      (busy c).reachable c.ring d.sid (d.src / 4096) (d.len / 4096) = d.len / 4096 ∧ (busy c).hp.link = .l0 ∧
      ({ busy c with hp := { (busy c).hp with link := .recovery } } : State).hp.link ≠ .l0) ∧
    (let c := chan (cmd 9 0 2 28672 0 4096 2 2 0); (busy c).room (stairCmd c.cmd).sid = none) := by decide +kernel

/-- A program of one instruction on the last channel: base 0 is the requester's memory, base 1 is room 1. -/
def prog (w : StairWord) : Channel :=
  { chan (cmd 11 1 0 0 0 1 0 0 0) with
    bases := [{ addr := 0, run := 0, space := 1, id := 0, limit := 1 }, { addr := 0, run := 0, space := 0, id := 1, limit := 1 }]
    program := [w] }

/-- MOVE of 64 bytes from base 0 to base 1 (R399). -/
def moveWord : StairWord := BitVec.ofNat 128 (1 + 0 * 2 ^ 8 + 1 * 2 ^ 10 + 64 * 2 ^ 92)

/-- MOVE2D of one row of 64 bytes. -/
def move2dWord : StairWord := BitVec.ofNat 128 (2 + 1 * 2 ^ 10 + 64 * 2 ^ 68 + 1 * 2 ^ 82)

/-- FILL of base 1. -/
def fillWord : StairWord := BitVec.ofNat 128 (3 + 1 * 2 ^ 10 + 64 * 2 ^ 52)

/-- LOOP back to instruction 0, once. -/
def loopWord : StairWord := BitVec.ofNat 128 (4 + 1 * 2 ^ 22)

/-- StairPrograms: a program fetched from the requester's memory, and each instruction, before its source is read and
after, inside its bases and past them, at the last turn of a loop and before it. -/
theorem witness_StairPrograms :
    (let c := chan (cmd 11 1 0 0 0 1 0 0 0);
      let d := stairCmd c.cmd;
      d.op = 11 ∧ c.program = [] ∧ (busy c).stairReadHeld c.ring d.sspace d.sid d.src (64 + 16 * d.len) = false ∧
      failure ((busy c).programWords c.ring d [0, 0, 0, 0] [moveWord]) = none ∧
      ((([0, 0, 0, 0] ++ [moveWord]).take 4).filterMap baseOf).length = 4) ∧
    (let c := prog moveWord;
      (stairCmd c.cmd).op = 11 ∧ c.instr = some (.move 0 1 0 0 64) ∧ c.loaded = false ∧
      failure (c.access 0 0 64) = none ∧ failure (c.access 1 0 64) = none ∧
      (busy c).stairReadHeld c.ring 1 0 0 64 = false ∧
      failure ((busy c).stairRead c.ring 1 0 0 64 (List.replicate 64 0)) = none ∧
      failure (c.access 0 4033 64) = some 0x14) ∧
    (let c := prog move2dWord;
      c.instr = some (.move2d 0 1 0 0 64 1 0 0) ∧
      (match c.access 0 0 64 with
        | .ok (x, a) => (busy c).stairReadHeld c.ring x.space x.id a 64
        | .error _ => true) = false ∧
      failure ((busy c).rows c 0 1 0 0 64 0 0 (List.replicate 64 0) (List.range 1)) = none ∧
      failure ((busy c).rows c 0 1 0 0 64 0 0 [] (List.range 1)) = some 0x17) ∧
    ((prog fillWord).instr = some (.fill 1 0 64 0)) ∧
    (let c := prog loopWord;
      c.instr = some (.loop 0 0 1 0 0 0 0) ∧ (look c.loops 0).getD 1 ≠ 0 ∧ (look [(0, 0)] 0).getD 1 = 0) := by decide +kernel

/-- WAIT of a kind for VALUE 1, with a timeout. -/
def waitWord (kind : Nat) : StairWord := BitVec.ofNat 128 (5 + kind * 2 ^ 8 + 1 * 2 ^ 16 + 1 * 2 ^ 80)

/-- SIGNAL of a kind. -/
def signalWord (kind : Nat) : StairWord := BitVec.ofNat 128 (6 + kind * 2 ^ 8 + 1 * 2 ^ 16)

/-- PERSIST. -/
def persistWord : StairWord := BitVec.ofNat 128 7

/-- StairWaits: a wait for an event flag and one for a semaphore, there and not there; a wait for a beat that has come, one
that has not and one that goes on; and each signal. -/
theorem witness_StairWaits :
    (∀ kind ∈ [0, 3], (prog (waitWord kind)).instr = some (.wait kind 0 1 1) ∧ (255 : StairCh).val ∉ full.rg.waiters ∧
      full.rg.waiters = [] ∧ (busy (prog (waitWord kind))).waitMet 0 (kind, 0, 1) = false) ∧
    (let s : State := { busy (prog (waitWord 0)) with rg := { (busy (prog (waitWord 0))).rg with events := [(0, 1)], sems := [(0, 1)] } };
      s.waitMet 0 (0, 0, 1) = true ∧ s.waitMet 0 (3, 0, 1) = true) ∧
    (let c := prog (waitWord 1);
      c.instr = some (.wait 1 0 1 1) ∧ c.waitBeat = none ∧ (busy c).beat < 1 ∧
      1 ≤ ((busy c).setReg .PRC_RT_BEAT 0 1).beat ∧ { c with waitBeat := some 0 }.waitBeat = some 0 ∧ 0 ≤ (busy c).beat) ∧
    (∀ kind ∈ [0, 1, 2, 3], (prog (signalWord kind)).instr = some (.signal kind 0 1) ∧
      ((busy (prog (signalWord kind))).ctx 0).waiting.length < 8) ∧
    (prog persistWord).instr = some .persist := by decide +kernel

/-- StairInterruptions and ChannelEnds: a wing that is reached, a command that waits on an answer, and a write its requester may
not make. -/
theorem witness_StairInterruptions :
    (full.pw.dev.hallOn = true ∧ full.wingReached ((0 : StairCh).val / 32) = true) ∧
    (let c := { chan (cmd 1 1 0 0 0 64 0 1 0) with loaded := false };
      look (busy c).rg.chans (255 : StairCh) = some c ∧ c.done = false ∧ c.timeoutStatus = some 0x17) ∧
    (let w : StairWrite := { space := 0, id := 2, addr := 0, data := 0, mask := 1, poison := false };
      let c := { chan (cmd 2 0 0 0 0 64 0 2 0) with loaded := true, todo := [w] };
      look (busy c).rg.chans (255 : StairCh) = some c ∧ c.todo = w :: [] ∧ w.space = 0 ∧
      (busy c).stairMay c.ring w.id w.addr = false) := by
  decide +kernel

/-- The table of channels with one command is canonical. -/
theorem sorted_busy (c : Channel) : SortedKeys (busy c).rg.chans := by
  show SortedKeys [(255, c)]
  simp [SortedKeys]

/-- A device with a session to member 3, its manager, whose term is 1. -/
def member (role : Nat) : State :=
  { (((full.setReg .LND_STATE_ROLE 0 role).setReg .LND_STATE_INDEX 0 2).setReg .LND_TERM 0 1) with
    pl := { full.pl with sessions := [3], manager := 3 } }

/-- A request of member 3 to it, at a term. -/
def hdr (term : Word) : Hdr := { version := 1, poolId := 0, term := term, src := 3, dst := 2, seq := 0 }

/-- Requests of that member pass at the term the device has seen and at a higher one. -/
theorem landingPasses : LandingPasses (member 2) (hdr 1) ∧ LandingPasses (member 2) (hdr 2) ∧ LandingPasses (member 0) (hdr 1) ∧
    LandingPasses (member 1) (hdr 1) := by
  refine ⟨?_, ?_, ?_, ?_⟩
  all_goals refine ⟨by decide +kernel, nofun, by decide +kernel, by decide +kernel, by decide +kernel⟩

/-- A migration of room 1 from member 3 to the device. -/
def mig (source : Bool) (step rounds : Nat) : Migration :=
  { room := 1, source := source, peer := 3, step := step, rounds := rounds, failed := false }

/-- LandingCommands: an amendment's chunk, a member and a manager, a migration to the device and one from it. -/
theorem witness_LandingCommands :
    ((member 2).taken (hdr 1)).poolLost = false ∧ ((member 2).taken (hdr 1)).role ≠ 0 ∧
    (∃ u type status body, ((member 2).taken (hdr 1)).chunk (hdr 1) 0 [] = (u, some (type, status, body))) ∧
    ((member 2).taken (hdr 1)).pl.mig = none ∧
    (let s : State := { member 2 with pl := { (member 2).pl with mig := some (mig false 2 0) } };
      (s.taken (hdr 1)).pl.mig = some (mig false 2 0) ∧ (mig false 2 0).room = (1 : RoomNo).val ∧
      (mig false 2 0).peer = (hdr 1).src) := by
  refine ⟨by decide +kernel, by decide +kernel, ⟨_, _, _, _, rfl⟩, by decide +kernel, by decide +kernel⟩

/-- A key slot with a key. -/
def keyed : KeySlot := { key := 1, floor := 0, high := 0, changed := false, origin := 2 }

/-- ManagerCommands: a request of the manager, a migration to this device and one from it, the standby, and key slots that
are empty, loaded and in use. -/
theorem witness_ManagerCommands :
    (hdr 1).src = ((member 2).taken (hdr 1)).pl.manager ∧ ((member 2).taken (hdr 1)).pl.mig = none ∧
    ((member 2).taken (hdr 1)).index = 2 ∧ ((member 1).taken (hdr 1)).role = 1 ∧
    (look ((member 2).taken (hdr 1)).lk.slots (4095 : Fin 4096) = none ∧
      ∀ r ∈ ((member 2).taken (hdr 1)).roomsOfSlot (4095 : Fin 4096), ((member 2).taken (hdr 1)).anyBacked r = false) ∧
    (let s : State := { member 2 with
        lk := { (member 2).lk with slots := [(0, keyed), (4095, keyed)] }
        pl := { (member 2).pl with escrowKey := some 7 } };
      look (s.taken (hdr 1)).lk.slots (4095 : Fin 4096) = some keyed ∧ (s.taken (hdr 1)).pl.escrowKey = some 7 ∧
      (s.taken (hdr 1)).roomsOfSlot (4095 : Fin 4096) = [] ∧ (s.taken (hdr 1)).roomsOfSlot (0 : Fin 4096) ≠ []) := by
  decide +kernel

/-- An answer to sequence number 0. -/
def answer : Answered := { seq := 0, type := 8, status := 0, body := [] }

/-- LandingRefusals: no session, an answer kept, and a lower term. -/
theorem witness_LandingRefusals :
    full.landingReaches (hdr 1) = false ∧
    (let s : State := { member 2 with pl := { (member 2).pl with answered := [(3, [answer])] } };
      s.landingReaches (hdr 1) = true ∧ lookD s.pl.answered (hdr 1).src [] = answer :: [] ∧ answer.seq = (hdr 1).seq) ∧
    ((member 2).landingReaches (hdr 0) = true ∧ lookD (member 2).pl.answered (hdr 0).src [] = [] ∧
      olderSeq (hdr 0).seq [] = false ∧ ((member 2).plan.isSome = true → (hdr 0).poolId.toNat = (member 2).pl.poolId) ∧
      (hdr 0).term.toNat < (member 2).term) := by decide +kernel

/-- A request to member 3 without its response. -/
def request (type resends : Nat) : Outstanding :=
  { peer := 3, seq := 0, type := type, resends := resends, i3c := false, last := true, body := [], asker := none, rooms := [] }

/-- LandingEvents: the beats at which each role sends its heartbeat, a heartbeat missed at its time for the second and for
the third time, a session that fails and one that stands, a higher term, a request resent for the third time, and an
amendment's result. -/
theorem witness_LandingEvents :
    ((member 0).role = 0 ∧ (member 0).beat % 64 = 0) ∧
    ((member 2).role ≠ 0 ∧ ((member 2).setReg .PRC_RT_BEAT 0 32).beat % 64 = 32) ∧
    (∀ n ∈ [1, 2], let s : State := { (member 2).setReg .PRC_RT_BEAT 0 (72 + 64 * n) with
        pl := { (member 2).pl with lastHeard := [(3, 0)], missed := [(3, n)] } };
      look s.pl.lastHeard 3 = some 0 ∧ 0 + 72 + 64 * s.missedOf 3 ≤ s.beat ∧ (s.missedOf 3 = 2 ↔ n = 2)) ∧
    ((true && true && false) = false) ∧
    (let s := member 2; let t := s.count 321 1;
      s.landingReaches (hdr 1) = true ∧ (1 : Word).toNat ≤ t.term ∧ t.term < (2 : Word).toNat) ∧
    (let s : State := { member 2 with pl := { (member 2).pl with outstanding := [request 8 2] } };
      s.pl.outstanding = request 8 2 :: [] ∧ (request 8 2).peer = 3 ∧ (request 8 2).seq = 0 ∧ (request 8 2).resends < 3) ∧
    (let s : State := { member 0 with pl := { (member 0).pl with outstanding := [request 3 0] } };
      (s.landingReply (hdr 1) 0x03).2 = some (request 3 0)) := by decide +kernel

/-- LandingEvents, the migration: a round that is over in each step, written just within and just past what a freeze holds,
the last round and the one before, and a freeze that runs out. -/
theorem witness_MigrationRounds :
    (∀ step ∈ [2, 3], let s : State := { full with pl := { full.pl with mig := some (mig true step 0) } };
      s.pl.mig = some (mig true step 0) ∧ (mig true step 0).source = true ∧ s.pw.dev = .serving ∧ s.internalOver = true ∧
      (mig true step 0).failed = false) ∧
    (let s := (full.setReg .LND_CTRL_FREEZE_MS 0 9).setReg .LND_CTRL_MAX_ROUNDS 0 4;
      90 ≤ 10 * max 1 (min 9 (s.reg .LND_CTRL_FREEZE_MS 0)) ∧ 10 * max 1 (min 9 (s.reg .LND_CTRL_FREEZE_MS 0)) < 91 ∧
      max 1 (s.reg .LND_CTRL_MAX_ROUNDS 0) ≤ (mig true 2 4).rounds ∧ (mig true 2 3).rounds < max 1 (s.reg .LND_CTRL_MAX_ROUNDS 0)) ∧
    (let s : State := { full with
        pl := { full.pl with mig := some (mig true 3 0) }
        rg := { full.rg with fetched := [{ ring := internalRing, index := 0, cmd := 0, started := false }] } };
      s.internalOver = false ∧ (mig true 3 0).step = 3) := by decide +kernel

/-- The device manages its pool. -/
theorem mayManage_full : MayManage full boss := ⟨mayCommand_full, by decide +kernel⟩

/-- A room of the pool directory. -/
def dirRoom : DirRoom := { device := 0, room := 1, size := 2 ^ 30, cls := 0, step := 0, target := 0, acl := [5] }

/-- PoolCommands: an amendment for itself and for a member, within the quotas and over one, a room to migrate to a member it
reaches, an evacuation, the nearest beat of a snapshot, a device that is no manager, and an extent to release. -/
theorem witness_PoolCommands :
    (full.overQuota ((roomsIn full.part []).foldl (dirApply 0) full.poolRooms) = false ∧ full.pl.evacuating = none ∧
      0 = full.index ∧ 1 ≠ full.index) ∧
    (let s : State := { full with pl := { full.pl with directory := [{ dirRoom with device := 9 }], quotas := [(5, 2 ^ 30 - 1)] } };
      s.overQuota ((roomsIn s.part []).foldl (dirApply 0) s.poolRooms) = true) ∧
    (let s : State := { full with
        plan := some { plan with rooms := [roomCfg] }
        pl := { full.pl with directory := [dirRoom], sessions := [3] } };
      (s.poolRooms.any fun d => d.device == 3 && d.room == (1 : RoomNo).val) = false ∧ s.reaches 3 = true ∧
      (s.poolRooms.find? fun d => d.device == 0 && d.room == (1 : RoomNo).val).map DirRoom.step = some 0) ∧
    (full.beat + 256 ≤ (256 : Word).toNat) ∧ (member 2).isManager = false ∧
    (let e : Extent := { requester := 0, room := 1, region := 0, base := 0, size := 2 ^ 30 };
      full.hp.extents = e :: [] ∧ e.requester = full.requesterOf (0 : Requester) ∧ e.room = (1 : RoomNo).val ∧
      e.region = (0 : Fin 8).val ∧ e.part 0 (2 ^ 30) = true ∧
      full.extentsOf (full.requesterOf (0 : Requester)) - 1 + (e.rest 0 (2 ^ 30)).length ≤ 256) := by decide +kernel

/-- A wing without power cannot be reached. -/
def dark : State := full.setReg .FBX_PD_ON 0 0

/-- RegisterAccesses: a register of the Hall, one of a wing without power, an offset with none, and accesses of 2 bytes and out
of line. -/
theorem witness_RegisterAccesses :
    (placeOf 0 = some ⟨.hallState, 0, 0, 0⟩ ∧ full.unreached ⟨.hallState, 0, 0, 0⟩ = false ∧
      ∀ x ∈ (⟨.hallState, 0, 0, 0⟩ : RegPlace).fields, ownRead x.1 = false) ∧
    (placeOf 0x1000000 = some ⟨.wing, 0, 0, 0⟩ ∧ dark.unreached ⟨.wing, 0, 0, 0⟩ = true ∧
      ∀ x ∈ (⟨.wing, 0, 0, 0⟩ : RegPlace).fields, ownRead x.1 = false) ∧
    (0x8FFFFF8 % 8 = 0 ∧ placeOf 0x8FFFFF8 = none ∧ 0x8FFFFF8 < 0x9000000) ∧
    ((2 ≠ 4 ∧ 2 ≠ 8) ∧ 4 % 8 ≠ 0) := by decide +kernel

/-- RegisterRefusals: a requester that is no management requester, over each path; a page of counters it may not read; and
the Porch with the Hall on and off. -/
theorem witness_RegisterRefusals :
    (on.pw.dev.hallOn = true ∧ on.hp.behind = [] ∧ on.isManagement (on.requesterOf (0 : Requester)) = false ∧
      on.fl.stalled = [] ∧ on.cb.waiting = []) ∧
    (let s : State := { on with rooms := [(1, room { roomCfg with attr := 0x18 }), (4095, room roomCfg)] };
      s.room (0x1FFE000 / 0x2000) = some (room roomCfg) ∧ roomCfg.counterAccess = false ∧
      s.isManagement (s.requesterOf (0 : Requester)) = false) ∧
    (let c := { roomCfg with attr := 8, acl := [1] }; c.counterAccess = true ∧ c.admits 0 = false) ∧
    on.porchAnswers = false ∧
    (off.porchAnswers = true ∧ placeOf (0x24000 / 8 * 8) = some ⟨.fbx, 0, 0, 0⟩ ∧
      (⟨.fbx, 0, 0, 0⟩ : RegPlace).porch = true ∧ (⟨.fbx, 0, 0, 0⟩ : RegPlace).block ≠ .prcRt) := by decide +kernel

/-- RegisterQuadrants: a register whose RW fields are only stored, at its first and its last quadrant. -/
theorem witness_RegisterQuadrants :
    0x24000 % 8 = 0 ∧ 0x24000 % 0x4000 < 0x1000 ∧ (∃ p, placeOf 0x4A000 = some p) ∧
    (let p : RegPlace := ⟨.hallQos, 0, 0, 0⟩;
      placeOf 0xC000 = some p ∧ p.block ≠ .msixDest ∧ p.block ≠ .roomWin ∧ full.unreached p = false ∧
      (∀ x ∈ p.fields, ownRead x.1 = false) ∧
      (∀ x ∈ p.fields, x.1.desc.type ≠ .wo ∧ (x.1.desc.type = .rw → ownWrite x.1 = false)) ∧
      p.fields.any (fun x => x.1.desc.type == .rw) = true) := by
  refine ⟨by decide, by decide, ⟨_, rfl⟩, by decide +kernel⟩

/-- CounterPreset: the first and the last counter of a wing's window, not shadowed. -/
theorem witness_CounterPreset :
    full.pw.dev.hallOn = true ∧ full.windowShadow none = false ∧ full.windowCounter none (0 : Fin 128).val = some 0 ∧
    counterListed 0 = true ∧
    (let s := full.setReg .PMC_SEL_BANK 8 5;
      s.windowShadow (some 7) = false ∧ s.windowCounter (some 7) (98 : Fin 128).val = some (512 + 768 * 7 + 738) ∧
      counterListed (512 + 768 * 7 + 738) = true) ∧ full.flag .PMC_CTRL_FREEZE 0 = false := by decide +kernel

/-- ImageBytes: a canonical flash, the slot that is not active, and its erase in progress. -/
theorem witness_ImageBytes :
    FlashOk updating.flash.cells ∧ MayCommand updating boss ∧ updating.flash.target = some 1 ∧ updating.flash.erased = true ∧
    updating.reg .HALL_FP_STATUS_ACTIVE 0 ≠ 1 + 1 := by
  refine ⟨⟨trivial, nofun⟩, ⟨by decide +kernel, .inr (by decide +kernel)⟩, rfl, rfl, by decide +kernel⟩

/-- Frames: a command of each group answers a next state. -/
theorem witness_Frames :
    (∃ t, exec .snapNow full = .next t) ∧ (∃ t, exec .rearm full = .next t) ∧ (∃ t, exec .viral full = .next t) ∧
    (∃ t, exec (.ringStart 0 0 0) full = .next t) ∧ (∃ t, exec (.monitorConversion 0 0) full = .next t) := by
  refine ⟨?_, ?_, ?_, ?_, ?_⟩
  · show ∃ t, execSnapNow full = .next t
    unfold execSnapNow; exact ⟨_, rfl⟩
  · show ∃ t, execRearm full = .next t
    unfold execRearm; split <;> exact ⟨_, rfl⟩
  · show ∃ t, execViral full = .next t
    unfold execViral; split <;> exact ⟨_, rfl⟩
  · show ∃ t, execRingStart 0 0 0 full = .next t
    unfold execRingStart; exact ⟨_, rfl⟩
  · show ∃ t, execMonitorConversion 0 0 full = .next t
    unfold execMonitorConversion; split <;> exact ⟨_, rfl⟩

/-- StepRunsFront: an empty queue. -/
theorem witness_StepRunsFront : State.reset.pending = [] := rfl

theorem page_ne_blank : page ≠ Page.blank := fun e => absurd (congrArg Page.tier e) (by decide)

/-- StepKeepsCanonical and StepKeepsHistory: a step of the full device, which is canonical. -/
theorem witness_StepKeepsCanonical :
    RegsOk full.regs ∧ MemoryOk full ∧ ∃ t, step { full with pending := [.snapNow] } = .next t := by
  have one : ∀ {α : Type} (k : Nat) (v : α), SortedKeys [(k, v)] := fun k v => by simp [SortedKeys]
  have pages : full.ti.pages = [(pageKey 1 7, page)] := rfl
  have frames : full.md.frames = [((⟨0, 0, 0, 5⟩ : FrameAddr).key, frame 2)] := rfl
  have cupboard : full.cb.pages = [] := rfl
  have flash : full.flash.cells = [] := rfl
  have pantry : full.ti.pantry = [] := rfl
  refine ⟨regsOk_full, ⟨?_, ?_, ?_, ?_, ?_⟩, ?_⟩
  · rw [pages]
    exact ⟨one _ _, fun p h => by
      rw [List.mem_singleton.1 h]
      exact page_ne_blank⟩
  · rw [pantry]; trivial
  · rw [frames]; exact one _ _
  · rw [cupboard]; exact ⟨trivial, fun p h => absurd h (by simp)⟩
  · rw [flash]; exact ⟨trivial, nofun⟩
  · show ∃ t, execSnapNow { full with pending := [] } = .next t
    unfold execSnapNow; exact ⟨_, rfl⟩

end Sys2Proof.Tests
end

section
/-! PROOF. The scope's statements: every step keeps the canonical forms (O58), what an access of a register over BAR0
does (O48), and the four quadrants of a register block (O50). -/

namespace Sys2Proof.Machine

/-! ### The canonical forms (O58) -/

/-- What an operation keeps includes the canonical forms of the register table and of the memories. -/
theorem Keeps.canonical {s t : State} (h : Keeps s t) (hr : RegsOk s.regs) (hm : MemoryOk s) :
    RegsOk t.regs ∧ MemoryOk t :=
  ⟨h.regs hr, h.pages hm.pages, h.pantry hm.pantry, h.frames hm.frames, h.cupboard hm.cupboard, h.flash hm.flash⟩

/-- A step idles on an empty queue, or runs the command at the front with the queue's rest. -/
theorem step_cases {s t : State} (h : step s = .next t) :
    (s.pending = [] ∧ t = s) ∨
      ∃ c rest, s.pending = c :: rest ∧ exec c { s with pending := rest } = .next t := by
  unfold step at h
  cases hq : s.pending with
  | nil =>
    rw [hq] at h
    injection h with h
    exact .inl ⟨rfl, h.symm⟩
  | cons c rest =>
    rw [hq] at h
    exact .inr ⟨c, rest, rfl, h⟩

/-- The memories do not include the queue. -/
theorem memoryOk_pending {s : State} (h : MemoryOk s) (rest : List Instr) : MemoryOk { s with pending := rest } :=
  ⟨h.pages, h.pantry, h.frames, h.cupboard, h.flash⟩

/-- Settles O58: an idle step changes nothing, and any other one is a command, each of which keeps the canonical
forms. -/
theorem stepKeepsCanonical : Obligations.StepKeepsCanonical := by
  intro s t hr hm h
  obtain ⟨-, rfl⟩ | ⟨c, rest, -, h⟩ := step_cases h
  · exact ⟨hr, hm⟩
  · exact (KeepsR.exec c _ t h).canonical hr (memoryOk_pending hm rest)

/-! ### Accesses over BAR0 (R4, R543, R544, R547) -/

/-- Whether a register is reached does not depend on the latches. -/
theorem unreached_unlatch (s : State) (a : Access) (p : RegPlace) : (s.unlatch a).unreached p = s.unreached p := rfl

/-- The register that the offset of an aligned access names. -/
theorem aligned_place {o : Nat} (h : o % 8 = 0) : o / 8 * 8 = o := by omega

/-- A read of a register without rules of its own delivers its value. -/
theorem bar0_read_plain (s : State) (a : Access) (ho : a.offset % 8 = 0) (hh : a.half ≠ .high) {p : RegPlace}
    (hp : placeOf a.offset = some p) (hr : s.unreached p = false) (hf : ∀ x ∈ p.fields, ownRead x.1 = false) :
    s.readBar0 a = (s.unlatch a).deliver a.requester a.offset a.half ((s.unlatch a).regValue p) :=
  (bar0_read a ho hh hp).trans (place_plain _ a _ p ((unreached_unlatch s a p).trans hr) hf)

/-- A read of a block that cannot be reached delivers zero. -/
theorem bar0_read_unreached (s : State) (a : Access) (ho : a.offset % 8 = 0) (hh : a.half ≠ .high) {p : RegPlace}
    (hp : placeOf a.offset = some p) (hr : s.unreached p = true) (hf : ∀ x ∈ p.fields, ownRead x.1 = false) :
    s.readBar0 a = (s.unlatch a).deliver a.requester a.offset a.half 0 :=
  (bar0_read a ho hh hp).trans (place_gone _ a _ p ((unreached_unlatch s a p).trans hr) hf)

/-- A write reaches the register its offset names. -/
theorem bar0_write (s : State) (a : Access) (v : Word) (ho : a.offset % 8 = 0) {p : RegPlace}
    (hp : placeOf a.offset = some p) (hr : s.unreached p = false) :
    s.writeBar0 a v = (s.unlatch a).writeReg a.requester p a.lanes (a.spread v) := by
  unfold State.writeBar0
  dsimp only
  rw [aligned_place ho, hp]
  exact if_neg (by simp [unreached_unlatch, hr])

/-- A write to a block that cannot be reached changes no register. -/
theorem bar0_write_unreached (s : State) (a : Access) (v : Word) (ho : a.offset % 8 = 0) {p : RegPlace}
    (hp : placeOf a.offset = some p) (hr : s.unreached p = true) : s.writeBar0 a v = s.unlatch a := by
  unfold State.writeBar0
  dsimp only
  rw [aligned_place ho, hp]
  exact if_pos hr

/-- A write to no register, below the MSI-X table, changes nothing. -/
theorem bar0_write_none (s : State) (a : Access) (v : Word) (ho : a.offset % 8 = 0) (hp : placeOf a.offset = none)
    (hl : a.offset < 0x9000000) : s.writeBar0 a v = s.unlatch a := by
  unfold State.writeBar0
  dsimp only
  rw [aligned_place ho, hp]
  exact if_neg (by simp; omega)

/-- A 64-bit access covers the whole register. -/
theorem lanes_all {a : Access} (h : a.half = .all) : a.lanes = BitVec.allOnes 64 := by
  unfold Access.lanes; rw [h]

/-- An access of the low half covers its 32 bits. -/
theorem lanes_low {a : Access} (h : a.half = .low) : a.lanes = 0xFFFFFFFF#64 := by
  unfold Access.lanes; rw [h]

/-- The value of a 64-bit access is written as it comes. -/
theorem spread_all {a : Access} (h : a.half = .all) (v : Word) : a.spread v = v := by
  unfold Access.spread; rw [lanes_all h, h]; exact BitVec.and_allOnes

/-- The value of an access of the low half is cut to its 32 bits. -/
theorem spread_low {a : Access} (h : a.half = .low) (v : Word) : a.spread v = v &&& 0xFFFFFFFF#64 := by
  unfold Access.spread; rw [lanes_low h, h]

/-- A read of a width or an alignment that registers do not have gives all ones (R4; log entry 69). -/
theorem read_odd {s : State} {a : Access} (hp : a.path = .bar0) (hm : s.isManagement a.requester = true)
    (h : a.odd = true) : s.read a = s.send (.regData a.requester a.offset (BitVec.allOnes 64)) := by
  unfold State.read
  rw [hp]
  dsimp only
  rw [if_neg (by simp [hm]), if_pos h]

/-- A write of a width or an alignment that registers do not have is ignored (R4; log entry 69). -/
theorem write_odd {s : State} {a : Access} (hp : a.path = .bar0) (hm : s.isManagement a.requester = true)
    (h : a.odd = true) (v : Word) : s.write a v = s := by
  unfold State.write
  rw [hp]
  dsimp only
  rw [if_neg (by simp [hm]), if_pos h]

/-- An access is odd when its width is neither 4 nor 8, or its offset is no multiple of it. -/
theorem odd_iff (a : Access) : a.odd = true ↔ (a.width ≠ 4 ∧ a.width ≠ 8) ∨ a.offset % a.width ≠ 0 := by
  simp [Access.odd]

section
variable {s : State} {r : Requester} {offset : Nat} (h : MayAccess s r)
include h

/-- REGISTER_READ of a register without rules of its own: 64 bits give its value. -/
theorem exec_read_reg8 (ho : offset % 8 = 0) {p : RegPlace} (hp : placeOf offset = some p)
    (hr : s.unreached p = false) (hf : ∀ x ∈ p.fields, ownRead x.1 = false) (a b : Bool) :
    exec (.registerRead .bar0 r offset 8 a b) s = .next ((s.unlatched r offset).send
      (.regData (s.requesterOf r) offset ((s.unlatched r offset).regValue p))) := by
  rw [exec_read h _ _ _ _ (.inr rfl) ho, bar0_read_plain _ _ ho (by simp [half8]) hp hr hf, half8]
  rfl

/-- REGISTER_READ of a register without rules of its own: the low 32 bits, and the high ones to the latch (R547). -/
theorem exec_read_reg4 (ho : offset % 8 = 0) {p : RegPlace} (hp : placeOf offset = some p)
    (hr : s.unreached p = false) (hf : ∀ x ∈ p.fields, ownRead x.1 = false) (a b : Bool) :
    let u := s.unlatched r offset
    exec (.registerRead .bar0 r offset 4 a b) s =
      .next (({ u with hp := { u.hp with
        highLatch := put u.hp.highLatch (s.requesterOf r * 2 ^ 20 + offset / 2 ^ 14) (offset, u.regValue p >>> 32) } } :
          State).send (.regData (s.requesterOf r) offset (u.regValue p &&& 0xFFFFFFFF#64))) := by
  rw [exec_read h _ _ _ _ (.inl rfl) ho, bar0_read_plain _ _ ho (by simp [half4 _ _ _ _ _ ho]) hp hr hf,
    half4 _ _ _ _ _ ho]
  rfl

/-- REGISTER_READ of a block that cannot be reached gives zero (R544). -/
theorem exec_read_unreached (ho : offset % 8 = 0) {p : RegPlace} (hp : placeOf offset = some p)
    (hr : s.unreached p = true) (hf : ∀ x ∈ p.fields, ownRead x.1 = false) (a b : Bool) :
    exec (.registerRead .bar0 r offset 8 a b) s =
      .next ((s.unlatched r offset).send (.regData (s.requesterOf r) offset 0)) := by
  rw [exec_read h _ _ _ _ (.inr rfl) ho, bar0_read_unreached _ _ ho (by simp [half8]) hp hr hf, half8]
  rfl

/-- REGISTER_READ of no register gives zero (R542). -/
theorem exec_read_none (ho : offset % 8 = 0) (hp : placeOf offset = none) (hl : offset < 0x9000000) (a b : Bool) :
    exec (.registerRead .bar0 r offset 8 a b) s =
      .next ((s.unlatched r offset).send (.regData (s.requesterOf r) offset 0)) := by
  rw [exec_read h _ _ _ _ (.inr rfl) ho, bar0_read_none _ ho (by simp [half8]) hp hl, half8]
  rfl

/-- REGISTER_WRITE of 64 bits writes the whole register. -/
theorem exec_write_reg8 (ho : offset % 8 = 0) {p : RegPlace} (hp : placeOf offset = some p)
    (hr : s.unreached p = false) (v : Word) :
    exec (.registerWrite .bar0 r offset 8 v) s =
      .next ((s.unlatched r offset).writeReg (s.requesterOf r) p (BitVec.allOnes 64) v) := by
  rw [write_run h _ _ _ (.inr rfl) ho, bar0_write _ _ _ ho hp hr, lanes_all (half8 ..), spread_all (half8 ..)]
  rfl

/-- REGISTER_WRITE of 32 bits writes the low half. -/
theorem exec_write_reg4 (ho : offset % 8 = 0) {p : RegPlace} (hp : placeOf offset = some p)
    (hr : s.unreached p = false) (v : Word) :
    exec (.registerWrite .bar0 r offset 4 v) s =
      .next ((s.unlatched r offset).writeReg (s.requesterOf r) p 0xFFFFFFFF#64 (v &&& 0xFFFFFFFF#64)) := by
  rw [write_run h _ _ _ (.inl rfl) ho, bar0_write _ _ _ ho hp hr, lanes_low (half4 _ _ _ _ _ ho),
    spread_low (half4 _ _ _ _ _ ho)]
  rfl

/-- An odd read gives all ones and leaves the latch of its block. -/
theorem exec_read_odd {width : Nat} (hw : (width ≠ 4 ∧ width ≠ 8) ∨ offset % width ≠ 0) (a b : Bool) :
    exec (.registerRead .bar0 r offset width a b) s =
      .next (s.send (.regData (s.requesterOf r) offset (BitVec.allOnes 64))) := by
  show execRegisterRead _ _ _ _ _ _ _ = _
  unfold execRegisterRead
  rw [access_run h]
  unfold State.accessNow
  dsimp only
  rw [read_odd rfl h.management ((odd_iff _).2 hw)]

/-- An odd write does nothing at all. -/
theorem exec_write_odd {width : Nat} (hw : (width ≠ 4 ∧ width ≠ 8) ∨ offset % width ≠ 0) (v : Word) :
    exec (.registerWrite .bar0 r offset width v) s = .next s := by
  show execRegisterWrite _ _ _ _ _ _ = _
  unfold execRegisterWrite
  rw [access_run h]
  unfold State.accessNow
  dsimp only
  rw [write_odd rfl h.management ((odd_iff _).2 hw)]

end

/-- Settles O48: clause by clause, from the lemma of each kind of access. -/
theorem registerAccesses : Obligations.RegisterAccesses := by
  intro s r offset within fetchOk v h q u
  refine ⟨fun ho p hp hr => ⟨fun hf => ⟨?_, ?_⟩, ?_, ?_⟩, fun ho p hp hr hf => ⟨?_, ?_⟩,
    fun ho hp hl => ⟨?_, ?_⟩, fun width hw => ⟨?_, ?_⟩⟩
  · exact exec_read_reg8 h ho hp hr hf within fetchOk
  · exact exec_read_reg4 h ho hp hr hf within fetchOk
  · exact exec_write_reg8 h ho hp hr v
  · exact exec_write_reg4 h ho hp hr v
  · exact exec_read_unreached h ho hp hr hf within fetchOk
  · rw [write_run h _ _ _ (.inr rfl) ho, bar0_write_unreached _ _ _ ho hp hr]
    rfl
  · exact exec_read_none h ho hp hl within fetchOk
  · rw [write_run h _ _ _ (.inr rfl) ho, bar0_write_none _ _ _ ho hp hl]
    rfl
  · exact exec_read_odd h hw within fetchOk
  · exact exec_write_odd h hw v

/-! ### Writes that only store (R5, R6, R7) -/

/-- What a write does to one field of a register whose write does no more than store: an RW field with a bit that the
write reaches takes its bits of the register's new value. -/
def storeField (reach new : Word) (s : State) (x : Fld × Nat) : State :=
  if x.1.desc.type = .rw ∧ reach &&& x.1.desc.mask ≠ 0 then s.setReg x.1 x.2 (x.1.desc.of new) else s

/-- No field of the register starts anything when it is written: none is WO, and the RW ones are only stored. -/
def OnlyStored (p : RegPlace) : Prop :=
  ∀ x ∈ p.fields, x.1.desc.type ≠ .wo ∧ (x.1.desc.type = .rw → ownWrite x.1 = false)

/-- A field's bits of a word fit the field. -/
theorem of_lt (d : FldDesc) (v : Word) : d.of v < 2 ^ d.width := Nat.mod_lt _ (by positivity)

section
variable (reach new : Word) {s : State} {x : Fld × Nat}

/-- Storing a field changes nothing but the register table. -/
theorem storeField_frame (s : State) (x : Fld × Nat) :
    storeField reach new s x = { s with regs := (storeField reach new s x).regs } := by
  unfold storeField
  split <;> rfl

theorem regsOk_storeField (h : RegsOk s.regs) : RegsOk (storeField reach new s x).regs := by
  unfold storeField
  split
  · exact regsOk_setReg _ _ _ h
  · exact h

/-- Storing a field that is not RW, or another one, leaves a field as it was. -/
theorem reg_storeField_other {f : Fld} {i : Nat} (h : x.1.desc.type = .rw → (f, i) ≠ x) :
    (storeField reach new s x).reg f i = s.reg f i := by
  unfold storeField
  split
  · next c => exact reg_setReg_other _ _ _ _ _ _ fun e => h c.1 (Prod.ext e.1 e.2)
  · rfl

/-- An RW field that a write reaches reads its bits of the new value; one that it does not reach, what it read
before. -/
theorem reg_storeField_same (h : RegsOk s.regs) (hx : x.1.desc.type = .rw) :
    (storeField reach new s x).reg x.1 x.2 =
      if reach &&& x.1.desc.mask = 0 then s.reg x.1 x.2 else x.1.desc.of new := by
  unfold storeField
  by_cases c : reach &&& x.1.desc.mask = 0
  · rw [if_neg fun k => k.2 c, if_pos c]
  · rw [if_pos ⟨hx, c⟩, if_neg c, reg_setReg_same _ _ _ _ h.1, Nat.mod_eq_of_lt (of_lt _ _)]

/-- Storing a register's fields changes nothing but the register table. -/
theorem storeFields_frame (l : List (Fld × Nat)) (s : State) :
    l.foldl (storeField reach new) s = { s with regs := (l.foldl (storeField reach new) s).regs } := by
  induction l generalizing s with
  | nil => rfl
  | cons x l ih =>
    rw [List.foldl_cons, ih, storeField_frame]

/-- Storing a register's fields leaves every field but the RW ones among them as it was. -/
theorem reg_storeFields_other {l : List (Fld × Nat)} {f : Fld} {i : Nat}
    (h : ∀ x ∈ l, x.1.desc.type = .rw → (f, i) ≠ x) (s : State) :
    (l.foldl (storeField reach new) s).reg f i = s.reg f i := by
  induction l generalizing s with
  | nil => rfl
  | cons y l ih =>
    rw [List.foldl_cons, ih fun x hx => h x (.tail _ hx), reg_storeField_other _ _ (h y (.head _))]

/-- Each RW field of a register is stored once. -/
theorem reg_storeFields_same {l : List (Fld × Nat)} (hl : l.Nodup) (h : RegsOk s.regs) (hx : x ∈ l)
    (ht : x.1.desc.type = .rw) : (l.foldl (storeField reach new) s).reg x.1 x.2 =
      if reach &&& x.1.desc.mask = 0 then s.reg x.1 x.2 else x.1.desc.of new := by
  induction l generalizing s with
  | nil => cases hx
  | cons y l ih =>
    obtain ⟨hy, hl⟩ := List.nodup_cons.1 hl
    rw [List.foldl_cons]
    rcases List.mem_cons.1 hx with rfl | hx
    · rw [reg_storeFields_other _ _ fun z hz _ (e : x = z) => hy (e ▸ hz), reg_storeField_same _ _ h ht]
    · rw [ih hl (regsOk_storeField _ _ h) hx, reg_storeField_other _ _ fun _ (e : x = y) => hy (e ▸ hx)]

end

/-- The command register of the tests has WO fields. -/
theorem bst_wo {p : RegPlace} (hb : p.block = .bst) (hr : p.rel = 0) : ∃ x ∈ p.fields, x.1.desc.type = .wo := by
  refine ⟨(.BST_CMD_TARGET, 0 + 1 * p.inst + 0), ?_, rfl⟩
  unfold RegPlace.fields
  rw [List.mem_filterMap, hb, hr]
  exact ⟨⟨.BST_CMD_TARGET, 0x000, 1, 8, 0⟩, by decide, rfl⟩

/-- The order in which a write takes the fields of a register: one that locks or enables comes last. -/
def writeOrder (x : Fld × Nat) : Nat := bit1 (x.1 == .HALL_HMB_CTRL_ENABLE || x.1 == .PRC_RES_CFG0_LOCK)

/-- A write of a register whose fields are only stored stores each of them, in some order. -/
theorem writeReg_onlyStored (s : State) (requester : Nat) {p : RegPlace} (h : OnlyStored p) (lanes value : Word) :
    let q := quadrant p.quad lanes value (s.regValue p)
    ∃ l : List (Fld × Nat), l.Perm p.fields ∧ s.writeReg requester p lanes value =
      l.foldl (storeField q.1 ((s.regValue p &&& ~~~q.1) ||| (q.2 &&& q.1))) s := by
  refine ⟨sortBy writeOrder p.fields, sortBy_perm _ _, ?_⟩
  have noRun : ¬ (p.block = .bst ∧ p.rel = 0) := fun ⟨hb, hr⟩ => by
    obtain ⟨x, hx, hw⟩ := bst_wo hb hr
    exact (h x hx).1 hw
  unfold State.writeReg
  dsimp only
  rw [if_neg (by simp; tauto)]
  refine List.foldl_ext _ _ _ fun t x hx => ?_
  obtain ⟨hwo, hrw⟩ := h x ((sortBy_perm _ _).mem_iff.1 hx)
  unfold storeField
  cases ht : x.1.desc.type with
  | wo => exact absurd ht hwo
  | rw =>
    rw [notIgnored _ _ _ (hrw ht), writeRw_plain _ _ _ _ _ (hrw ht)]
    simp
  | ro => simp
  | rwf => simp
  | rs => simp

/-- The value a quadrant gives a register that 64 bits are written to. -/
def quadValue (quad : Fin 4) (old v : Word) : Word :=
  match quad with | 0 => v | 1 => old ||| v | 2 => old &&& ~~~v | 3 => old ^^^ v

/-- Bits that a quadrant does not reach stay. -/
theorem unreached_bits (old : Word) (q : Word × Word) (j : Nat) (h : q.1.getLsbD j = false) :
    old.getLsbD j = ((old &&& ~~~q.1) ||| (q.2 &&& q.1)).getLsbD j := by
  rcases Nat.lt_or_ge j 64 with hj | hj
  · simp [-BitVec.getLsbD_eq_getElem, h, hj]
  · rw [BitVec.getLsbD_of_ge _ _ hj, BitVec.getLsbD_of_ge _ _ hj]

/-- An RW field that is only stored reads as its register shows it. -/
theorem reg_of_regValue {s : State} (h : RegsOk s.regs) {p : RegPlace} {x : Fld × Nat} (hx : x ∈ p.fields)
    (ht : x.1.desc.type = .rw) (hs : ownWrite x.1 = false) : s.reg x.1 x.2 = x.1.desc.of (s.regValue p) := by
  have notCounter : x.1 ≠ .PMC_WIN_VALUE := fun e => by simp [e, ownWrite] at hs
  rw [field_of_regValue s hx, show_stored s x.1 x.2 ht notCounter, Nat.mod_eq_of_lt (reg_lt _ _ h)]

/-- A write of 64 bits to a register whose fields are only stored: its RW fields take the bits the quadrant says. -/
theorem writeReg_quadrant {s : State} (hs : RegsOk s.regs) (requester : Nat) {p : RegPlace} (h : OnlyStored p)
    (quad : Fin 4) (v : Word) :
    let t := s.writeReg requester { p with quad := quad.val } (BitVec.allOnes 64) v
    t = { s with regs := t.regs } ∧
      (∀ x ∈ p.fields, x.1.desc.type = .rw → t.reg x.1 x.2 = x.1.desc.of (quadValue quad (s.regValue p) v)) ∧
      SameRegs (p.fields.filter fun x => x.1.desc.type == .rw) s t := by
  obtain ⟨l, perm, e⟩ := writeReg_onlyStored s requester (p := { p with quad := quad.val }) h (BitVec.allOnes 64) v
  have value : _ = quadValue quad (s.regValue p) v := quad_new quad (s.regValue p) v
  change l.Perm p.fields at perm
  intro t
  rw [show t = _ from e]
  refine ⟨storeFields_frame _ _ l s, fun x hx ht => ?_, fun f i out => ?_⟩
  · rw [reg_storeFields_same _ _ (perm.nodup_iff.2 (fields_nodup p)) hs (perm.mem_iff.2 hx) ht]
    split
    · next c =>
      rw [reg_of_regValue hs hx ht ((h x hx).2 ht), ← value]
      exact same_of _ _ _ _ c (unreached_bits _ _)
    · exact congrArg _ value
  · refine reg_storeFields_other _ _ (fun x hx ht e => out ?_) s
    rw [e, List.mem_filter]
    exact ⟨perm.mem_iff.1 hx, by simp [ht]⟩

/-- Settles O50: an access at a quadrant names the register with that quadrant, which a read ignores. -/
theorem registerQuadrants : Obligations.RegisterQuadrants := by
  intro s r offset p quad within fetchOk v h hs ho hb hp hm hw hr at_ u old new
  have aligned : at_ % 8 = 0 := by omega
  have place : placeOf at_ = some { p with quad := quad.val } := place_block quad hp hb hm hw
  refine ⟨fun hf => exec_read_reg8 h aligned place hr hf within fetchOk, fun hf => ?_⟩
  obtain ⟨frame, stored, same⟩ := writeReg_quadrant (s := u) hs (s.requesterOf r) hf quad v
  exact ⟨_, exec_write_reg8 h aligned place hr v, frame, stored, same⟩

end Sys2Proof.Machine
end

section
/-! PROOF. The overview's statements: every step keeps what has left the device (O59), the Larders and the Corridor (O12),
and the step at the front of the queue (O56). -/

namespace Sys2Proof.Machine

/-! ### Steps (O59, O56) -/

/-- Settles O59: an idle step changes nothing, and any other one takes its command off the queue and then keeps what every
command keeps. -/
theorem stepKeepsHistory : Obligations.StepKeepsHistory := by
  intro s t h
  obtain ⟨empty, rfl⟩ | ⟨c, rest, front, h⟩ := step_cases h
  · have keeps := Keeps.refl t
    exact ⟨by rw [empty, List.tail_nil], keeps.out, keeps.fresh, keeps.part⟩
  · have keeps := KeepsR.exec c _ t h
    exact ⟨keeps.pending.trans (by rw [front, List.tail_cons]), keeps.out, keeps.fresh, keeps.part⟩

/-- Settles O56: the branches of a step on a queue with a front and on an empty one (log entry 5). -/
theorem stepRunsFront : Obligations.StepRunsFront := by
  refine ⟨fun c s => rfl, fun s empty => ?_⟩
  unfold step
  rw [empty]

/-! ### The Larders (R157, R158, R162, R165) -/

/-- A promotion whose frame is away copies no line: the slot stops moving, and the tier follows its dirty lines (R165). -/
theorem exec_promotionDone_away {s : State} {room : RoomNo} {page : Nat} {r : Room} {sl : Slot}
    (present : s.room room = some r) (slot : (s.page room page).slot = some sl)
    (promoting : pageKey room page ∈ s.ti.promoting) (away : s.away (s.page room page) = true) :
    let w := s.home room page
    let t := s.setPage room page { s.page room page with
      slot := some { sl with moving := false }, tier := if sl.dirty != 0 then 2 else 1 }
    let t : State := { t with ti := { t.ti with promoting := t.ti.promoting.filter fun x => x != pageKey room page } }
    exec (.promotionDone room page) s =
      .next ((t.satReg .PAN_TIER_STAT_PROMOTIONS w 1).count (512 + 768 * w + 260) 1).settle := by
  simp only [exec, execPromotionDone, present, slot]
  rw [if_neg (by simpa using promoting), if_pos away]
  rfl

/-- A burst of an item is taken where the acting home of its page is up (R162, R358). -/
theorem exec_larderReadData {s : State} {room : RoomNo} {page : Nat} {r : Room} (present : s.room room = some r)
    (up : s.wingUp (s.actingHome (s.home room page)) = true) (hallOn : s.pw.dev.hallOn = true) (line : Fin 64)
    (a b : BurstOutcome) (arrived : Option StoredLine) :
    exec (.larderReadData room page line .data a b arrived) s =
        .next (s.larderData r.cfg room page line a b arrived).settle.drainAdvance ∧
      exec (.larderReadData room page line .mapEntry a b arrived) s =
        .next (s.mapEntryRead room page a b).settle.drainAdvance ∧
      exec (.larderReadData room page line .directory a b arrived) s =
        .next (s.directoryRead (s.home room page) a b).settle.drainAdvance := by
  have acts : ¬ (!s.wingUp (s.actingHome (s.home room page)) || !s.pw.dev.hallOn) = true := by simp [up, hallOn]
  simp only [exec, execLarderReadData, present, if_neg acts, and_self]

/-- A clean patrol burst adds what the devices counted themselves (R157). -/
theorem exec_larderPatrolScrub_clean {s : State} {w : Wing} (up : s.wingUp w = true) (hallOn : s.pw.dev.hallOn = true)
    (burst n : Nat) : exec (.larderPatrolScrub w burst .clean n) s = .next (s.satReg .LAR_ERR_CORRECTED w n) := by
  show execLarderPatrolScrub w burst .clean n s = _
  unfold execLarderPatrolScrub
  rw [if_neg (by simp [up, hallOn])]

/-- A device past 85 °C (340 quarters of a degree) is listed hot, and its channel refreshes at the hot rate (R158). -/
theorem exec_larderTempRead_hot {s : State} {w : Wing} (enabled : w.val ∈ s.wings) (hallOn : s.pw.dev.hallOn = true)
    (device : Nat) {temp : Int} (hot : 340 < temp) :
    let others := s.ti.hot.filter fun x => x != (w.val, device)
    let t : State := { s with ti := { s.ti with hot := others ++ [(w.val, device)] } }
    exec (.larderTempRead w device temp) s =
      .next ((t.setFlag .LAR_STATUS_HOT_REFRESH w true).level (srcLarder w 4) true) := by
  intro others t
  have listed : (others ++ [(w.val, device)]).any (fun x => x.1 == w.val) = true := by simp
  simp only [exec, execLarderTempRead]
  rw [if_neg (by simp [enabled, hallOn]), if_pos hot, listed]

/-! ### Paced writes and the write-through log (R176, R298) -/

/-- The write that has waited longest on a wing goes on once there is room for its line (R176). -/
theorem exec_pacedWriteAdmit {s : State} {w : Wing} {q : Req} {o : LineOp} {rest : List LineOp} {r : Room}
    (first : s.hp.pend.find? (s.pacedOn w) = some q) (todo : q.todo = o :: rest) (present : s.room q.room = some r)
    (fits : s.noRoom r.cfg q.room o.page = false) :
    exec (.pacedWriteAdmit w) s = .next (s.setReq { q with wait := .ready }).settle := by
  simp only [exec, execPacedWriteAdmit, first, todo, present, fits, Bool.false_eq_true, if_false]

/-- The oldest log entry of a wing is applied and freed (R298). -/
theorem exec_logEntryApply {s : State} {w : Wing} {e : LogEntry} {rest : List LogEntry} (hallOn : s.pw.dev.hallOn = true)
    (oldest : takeFirst (fun (e : LogEntry) => e.wing == w.val) s.md.log = some (e, rest)) :
    exec (.logEntryApply w) s =
      .next ((({ s with md := { s.md with log := rest } } : State).logApplied e).settle.drainAdvance) := by
  simp only [exec, execLogEntryApply, oldest, hallOn, Bool.not_true, Bool.false_eq_true, if_false]

/-! ### The Corridor (R13, R14) -/

/-- A packet with a good tail is acted on and counted, and its module's replays in a row start again (R13, R180). -/
theorem exec_corridorPacket_good {s : State} {m : Module} (up : s.moduleUp m = true) (hallOn : s.pw.dev.hallOn = true)
    (runs : s.inReset (.corridor (moduleWing m)) = false) :
    let t : State := { s with br := { s.br with replays := del s.br.replays (moduleIndex m) } }
    exec (.corridorPacket m true) s =
      .next ((t.count (512 + 768 * moduleWing m + 672) 1).count (512 + 768 * moduleWing m + 673) 1) := by
  show execCorridorPacket m true s = _
  unfold execCorridorPacket
  rw [if_neg (by simp [up, hallOn, runs]), if_pos rfl]

/-- A lane repair is counted at both ends of the link and raised (R14). -/
theorem exec_laneRepair {s : State} {m : Module} (up : s.moduleUp m = true) (hallOn : s.pw.dev.hallOn = true) :
    exec (.laneRepair m) s =
      .next (((s.linkEnds m).foldl (fun t i => t.satReg .COR_LINK_REPAIRED i 1) s).emit (srcCorridor (moduleWing m) 0)) := by
  show execLaneRepair m s = _
  unfold execLaneRepair
  rw [if_neg (by simp [up, hallOn])]

/-- Settles O12: each clause is the lemma of its command. -/
theorem larderCommands : Obligations.LarderCommands :=
  ⟨fun _ _ _ _ _ present slot promoting away => exec_promotionDone_away present slot promoting away,
    fun _ _ _ line _ a b present up hallOn => exec_larderReadData present up hallOn line a b none,
    fun _ _ burst n up hallOn => exec_larderPatrolScrub_clean up hallOn burst n,
    fun _ _ device _ enabled hallOn hot => exec_larderTempRead_hot enabled hallOn device hot,
    fun _ _ _ _ _ _ first todo present fits => exec_pacedWriteAdmit first todo present fits,
    fun _ _ _ _ hallOn oldest => exec_logEntryApply hallOn oldest,
    fun _ _ up hallOn runs => exec_corridorPacket_good up hallOn runs,
    fun _ _ up hallOn => exec_laneRepair up hallOn⟩

end Sys2Proof.Machine
end

section
/-! PROOF. The floor plan's statements: the bytes of the boot flash and the image commands (O54, O22), a start from the
loaded image (O7), doorbells that do not act (O34) and the Landing requests of the manager and of members (O43). -/

namespace Sys2Proof.Machine

/-! ### The bytes of the boot flash (R26) -/

/-- A table filtered by its keys holds what it held at the keys that stay, and nothing at the others. -/
theorem look_filter_key {α : Type} (m : SMap α) (keep : Nat → Bool) (k : Nat) :
    look (m.filter fun p => keep p.1) k = if keep k then look m k else none := by
  induction m with
  | nil => simp
  | cons p m ih =>
    obtain ⟨k', v⟩ := p
    rw [List.filter_cons]
    by_cases same : k = k'
    · subst same
      cases stays : keep k <;> simp [look, ih, stays]
    · cases keep k' <;> simp [look, ih, same]

/-- An erase leaves 0xFF in its region and every byte outside it as it was. -/
theorem flashByte_erase (cells : List Host.Cell) (a n x : Nat) :
    flashByte (flashErase cells a n) x = if a ≤ x ∧ x < a + n then 0xFF else flashByte cells x := by
  unfold flashByte lookD flashErase
  rw [look_filter_key cells fun k => !(a ≤ k && k < a + n)]
  by_cases inside : a ≤ x ∧ x < a + n
  · simp [inside]
  · rw [if_neg inside, if_pos (by simp; omega)]

/-- A program leaves every byte outside the ones it names as it was. -/
theorem flashByte_program_outside {cells : List Host.Cell} {a x : Nat} {bs : List Byte}
    (h : x < a ∨ a + bs.length ≤ x) : flashByte (flashProgram cells a bs) x = flashByte cells x := by
  induction bs generalizing cells a with
  | nil => rfl
  | cons b bs ih =>
    rw [List.length_cons] at h
    rw [flashProgram, ih (by omega), flashByte_put_other _ (by omega)]

/-- A program clears, in each byte it names, the bits that its own byte has clear. -/
theorem flashByte_program_inside {cells : List Host.Cell} (h : FlashOk cells) {bs : List Byte} {i : Nat} {b : Byte}
    (hb : bs[i]? = some b) (a : Nat) :
    flashByte (flashProgram cells a bs) (a + i) = flashByte cells (a + i) &&& b := by
  induction bs generalizing cells a i with
  | nil => simp at hb
  | cons c bs ih =>
    rw [flashProgram]
    cases i with
    | zero =>
      obtain rfl : c = b := by simpa using hb
      rw [flashByte_program_outside (by omega), Nat.add_zero, flashByte_put_same h]
    | succ i =>
      have shift : a + (i + 1) = a + 1 + i := by omega
      rw [shift, ih (flashOk_put h _ _) (by simpa using hb), flashByte_put_other _ (by omega)]

/-! ### The image commands (R100, R102 to R104) -/

/-- IMAGE_BEGIN names its target, the slot that is not active or else the one it was given, and erases it in the
background. -/
theorem exec_imageBegin {s : State} {f : Sender} (may : MayCommand s f) (idle : s.hp.background = none) {slot : Byte}
    {t : Nat} (target : s.otherSlot.getD slot.toNat = t) (valid : t ≤ 1) :
    exec (.imageBegin f slot) s = .next (({ s with
      hp := { s.hp with background := some (.imageBegin t) }
      flash := { s.flash with target := some t, erased := false } } : State).mailAnswer f 0xC001 .background []) := by
  show execImageBegin f slot s = _
  unfold execImageBegin
  refine mailbox_next may _ _ ?_
  dsimp only
  rw [if_neg (by simp [idle])]
  cases other : s.otherSlot with
  | none =>
    obtain rfl : slot.toNat = t := by simpa [other] using target
    exact if_neg (Nat.not_lt.2 valid)
  | some active =>
    obtain rfl : active = t := by simpa [other] using target
    exact if_neg (Nat.not_lt.2 valid)

/-- IMAGE_WRITE programs its bytes into the target slot, erased since its last check and not active. -/
theorem exec_imageWrite {s : State} {f : Sender} (may : MayCommand s f) {offset t : Nat} {bytes : List Byte}
    (target : s.flash.target = some t) (erased : s.flash.erased = true)
    (inactive : s.reg .HALL_FP_STATUS_ACTIVE 0 ≠ t + 1) (aligned : offset % 256 = 0) (least : 256 ≤ bytes.length)
    (most : bytes.length ≤ 8192) (fits : offset + bytes.length ≤ 0x02000000) :
    exec (.imageWrite f offset bytes) s = .next (({ s with flash := { s.flash with
      cells := flashProgram s.flash.cells (slotBase t + offset) bytes } } : State).mailAnswer f 0xC002 .success []) := by
  have notActive : (some t == if s.reg .HALL_FP_STATUS_ACTIVE 0 = 0 then none
      else some (s.reg .HALL_FP_STATUS_ACTIVE 0 - 1)) = false := by
    split
    · rfl
    · rw [beq_eq_false_iff_ne]
      intro same
      have := Option.some.inj same
      omega
  have inSlot : offset + bytes.length ≤ slotSize := fits
  show execImageWrite f offset bytes s = _
  unfold execImageWrite
  refine mailbox_next may _ _ ?_
  dsimp only
  rw [target]
  dsimp only
  rw [if_neg (by rw [erased, notActive]; decide), if_neg (by simp [aligned, least, most, inSlot])]

/-- IMAGE_CHECK of the slot that is not active runs in the background. -/
theorem exec_imageCheck {s : State} {f : Sender} (may : MayCommand s f) (idle : s.hp.background = none) {t : Nat}
    (other : s.otherSlot = some t) :
    exec (.imageCheck f) s = .next (({ s with
      hp := { s.hp with background := some (.imageCheck t) } } : State).mailAnswer f 0xC003 .background []) := by
  show execImageCheck f s = _
  unfold execImageCheck
  refine mailbox_next may _ _ ?_
  dsimp only
  rw [if_neg (by simp [idle]), other]

/-- The end of an IMAGE_BEGIN: its slot is erased. -/
theorem exec_backgroundCommandDone_imageBegin {s : State} {t : Nat} (runs : s.hp.background = some (.imageBegin t)) :
    exec .backgroundCommandDone s = .next (({ s with
      hp := { s.hp with background := none }
      flash := { s.flash with cells := flashErase s.flash.cells (slotBase t) slotSize, erased := true } } : State).send
      (.mailbox false 0 0xC001 .success [])) := by
  simp only [exec, execBackgroundCommandDone, runs]

/-- A check reads nothing of the host port. -/
theorem checkCause_hp (s : State) (hp : HostPort) (slot : Nat) :
    ({ s with hp := hp } : State).checkCause slot = s.checkCause slot := by
  simp only [State.checkCause, State.checkSlot, State.slotBytes]

/-- The end of an IMAGE_CHECK: it reports the cause, and the slot takes no write until it is erased again. -/
theorem exec_backgroundCommandDone_imageCheck {s : State} {t : Nat} (runs : s.hp.background = some (.imageCheck t)) :
    exec .backgroundCommandDone s = .next (({ s with
      hp := { s.hp with background := none }
      flash := { s.flash with erased := false } } : State).send
      (.mailbox false 0 0xC003 .success [pword (s.checkCause t)])) := by
  simp only [exec, execBackgroundCommandDone, runs, checkCause_hp]

/-- The end of a SANITIZE: its work is done. -/
theorem exec_backgroundCommandDone_sanitize {s : State} (runs : s.hp.background = some .sanitize) :
    exec .backgroundCommandDone s = .next ((({ s with hp := { s.hp with background := none } } : State).sanitizeNow).send
      (.mailbox false 0 0x4400 .success [])) := by
  simp only [exec, execBackgroundCommandDone, runs]

/-- Settles O54: what IMAGE_WRITE and the end of IMAGE_BEGIN do to the flash, read byte by byte. -/
theorem imageBytes : Obligations.ImageBytes := by
  refine ⟨fun s f offset bytes t may ok target erased inactive aligned least most fits =>
      ⟨_, exec_imageWrite may target erased inactive aligned least most fits, fun i b hb => ?_, fun a out => ?_, rfl⟩,
    fun s t runs => ⟨_, exec_backgroundCommandDone_imageBegin runs, fun a from_ below => ?_, fun a out => ?_, rfl⟩⟩
  · exact flashByte_program_inside ok hb _
  · exact flashByte_program_outside out
  · exact (flashByte_erase ..).trans (if_pos ⟨from_, below⟩)
  · exact (flashByte_erase ..).trans (if_neg (by rw [slotSize]; omega))

/-- Settles O22: each clause is the lemma of its command (log entry 66). -/
theorem imageCommands : Obligations.ImageCommands := by
  refine ⟨fun s f may idle => ⟨fun slot t target valid => exec_imageBegin may idle ?_ valid,
      fun _ other => exec_imageCheck may idle other⟩,
    fun _ _ _ _ _ may target erased inactive aligned least most fits =>
      exec_imageWrite may target erased inactive aligned least most fits,
    fun _ _ runs => exec_backgroundCommandDone_imageBegin runs,
    fun _ _ runs => exec_backgroundCommandDone_imageCheck runs,
    fun _ runs => exec_backgroundCommandDone_sanitize runs⟩
  rw [← target]
  cases s.otherSlot <;> rfl

/-! ### A start (R48, R148, R237, R306) -/

/-- PANTRY_INIT_DONE of a wing that is not FENCED opens its slice to requests. -/
theorem exec_pantryInitDone {s : State} {w : Wing} (enabled : w.val ∈ s.wings) (hallOn : s.pw.dev.hallOn = true)
    (unfenced : s.svc w ≠ 2) :
    exec (.pantryInitDone w) s = .next (s.setFlag .PAN_STATUS_INIT_DONE w true).settle := by
  show execPantryInitDone w s = _
  unfold execPantryInitDone
  rw [if_neg (by simp [enabled, hallOn, unfenced])]

/-- RECOVERY runs once, with what the dies answered in BOOT; how the device stopped is judged before it begins. -/
theorem exec_recovery {s : State} {env : BootEnv} (dev : s.pw.dev = .recovery) (first : s.pw.recovered = false)
    (boot : s.pw.boot = some env) : exec .recovery s = .next (s.readMarker.startBeat.recover env s.cleanStop) := by
  simp only [exec, execRecovery, boot]
  rw [if_neg (by simp [dev, first])]

/-- The state on entry to SERVING: the unit record and the KIND 0 marker are written, and the rooms of the image are
offered (R82, R237, R306 step 7; log entries 8 and 61). -/
def State.served (s : State) : State :=
  let t := s.putUnitRecord
  let t := ((t.putMarker (t.marker 0 0)).goto .serving).setReg .HALL_DRAIN_STATUS_STEP 0 0
  let t : State := { t with rt := { t.rt with continuity := true }, pw := { t.pw with fromSlumber := false } }
  t.offerImage.computeBudget.repin.settle

/-- SERVING_ENTRY of a recovered device whose sequence is over, whose slices are ready and whose time is known or waited
for: it serves, where no off request or shutdown is latched. -/
theorem exec_servingEntry {s : State} {waited : Bool} (dev : s.pw.dev = .recovery) (recovered : s.pw.recovered = true)
    (sequenced : s.reg .FBX_SEQ_PHASE 0 = 0) (slices : s.slicesReady = true)
    (time : s.rt.continuity = true ∨ s.rt.epochSeen = true ∨ waited = true)
    (noOff : s.served.flag .FBX_SEQ_OFF_LATCHED 0 = false) (noShutdown : s.served.pw.shutdownDue = false) :
    exec (.servingEntry waited) s = .next s.served := by
  show execServingEntry waited s = _
  unfold execServingEntry
  have timed : (s.rt.continuity || s.rt.epochSeen || waited) = true := by simpa [or_assoc] using time
  rw [if_neg (by simp [dev, recovered, sequenced, slices, timed])]
  exact (if_neg (Bool.eq_false_iff.1 noOff)).trans (if_neg (Bool.eq_false_iff.1 noShutdown))

/-- Settles O7: FLOOR_PLAN_LOAD runs once in a BOOT (log entry 8), and each other clause is the lemma of its command. -/
theorem startCommands : Obligations.StartCommands := by
  refine ⟨fun s env boot first => ?_,
    fun _ _ enabled hallOn unfenced => exec_pantryInitDone enabled hallOn unfenced,
    fun _ _ dev first boot => exec_recovery dev first boot,
    fun _ _ dev recovered sequenced slices time noOff noShutdown =>
      exec_servingEntry dev recovered sequenced slices time noOff noShutdown⟩
  show execFloorPlanLoad env s = _
  unfold execFloorPlanLoad
  exact if_neg (by simp [boot, first])

/-! ### Doorbells that do not act (R36, R93, R380) -/

/-- Counting changes no ring's existence. -/
theorem ringExists_count (s : State) (c n requester ring : Nat) :
    (s.count c n).ringExists requester ring = s.ringExists requester ring := by
  simp only [State.ringExists, plan_count]

/-- A doorbell to a ring that RINGS does not give is ignored and counted (log entry 38). -/
theorem doorbell_absent {s : State} {requester page : Requester} {ring : RingNo} (hallOn : s.pw.dev.hallOn = true)
    (own : s.requesterOf requester = page.val) (absent : s.ringExists page ring = false) (run : State → Nat → State) :
    s.doorbell requester.val page.val ring.val run = (s.count 256 1).doorbellIgnored := by
  unfold State.doorbell
  rw [if_neg (by simp [hallOn])]
  dsimp only
  rw [own, if_neg (by simp), if_pos (by rw [ringExists_count, absent]; rfl)]

/-- A CTRL value given in none of the states it acts in is ignored and counted (R380). -/
theorem ctrl_ignored {s : State} {requester page : Requester} {ring : RingNo} (h : RingDoorbell s requester page ring)
    {states : List RingState} (idle : (s.ctx (ringKey page ring)).state ∉ states) (run : State → Nat → State) :
    s.doorbell requester.val page.val ring.val (fun s k => s.ctrl k states fun s => run s k) =
      (s.count 256 1).doorbellIgnored := by
  rw [doorbell_run h]
  unfold State.ctrl
  rw [ctx_count, if_neg (by simpa using idle)]

/-- Settles O34: a CTRL value of a ring that does not exist, and each in a state outside those it acts in. -/
theorem doorbellsIgnored : Obligations.DoorbellsIgnored := by
  intro s requester page ring hallOn
  refine ⟨fun own absent => congrArg _ (doorbell_absent hallOn own absent _), fun h =>
    ⟨fun c => ?_, fun c => ?_, fun c => ?_, fun stopped error => ?_⟩⟩
  · exact congrArg _ (ctrl_ignored h (by simpa using c) _)
  · exact congrArg _ (ctrl_ignored h (by simpa using c) _)
  · exact congrArg _ (ctrl_ignored h (by simpa using c) _)
  · exact congrArg _ (ctrl_ignored h (by simpa using ⟨stopped, error⟩) _)

/-! ### Landing requests of the manager and of members (R54, R411, R417 to R431) -/

section
variable {s : State} {h : Hdr} (p : LandingPasses s h)
include p

/-- A chunk of an AMENDMENT is taken and answered, from the manager or where the pool is not lost (R24, R54). -/
theorem exec_amendment {offset : Nat} {bytes : List Byte} {u : State} {type status : Nat} {body : List Word}
    (heard : (s.taken h).poolLost = false ∨ h.src = (s.taken h).pl.manager)
    (chunk : (s.taken h).chunk h offset bytes = (u, some (type, status, body))) :
    exec (.amendment h offset bytes) s = .next (u.landingAnswer h type status body) := by
  refine congrArg _ (try_run p _ _ ?_)
  rw [if_neg (by rcases heard with e | e <;> simp [e]), chunk]

/-- The manager's HEARTBEAT on another member (R417). -/
theorem exec_heartbeat_manager (member : (s.taken h).role ≠ 0) (e frac : Word) (manager standby : Nat)
    (health : List Word) : exec (.heartbeat h true e frac manager standby health) s =
      .next ((((s.taken h).managerBeat e.toNat frac.toNat manager standby).heard h.src).landingAnswer h 0x01 0 []) :=
  congrArg _ (in_run p _ _ (if_neg member))

/-- A member's HEARTBEAT, with its health (R417, R418). -/
theorem exec_heartbeat_member (e frac : Word) (manager standby : Nat) (health : List Word) :
    exec (.heartbeat h false e frac manager standby health) s =
      .next ((((s.taken h).heard h.src).memberBeat h.src health).landingAnswer h 0x01 0 []) :=
  congrArg _ (in_run p _ _ rfl)

/-- TAKEOVER makes its sender the manager and leaves no standby known but a standby that takes it (R420, R422; log
entry 46). -/
theorem exec_takeover :
    let t := s.taken h
    exec (.takeover h) s = .next (((({ t with pl := { t.pl with
      manager := h.src, standby := if t.role = 1 then t.index else 0xFFFF
      missed := del t.pl.missed h.src, lastHeard := put t.pl.lastHeard h.src t.beat } } : State).setFlag
        .LND_STATE_MANAGER_SEEN 0 true).setFlag .LND_STATE_STANDBY_SEEN 0 false).landingAnswer h 0x02 0 []) :=
  congrArg _ (in_run p _ _ rfl)

/-- A CUTOVER or close message on a member with no migration only has its answer. -/
theorem exec_migrateCutover_none (member : (s.taken h).role ≠ 0) (noMigration : (s.taken h).pl.mig = none)
    (room : RoomNo) (close : Bool) :
    exec (.migrateCutover h room close) s = .next ((s.taken h).landingAnswer h 0x09 0 []) := by
  refine congrArg _ (in_run p _ _ ?_)
  dsimp only
  rw [if_neg member, noMigration]

/-- A CUTOVER or close message on the target of the room's migration: the offers are made, or the range is closed
(R429, R431; log entry 49). -/
theorem exec_migrateCutover_target (member : (s.taken h).role ≠ 0) {room : RoomNo} {m : Migration}
    (migrates : (s.taken h).pl.mig = some m) (ofRoom : m.room = room.val) (target : m.source = false) (close : Bool) :
    exec (.migrateCutover h room close) s = .next
      ((if close then (s.taken h).targetClose room else (s.taken h).targetCutover room).landingAnswer h 0x09 0 []) := by
  refine congrArg _ (in_run p _ _ ?_)
  dsimp only
  rw [if_neg member, migrates]
  dsimp only
  rw [if_neg (by simp [ofRoom]), if_neg (by simp [target])]

/-- PAGE_RELEASE from the peer of the room's migration releases up to 500 pages before it is answered (R430). -/
theorem exec_pageRelease {room : RoomNo} {m : Migration} (migrates : (s.taken h).pl.mig = some m)
    (ofRoom : m.room = room.val) (target : m.source = false) (peer : m.peer = h.src) (pages : List (Nat × Bool)) :
    exec (.pageRelease h room pages) s = .next
      (((pages.take 500).foldl (fun (u : State) x => (u.releasePage room x.1 x.2).1) (s.taken h)).landingAnswer h 0x0A 0
        []) := by
  refine congrArg _ (in_run p _ _ ?_)
  rw [migrates]
  dsimp only
  rw [if_pos (by simp [ofRoom, target, peer])]

end

/-- Settles O43: each clause is the lemma of its request (log entries 46, 47 and 49). -/
theorem landingCommands : Obligations.LandingCommands := fun _ _ p =>
  ⟨fun _ _ _ _ _ _ heard chunk => exec_amendment p heard chunk,
    fun e frac manager standby health member => exec_heartbeat_manager p member e frac manager standby health,
    fun e frac manager standby health => exec_heartbeat_member p e frac manager standby health,
    exec_takeover p,
    fun room close member noMigration => exec_migrateCutover_none p member noMigration room close,
    fun _ _ member migrates ofRoom target =>
      ⟨exec_migrateCutover_target p member migrates ofRoom target false,
        exec_migrateCutover_target p member migrates ofRoom target true⟩,
    fun _ _ pages migrates ofRoom target peer => exec_pageRelease p migrates ofRoom target peer pages⟩

end Sys2Proof.Machine
end

section
/-! PROOF. The host port's statements: host requests that pass its checks, what accepting one does and two that do not
pass (O14, O15, O16), doorbells of another requester's page (O51), coherence and the host map buffer (O13), the link
(O18), keys and message vectors (O19), the mailbox (O20, O21, O23), extents and decoders (O24), pool commands (O47) and
register accesses that do not act (O49). -/

namespace Sys2Proof.Machine

/-! ### What a request's arrival leaves as it was (R71, R523) -/

section
variable (s : State) (kind : ReqKind)

@[simp] theorem State.arrived_pw : (s.arrived kind).pw = s.pw := by simp [State.arrived]
@[simp] theorem State.arrived_hp : (s.arrived kind).hp = s.hp := by simp [State.arrived]
@[simp] theorem State.arrived_rooms : (s.arrived kind).rooms = s.rooms := by simp [State.arrived]

/-- The counters of an arrival, as the port counts them. -/
theorem count_arrived : ((s.count kind.counter 1).count 128 1).count 0 1 = s.arrived kind := rfl

/-- Arrival is counted, which changes no register but PMC_OVF. -/
theorem reg_arrived {f : Fld} (h : f ≠ .PMC_OVF) (i : Nat) : (s.arrived kind).reg f i = s.reg f i := by
  simp only [State.arrived, reg_count_other _ _ _ _ _ h]

@[simp] theorem insecure_arrived (uio : Bool) : (s.arrived kind).insecure uio = s.insecure uio := by
  simp [State.insecure, reg_arrived]

@[simp] theorem decodeHpa_arrived (requester hpa : Nat) :
    (s.arrived kind).decodeHpa requester hpa = s.decodeHpa requester hpa := by simp [State.decodeHpa]

@[simp] theorem room_arrived (room : Nat) : (s.arrived kind).room room = s.room room := by simp [State.room]

@[simp] theorem roomAt_arrived (dpa : Nat) : (s.arrived kind).roomAt dpa = s.roomAt dpa := by simp [State.roomAt]

@[simp] theorem mayAccess_arrived (requester region dpa : Nat) :
    (s.arrived kind).mayAccess requester region dpa = s.mayAccess requester region dpa := by
  simp [State.mayAccess, State.holds]

end

/-! ### Host requests at the port (R71, R72, R87) -/

/-- A request passes the checks of R71 up to its address: the link is up, the device serves, the IDE check passed, the
stream is secure, the requester has not failed, and a decoder takes the host address to a region and a DPA. -/
structure Decoded (s : State) (q : HostReq) (kind : ReqKind) (region dpa : Nat) : Prop where
  link : s.hp.link = .l0
  serving : s.pw.dev = .serving
  checked : q.ideOk = true
  secure : s.insecure kind.uio = false
  alive : s.requesterOf q.requester ∉ s.hp.failed
  decodes : s.decodeHpa (s.requesterOf q.requester) q.hpa.toNat = some (region, dpa)

section
variable {s : State} {q : HostReq} {kind : ReqKind} {region dpa : Nat}

/-- A decoded request to a DPA outside every room is refused (R71 step 4). -/
theorem hostRequest_noRoom (p : Decoded s q kind region dpa) (noRoom : s.roomAt dpa = none) (mv : Meta) (length : Nat)
    (ops : Nat → List LineOp) :
    s.hostRequest q kind mv length ops = (s.arrived kind).refuse (s.requesterOf q.requester) q.tag kind 4 dpa none := by
  obtain ⟨link, serving, checked, secure, alive, decodes⟩ := p
  unfold State.hostRequest
  rw [if_neg (by simp [link, serving, DevState.hallOn])]
  dsimp only
  rw [count_arrived]
  simp [checked, secure, serving, alive, decodes, noRoom]

/-- A request that passes the port is accepted with the line accesses at its room offset (R71). -/
theorem hostRequest_passes {length room : Nat} {r : Room} (p : PortPasses s q kind length region dpa room r) (mv : Meta)
    (ops : Nat → List LineOp) :
    let offset := dpa - r.cfg.base
    s.hostRequest q kind mv length ops = (s.arrived kind).accept (s.requesterOf q.requester) room q.tag kind mv
      (ops offset) (if kind.uio then offset % 64 else 0) (if kind == .uioRd then length else 0) q.pantry := by
  obtain ⟨link, serving, checked, secure, alive, decodes, at_, present, first, last⟩ := p
  unfold State.hostRequest
  rw [if_neg (by simp [link, serving, DevState.hallOn])]
  dsimp only
  rw [count_arrived]
  simp [checked, secure, serving, alive, decodes, at_, present, first, last]

end

/-- A UIO request of 1 to 4,096 bytes is well formed (R87). -/
theorem uioOk_iff (n : Nat) : uioOk n = true ↔ 1 ≤ n ∧ n ≤ 4096 := by simp [uioOk]

/-- An atomic descriptor that its requester may write at its aperture page is accepted as a write of its slot (R279,
R280). -/
theorem exec_atomicDescriptor {s : State} {requester : Requester} {room : RoomNo} {x : Room} {slot : Fin 32}
    (present : s.room room = some x) (aperture : x.cfg.aperture = true) (link : s.hp.link = .l0)
    (serving : s.pw.dev = .serving) (alive : s.requesterOf requester ∉ s.hp.failed)
    (own : s.mayAccess (s.requesterOf requester) x.cfg.region
      (x.cfg.base + (x.cfg.apertureBase + s.requesterOf requester) * 4096 + slot * 64) = some room.val) (data : Line) :
    exec (.atomicDescriptor requester room slot data) s =
      .next ((s.arrived .memWr).accept (s.requesterOf requester) room 0 .memWr .i
        [{ page := x.cfg.apertureBase + s.requesterOf requester, line := slot, data := data
           mask := BitVec.allOnes 64, poison := false }] 0 0 .clean) := by
  show execAtomicDescriptor requester room slot data s = _
  unfold execAtomicDescriptor
  dsimp only
  rw [present]
  dsimp only
  rw [if_neg (by simp [link, serving, aperture, DevState.hallOn])]
  rw [show ((s.count 5 1).count 128 1).count 0 1 = s.arrived .memWr from count_arrived s .memWr]
  exact if_neg (by simp [serving, alive, own])

/-- A UIO read that passes the port is accepted with its lines (R87). -/
theorem exec_uioRead {s : State} {q : HostReq} {region dpa room n : Nat} {r : Room} (least : 1 ≤ n) (most : n ≤ 4096)
    (p : PortPasses s q .uioRd n region dpa room r) :
    let offset := dpa - r.cfg.base
    exec (.uioRead q n) s = .next ((s.arrived .uioRd).accept (s.requesterOf q.requester) room q.tag .uioRd .i
      (uioLines offset n none) (offset % 64) n q.pantry) :=
  (if_pos ((uioOk_iff n).2 ⟨least, most⟩)).trans (congrArg _ (hostRequest_passes p .i _))

/-- A UIO write that passes the port is accepted with its lines (R87). -/
theorem exec_uioWrite {s : State} {q : HostReq} {region dpa room : Nat} {r : Room} {bytes : List Byte}
    (least : 1 ≤ bytes.length) (most : bytes.length ≤ 4096)
    (p : PortPasses s q .uioWr bytes.length region dpa room r) :
    let offset := dpa - r.cfg.base
    exec (.uioWrite q bytes) s = .next ((s.arrived .uioWr).accept (s.requesterOf q.requester) room q.tag .uioWr .i
      (uioLines offset bytes.length (some bytes)) (offset % 64) 0 q.pantry) :=
  (if_pos ((uioOk_iff _).2 ⟨least, most⟩)).trans (congrArg _ (hostRequest_passes p .i _))

/-- Settles O14: each CXL.mem kind is one line access, a UIO request its lines, and a descriptor its slot, counted as
they arrive (R279, R280, R523). -/
theorem hostRequests : Obligations.HostRequests := fun _ _ _ _ _ _ =>
  ⟨fun mv p => congrArg _ (hostRequest_passes p mv _),
    fun p => congrArg _ (hostRequest_passes p .s _),
    fun mv _ _ p => congrArg _ (hostRequest_passes p mv _),
    fun mv _ _ _ p => congrArg _ (hostRequest_passes p mv _),
    fun mv p => congrArg _ (hostRequest_passes p mv _),
    fun mv p => congrArg _ (hostRequest_passes p mv _),
    fun _ least most p => exec_uioRead least most p,
    fun _ least most p => exec_uioWrite least most p,
    fun _ _ data _ present aperture link serving alive own =>
      exec_atomicDescriptor present aperture link serving alive own data⟩

/-! ### Acceptance (R71, R79, R96) -/

/-- An answer leaves at once over a link that is up. -/
theorem answer_l0 {s : State} (link : s.hp.link = .l0) (room : Nat) (o : Out) : s.answer room o = s.send o := by
  unfold State.answer
  rw [link]

section
variable {s : State} {room : Nat} {r : Room} (present : s.room room = some r) {kind : ReqKind}
  (requester tag : Nat) (mv : Meta) {ops : List LineOp} (skip n : Nat) (check : PantryCheck)
include present

/-- A request that writes nothing waits for its credit. -/
theorem accept_noWrite (reads : kind.writes = false) (ops : List LineOp) :
    s.accept requester room tag kind mv ops skip n check =
      (s.enqueue requester room tag kind mv ops skip n check).settle := by
  unfold State.accept
  rw [present]
  dsimp only
  rw [if_neg (by simp [reads]), if_neg (by simp [reads])]

/-- A viral port answers a write and drops its data (R79). -/
theorem accept_viral (writes : kind.writes = true) (viral : s.flag .HALL_HP_LINK_VIRAL_IN 0 = true)
    (link : s.hp.link = .l0) (ops : List LineOp) :
    s.accept requester room tag kind mv ops skip n check =
      s.send (.resp requester tag (if kind.uio then .uioDone else .cmp) [] false) := by
  unfold State.accept
  rw [present]
  dsimp only
  rw [if_pos (by simp [viral, writes])]
  exact answer_l0 link _ _

/-- A write that touches no descriptor line waits for its credit. -/
theorem accept_write (healthy : s.flag .HALL_HP_LINK_VIRAL_IN 0 = false)
    (plain : ∀ o ∈ ops, r.cfg.descriptorLine o.page o.line = false) :
    s.accept requester room tag kind mv ops skip n check =
      (s.enqueue requester room tag kind mv ops skip n check).settle := by
  unfold State.accept
  rw [present]
  dsimp only
  have noSlot : (ops.any fun o => r.cfg.descriptorLine o.page o.line) = false :=
    List.any_eq_false.2 (by simpa using plain)
  rw [if_neg (by simp [healthy]), if_neg (by simp [noSlot])]

end

/-- Settles O15: the branches of acceptance, and the request that the ingress takes. -/
theorem requestAcceptance : Obligations.RequestAcceptance := by
  intro s requester room tag kind mv ops skip n check r present
  exact ⟨fun reads => accept_noWrite present requester tag mv skip n check reads ops,
    fun writes viral link => accept_viral present requester tag mv skip n check writes viral link ops,
    fun _ healthy plain => accept_write present requester tag mv skip n check healthy plain,
    ⟨_, rfl, rfl, rfl, rfl, rfl, rfl, rfl⟩⟩

/-! ### Refusal (R72) -/

/-- A read refused over a link that is up is answered with poison. -/
theorem refuse_answers {s : State} {kind : ReqKind} (link : s.hp.link = .l0) (reads : kind.reads = true)
    (mem : kind.uio = false) (requester tag addrKind address : Nat) (room : Option Nat) :
    Out.resp requester tag .memData [0] true ∈ (s.refuse requester tag kind addrKind address room).out := by
  have sent : Keeps (s.send (.resp requester tag .memData [0] true))
      (s.refuse requester tag kind addrKind address room) := by
    unfold State.refuse
    simp only [answer_l0 link, reads, mem]
    cases room with
    | none => exact ((((Keeps.refl _).satReg _ _ _).count _ _).count _ _).emitReq ..
    | some r => exact (((((Keeps.refl _).satReg _ _ _).count _ _).count _ _).roomCount ..).emitReq ..
  exact sent.out.subset (by simp)

/-- Refusing a request that names no room, over a link that is up, changes nothing stored. -/
theorem refuse_frame {s : State} (link : s.hp.link = .l0) (requester tag : Nat) (kind : ReqKind)
    (addrKind address : Nat) :
    let t := s.refuse requester tag kind addrKind address none
    t.ti = s.ti ∧ t.md = s.md ∧ t.rooms = s.rooms ∧ t.hp = s.hp ∧ t.cb = s.cb ∧ t.flash = s.flash ∧ t.rg = s.rg := by
  unfold State.refuse
  dsimp only
  rw [answer_l0 link]
  generalize Out.resp _ _ _ _ _ = o
  simp

/-- UIO requests of a length that no UIO request carries (R87; log entry 73). -/
theorem exec_uio_malformed (s : State) (q : HostReq) :
    (∀ n, n = 0 ∨ 4096 < n → exec (.uioRead q n) s = .fault .malformedRequest) ∧
      (∀ bytes : List Byte, bytes.length = 0 ∨ 4096 < bytes.length →
        exec (.uioWrite q bytes) s = .fault .malformedRequest) := by
  have bad (n : Nat) (h : n = 0 ∨ 4096 < n) : ¬ uioOk n = true := by
    rw [uioOk_iff]
    omega
  exact ⟨fun n h => if_neg (bad n h), fun bytes h => if_neg (bad bytes.length h)⟩

/-- Settles O16: a read that a decoder takes to no room, and UIO lengths outside R87 (log entries 62 and 73). -/
theorem hostRefusals : Obligations.HostRefusals := by
  refine ⟨fun s q mv region dpa link serving checked secure alive decodes noRoom => ?_, exec_uio_malformed⟩
  have linked : (s.arrived .memRd).hp.link = .l0 := by simpa using link
  have decoded : Decoded s q .memRd region dpa := ⟨link, serving, checked, secure, alive, decodes⟩
  have refused := hostRequest_noRoom decoded noRoom mv 64 (memLine 0 0 false)
  have frame := refuse_frame linked (s.requesterOf q.requester) q.tag .memRd 4 dpa
  exact ⟨_, congrArg Host.Outcome.next refused, refuse_answers linked rfl rfl .., by simpa [State.arrived] using frame⟩

/-! ### Doorbells of another requester's page (R93) -/

/-- A requester's number names it again. -/
theorem ofNat_requesterOf (s : State) (r : Requester) :
    s.requesterOf (Fin.ofNat 4096 (s.requesterOf r)).val = s.requesterOf r := by
  rw [Fin.val_ofNat, Nat.mod_eq_of_lt (requesterOf_lt s r), requesterOf_idem]

/-- A write to a doorbell page is a doorbell of the ring that its offset names, whatever it asks of it (R378). -/
theorem writeDoorbell_doorbell (s : State) (a : Access) (v : Word) :
    ∃ ring run, s.writeDoorbell a v = s.doorbell (Fin.ofNat 4096 a.requester : Requester).val
      (Fin.ofNat 4096 (a.offset / 0x40000) : Requester).val ring run := by
  simp only [State.writeDoorbell, State.after, execSqTail, execCqHead, execRingStart, execRingStop, execRingResume,
    execRingReset, execSemAdd, execEventSet]
  split
  · exact ⟨_, _, rfl⟩
  · exact ⟨_, _, rfl⟩
  · split <;> exact ⟨_, _, rfl⟩
  · exact ⟨_, _, rfl⟩
  · exact ⟨_, _, rfl⟩
  · exact ⟨_, _, rfl⟩

/-- A register write over BAR2 to another requester's page is discarded with an event (R93). -/
theorem exec_registerWrite_bar2_foreign {s : State} {requester page : Requester} (hallOn : s.pw.dev.hallOn = true)
    (foreign : s.requesterOf requester ≠ page.val) (behind : s.hp.behind = []) {offset : Nat}
    (at_ : offset / 0x40000 = page.val) (width : Nat) (v : Word) :
    exec (.registerWrite .bar2 requester offset width v) s =
      .next (((s.count 256 1).satReg .RING_ERR_FOREIGN 0 1).emitReq srcForeign (s.requesterOf requester) 2 0 0) := by
  show execRegisterWrite _ _ _ _ _ _ = _
  unfold execRegisterWrite
  rw [bar_run hallOn behind _ rfl]
  obtain ⟨ring, run, e⟩ := writeDoorbell_doorbell s
    { path := .bar2, requester := s.requesterOf requester, offset := offset, width := width, value := some v,
      within1us := false, fetchOk := true } v
  have named : (Fin.ofNat 4096 (offset / 0x40000) : Requester) = page := by simp [at_]
  refine congrArg _ (e.trans ?_)
  dsimp only
  rw [named, foreign_run ring hallOn (by rwa [ofNat_requesterOf]), ofNat_requesterOf]

/-- A read over BAR2 returns zero (R93). -/
theorem exec_registerRead_bar2 {s : State} (hallOn : s.pw.dev.hallOn = true) (behind : s.hp.behind = [])
    (r : Requester) (offset width : Nat) (within fetchOk : Bool) :
    exec (.registerRead .bar2 r offset width within fetchOk) s =
      .next (s.send (.regData (s.requesterOf r) offset 0)) :=
  congrArg _ (bar_run hallOn behind _ rfl)

/-- An event that names a requester joins those on their way to the collector, which still takes events. -/
theorem emitReq_inbox {s : State} (alive : s.fl.dead = false) (src requester access addrKind address : Nat) :
    (s.emitReq src requester access addrKind address).fl.inbox = s.fl.inbox ++
      [⟨{ source := Fin.ofNat 2048 src, masterKind := 1, masterId := requester, access := access
          addrKind := addrKind, address := address }, s.beat, false⟩] := by
  unfold State.emitReq State.emitEv State.post
  rw [if_neg (by simp [alive])]

/-- Settles O51: every doorbell command, and every write over BAR2, meets the check of the page's owner first. -/
theorem foreignDoorbells : Obligations.ForeignDoorbells := by
  intro s requester page ring hallOn
  refine ⟨fun foreign => ?_, fun offset width within fetchOk behind =>
    exec_registerRead_bar2 hallOn behind requester offset width within fetchOk⟩
  intro gone
  have discard := fun run => congrArg (Host.Outcome.next (φ := Fault) (ρ := Refusal))
    (foreign_run ring.val hallOn foreign run)
  refine ⟨fun tail => discard _, fun head => discard _, discard _, discard _, discard _, discard _,
    fun value => discard _, fun flags => discard _, fun data => discard _,
    fun offset width v behind at_ => exec_registerWrite_bar2_foreign hallOn foreign behind at_ width v,
    by simp [gone], by simp [gone], fun alive => ?_⟩
  have same : ((s.count 256 1).satReg .RING_ERR_FOREIGN 0 1).fl = s.fl := by simp
  have joined := emitReq_inbox (by rw [same]; exact alive) srcForeign (s.requesterOf requester) 2 0 0
  rw [same] at joined
  exact ⟨_, joined, rfl, rfl⟩

/-! ### Back-invalidate responses (R76, R272) -/

/-- A response completes its snoop, takes what it ended from the directory, and lets what waited go on (R272). -/
theorem exec_biRsp {s : State} {r : Requester} {room : RoomNo} {page : Nat} {line : Fin 64} {x : Snoop}
    {rest : List Snoop} {e : DirEntry}
    (first : takeFirst (fun (x : Snoop) => x.requester == r.val && x.key == lineKey room page line) s.hp.snoops =
      some (x, rest)) :
    let t := ({ s with hp := { s.hp with snoops := rest } } : State).count 11 1
    look t.ti.dir (lineKey room page line) = some e →
      exec (.biRsp r room page line) s = .next (t.setDir (lineKey room page line) (e.snooped x)).settle := by
  intro t listed
  simp only [exec, execBiRsp, first]
  rw [listed]

/-- An unanswered snoop is marked, counted and sent once more, with an event (R76). -/
theorem exec_bisnpResend {s : State} {r : Requester} {room : RoomNo} {page : Nat} {line : Fin 64} {x : Snoop}
    (unanswered : (s.hp.snoops.find? fun x =>
      x.requester == r.val && x.key == lineKey room page line && !x.resent) = some x) :
    let w := s.home room page
    let t : State := { s with hp := { s.hp with
      snoops := s.hp.snoops.map fun (y : Snoop) => if y == x then { y with resent := true } else y } }
    exec (.bisnpResend r room page line) s = .next (((((t.count 10 1).satReg .HOME_BISNP_SENT w 1).send
      (.snoop x.requester (lineKey room page line) x.kind)).emit (srcHome w 2))) := by
  simp only [exec, execBisnpResend, unanswered]

/-- A requester that answered neither of a snoop's two sendings is failed (R76). -/
theorem exec_requesterFailed {s : State} {r : Requester} {x : Snoop} (waits : x ∈ s.hp.snoops)
    (asked : x.requester = r.val) (resent : x.resent = true) :
    exec (.requesterFailed r) s = .next (s.failRequester r) := by
  have silent : (s.hp.snoops.any fun x => x.requester == r.val && x.resent) = true :=
    List.any_eq_true.2 ⟨x, waits, by simp [asked, resent]⟩
  exact if_pos silent

/-! ### The refill round and the persistent flush (R77, R97) -/

/-- A refill round gives every room its tokens and its credit limit (R96 to R98). -/
theorem exec_refillRound {s : State} (hallOn : s.pw.dev.hallOn = true) :
    let scale := max 1 (s.reg .HALL_QOS_CTRL_TOKEN_SCALE 0)
    let stage := s.reg .CHM_STATUS_STAGE 0
    exec .refillRound s = .next ({ s with rooms := s.rooms.map fun (x : Nat × Room) =>
      (x.1, { x.2 with
        tokens := x.2.cfg.weight * scale, limit := creditLimit x.2.cfg.credits stage }) } : State).settle :=
  if_neg (by simp [hallOn])

/-- Each phase of a persistent flush is answered, and nothing drains (R77). -/
theorem exec_globalPersistentFlush {s : State} (link : s.hp.link = .l0) (hallOn : s.pw.dev.hallOn = true)
    (phase : Fin 2) : exec (.globalPersistentFlush phase) s = .next (s.send (.gpf phase 1)) :=
  if_neg (by simp [link, hallOn])

/-! ### The host map buffer (R121 to R124) -/

/-- Placing leaves in the buffer changes no part of the host port. -/
theorem placeLeaf_hp (s : State) (owner addr : Nat) : (s.placeLeaf owner addr).hp = s.hp := by
  simp [State.placeLeaf]

section
variable {s : State} {r : Requester} (hallOn : s.pw.dev.hallOn = true)
  (management : s.isManagement (s.requesterOf r) = true)
include hallOn management

/-- ENABLE written 1 again changes only OWNER (log entry 22). -/
theorem exec_hmbEnable_again (enabled : s.flag .HALL_HMB_CTRL_ENABLE 0 = true) (owner : Requester) :
    exec (.hmbEnable r owner) s =
      .next ((s.setReg .HALL_HMB_CTRL_OWNER 0 owner).setFlag .HALL_HMB_CTRL_ENABLE 0 true) := by
  show execHmbEnable r owner s = _
  unfold execHmbEnable
  dsimp only
  rw [if_neg (by simp [hallOn]), if_neg (by simp [management]), if_pos enabled]

/-- ENABLE latches the owner, the base and the slots (R121, R145). -/
theorem exec_hmbEnable_latches (disabled : s.flag .HALL_HMB_CTRL_ENABLE 0 = false) (owner : Requester) :
    ∃ t, exec (.hmbEnable r owner) s = .next t ∧ t.hp.hmbInUse =
      some (owner.val, s.reg .HALL_HMB_BASE_ADDR 0 * 4096, min 16777216 (s.reg .HALL_HMB_SIZE_SLOTS 0)) := by
  show ∃ t, execHmbEnable r owner s = _ ∧ _
  unfold execHmbEnable
  dsimp only
  rw [if_neg (by simp [hallOn]), if_neg (by simp [management]), if_neg (by simp [disabled])]
  refine ⟨_, rfl, ?_⟩
  rw [proj_foldl _ _ (fun t => t.hp.hmbInUse) fun t i => by rw [placeLeaf_hp]]
  have latched (f : Fld) (h : f ≠ .HALL_HMB_CTRL_OWNER ∧ f ≠ .HALL_HMB_CTRL_ENABLE) :
      ((s.setReg .HALL_HMB_CTRL_OWNER 0 owner).setFlag .HALL_HMB_CTRL_ENABLE 0 true).reg f 0 = s.reg f 0 := by
    rw [State.setFlag, reg_setReg_other _ _ _ _ _ _ (by simp [h.2]), reg_setReg_other _ _ _ _ _ _ (by simp [h.1])]
  simp [latched]

/-- A withdrawal takes every leaf out of the buffer at once (R123; log entry 22). -/
theorem exec_hmbWithdrawal :
    let t := (s.setFlag .HALL_HMB_CTRL_ENABLE 0 false).count 451 s.hp.hmbLeaves.length
    let t : State := { t with hp := { t.hp with hmbLeaves := [], hmbCached := [], hmbInUse := none } }
    exec (.hmbWithdrawal r) s =
      .next ((t.setFlag .HALL_HMB_STATUS_ACTIVE 0 false).setFlag .HALL_HMB_STATUS_WITHDRAWN 0 true).settle := by
  show execHmbWithdrawal r s = _
  unfold execHmbWithdrawal
  dsimp only
  rw [if_neg (by simp [hallOn]), if_neg (by simp [management])]

end

/-- A fetch from the buffer: its group of entries arrives, or its MAC or its time fails and the buffer is dropped (R121,
R124). -/
theorem exec_hmbFetch {s : State} {room : RoomNo} {page : Nat}
    (held : (room.val, s.leafOf room page) ∈ s.hp.hmbLeaves) :
    let t := s.count 448 1
    exec (.hmbFetchData room page true false) s = .next ({ t with
        hp := { t.hp with hmbCached := t.entryGroup room page :: t.hp.hmbCached } } : State).settle ∧
      exec (.hmbFetchData room page false false) s = .next t.hmbStop.settle ∧
      exec (.hmbFetchTimeout room page) s = .next t.hmbStop.settle := by
  have fetches : ¬ (!s.hp.hmbLeaves.contains (room.val, s.leafOf room.val page)) = true := by simpa using held
  exact ⟨if_neg fetches, if_neg fetches, if_neg fetches⟩

/-- Settles O13: each clause is the lemma of its command (log entry 22). -/
theorem coherenceCommands : Obligations.CoherenceCommands := by
  refine ⟨fun _ _ _ _ _ _ _ _ first => exec_biRsp first, fun s r room page line x unanswered => ?_,
    fun _ _ _ waits asked resent => exec_requesterFailed waits asked resent, fun _ hallOn => exec_refillRound hallOn,
    fun _ phase link hallOn => exec_globalPersistentFlush link hallOn phase,
    fun _ _ owner hallOn management enabled => exec_hmbEnable_again hallOn management enabled owner,
    fun _ _ owner hallOn management disabled _ => exec_hmbEnable_latches hallOn management disabled owner,
    fun _ _ hallOn management => exec_hmbWithdrawal hallOn management, fun _ _ _ held => exec_hmbFetch held⟩
  exact ⟨_, exec_bisnpResend unanswered, by simp, by simp, by simp, by simp, by simp⟩

/-! ### The link (R63 to R69, R79, R105) -/

section
variable {s : State} {p : Partner} (dev : s.pw.dev = .boot ∨ s.pw.dev = .recovery ∨ s.pw.dev = .serving)
  (link : s.hp.link = .down ∨ s.hp.link = .training)
include dev link

/-- LINK_TRAINING acts while the Hall has power and the link is not up. -/
theorem link_trains : (!s.pw.dev.hallOn || s.hp.link == .l0 || s.hp.link == .recovery) = false := by
  have hallOn : s.pw.dev.hallOn = true := by rcases dev with d | d | d <;> rw [d] <;> rfl
  rcases link with l | l <;> simp [hallOn, l]

/-- Training with a partner that lacks what the port needs fails, and the link stays down (R63, R64; log entry 67). -/
theorem exec_linkTraining_fails (lacks : p.flit256 = false ∨ p.cxl = false ∨
      min (min 3 p.rate) (s.reg .HALL_HP_CTRL_MAX_RATE 0) = 0 ∨ p.width = 0) :
    exec (.linkTraining p) s =
      .next (({ s with hp := { s.hp with link := .down } } : State).emit srcTrainingFailure) := by
  show execLinkTraining p s = _
  unfold execLinkTraining
  rw [if_neg (by simp [link_trains dev link])]
  refine if_pos ?_
  rcases lacks with h | h | h | h <;> simp [h]

/-- Training ends with the link up at the highest common rate and width (R63; log entry 67). -/
theorem exec_linkTraining_up (flit : p.flit256 = true) (cxl : p.cxl = true)
    (rated : min (min 3 p.rate) (s.reg .HALL_HP_CTRL_MAX_RATE 0) ≠ 0) (wide : p.width ≠ 0) :
    let t : State := { s with hp := { s.hp with link := .l0 } }
    let t := (t.setFlag .HALL_HP_LINK_UP 0 true).setReg .HALL_HP_LINK_RATE 0
      (min (min 3 p.rate) (s.reg .HALL_HP_CTRL_MAX_RATE 0))
    let t := (t.setReg .HALL_HP_LINK_WIDTH 0 (min 3 p.width)).setFlag .HALL_HP_LINK_LOPT 0 p.lopt
    exec (.linkTraining p) s = .next (t.setFlag .HALL_HP_LINK_PBR 0 p.pbr).settle := by
  have running : (s.pw.dev == .halted) = false := by rcases dev with d | d | d <;> rw [d] <;> rfl
  show execLinkTraining p s = _
  unfold execLinkTraining
  rw [if_neg (by simp [link_trains dev link])]
  dsimp only
  rw [if_neg (by simpa [flit, cxl, wide] using rated)]
  simp only [State.setFlag_pw, State.setReg_pw, running, Bool.false_eq_true, if_false]

end

/-- The link enters Recovery from L0, for itself or by RETRAIN (R67, R105). -/
theorem linkRecovery_l0 {s : State} (link : s.hp.link = .l0) :
    s.linkRecovery = ({ s with hp := { s.hp with link := .recovery } } : State).setFlag .HALL_HP_LINK_UP 0 false :=
  if_pos (by simp [link])

/-- PERST_N resets the host port alone (R69). -/
theorem exec_perstN {s : State} (dev : s.pw.dev = .serving ∨ s.pw.dev = .recovery) :
    exec .perstN s = .next (s.portReset.emit srcPerst) := by
  show execPerstN s = _
  unfold execPerstN
  rcases dev with d | d <;> simp [d, DevState.hallOn]

/-- PERST_N in BOOT starts a BOOT again that found no image (R50). -/
theorem exec_perstN_boot {s : State} (dev : s.pw.dev = .boot) :
    exec .perstN s = .next { s with pw := { s.pw with bootTried := s.pw.bootTried && s.plan.isSome } } := by
  show execPerstN s = _
  unfold execPerstN
  rw [if_neg (by simp [dev, DevState.hallOn]), if_pos (by simp [dev])]

/-- Settles O18: each clause is the branch of its command for its link and device state (log entry 67). -/
theorem linkCommands : Obligations.LinkCommands :=
  ⟨fun _ _ dev link => ⟨fun flit cxl rated wide => exec_linkTraining_up dev link flit cxl rated wide,
      fun lacks => exec_linkTraining_fails dev link lacks⟩,
    fun _ link hallOn => if_pos (by simp [link, hallOn]),
    fun _ link => ⟨congrArg _ (linkRecovery_l0 link), congrArg _ (linkRecovery_l0 link)⟩,
    fun _ link => if_neg (by simp [link]),
    fun _ _ replays link => if_neg (by simp [replays, link]),
    fun _ link => if_neg (by rcases link with l | l <;> simp [l]),
    fun _ dev => exec_perstN dev,
    fun _ dev => exec_perstN_boot dev,
    fun _ => rfl,
    fun _ link => if_neg (by simp [link])⟩

/-! ### Keys and measurements (R89, R341) -/

/-- New keys make stream 0, CXL.cachemem, secure (R89, R90). -/
theorem exec_ideKeyProgram_mem {s : State} (hallOn : s.pw.dev.hallOn = true) :
    exec (.ideKeyProgram 0) s = .next (({ s with hp := { s.hp with
      insecure := s.hp.insecure &&& ~~~1#5, keyed := s.hp.keyed ||| 1#5 } } : State).setFlag
        .HALL_HP_LINK_IDE_MEM 0 true) :=
  if_neg (by simp [hallOn])

/-- New keys make a CXL.io stream secure (R89, R90). -/
theorem exec_ideKeyProgram_io {s : State} (hallOn : s.pw.dev.hallOn = true) {k : Fin 5} (io : k.val ≠ 0) :
    let bit := BitVec.ofNat 5 (2 ^ k.val)
    exec (.ideKeyProgram k) s = .next (({ s with hp := { s.hp with
      insecure := s.hp.insecure &&& ~~~bit, keyed := s.hp.keyed ||| bit } } : State).setReg
        .HALL_HP_LINK_IDE_IO 0 (s.reg .HALL_HP_LINK_IDE_IO 0 ||| 2 ^ (k.val - 1))) := by
  show execIdeKeyProgram k s = _
  unfold execIdeKeyProgram
  rw [if_neg (by simp [hallOn])]
  exact if_neg io

/-- A measurement block is answered with its digest, signed (R341). -/
theorem exec_spdmGetMeasurements {s : State} (hallOn : s.pw.dev.hallOn = true) {i : Nat} {ws : List Word}
    (block : s.measured i = some ws) :
    exec (.spdmGetMeasurements i) s = .next { s with
      out := s.out ++ [.spdm i (Config.measurement i ws) (Config.sign (Config.measurement i ws))] } := by
  show execSpdmGetMeasurements i s = _
  unfold execSpdmGetMeasurements
  rw [if_neg (by simp [hallOn]), block]
  rfl

/-! ### Message vectors (R95) -/

/-- A vector that may send its pending message sends it, and it is pending no longer. -/
theorem msixFlush_pending {s : State} {v : Nat} (valid : s.flag .HALL_MSIX_DEST_VALID v = true)
    (unmasked : v ∈ s.hp.msixUnmasked) (pending : v ∈ s.hp.msixPending) :
    s.msixFlush v = ({ s with hp := { s.hp with
      msixPending := s.hp.msixPending.filter fun x => x != v } } : State).send
        (.msix (s.reg .HALL_MSIX_DEST_DPID v) v) :=
  if_pos (by simp [State.msixOpen, valid, unmasked, pending])

/-- A destination made valid sends the pending message of its unmasked vector. -/
theorem exec_msixDestValid_pending {s : State} {v : Source} (hallOn : s.pw.dev.hallOn = true) (ok : RegsOk s.regs)
    (pending : v.val ∈ s.hp.msixPending) (unmasked : v.val ∈ s.hp.msixUnmasked) :
    exec (.msixDestValid v) s = .next (({ s.setFlag .HALL_MSIX_DEST_VALID v true with
      hp := { s.hp with msixPending := s.hp.msixPending.filter fun x => x != v.val } } : State).send
        (.msix (s.reg .HALL_MSIX_DEST_DPID v) v)) := by
  show execMsixDestValid v s = _
  unfold execMsixDestValid
  rw [if_neg (by simp [hallOn]), msixFlush_pending (flag_setFlag ok _ _ _ rfl) unmasked pending, State.setFlag,
    reg_setReg_other _ _ _ _ _ _ (by simp)]
  rfl

/-- The vectors unmasked once one of them is. -/
def unmaskVector (l : List Nat) (v : Nat) : List Nat := if l.contains v then l else l ++ [v]

theorem mem_unmaskVector (l : List Nat) (v : Nat) : v ∈ unmaskVector l v := by
  unfold unmaskVector
  split
  · next listed => simpa using listed
  · simp

/-- A vector unmasked sends its pending message to its valid destination. -/
theorem exec_msixUnmask_pending {s : State} {v : Source} (hallOn : s.pw.dev.hallOn = true)
    (pending : v.val ∈ s.hp.msixPending) (valid : s.flag .HALL_MSIX_DEST_VALID v = true) :
    exec (.msixUnmask v) s = .next (({ s with hp := { s.hp with
      msixUnmasked := unmaskVector s.hp.msixUnmasked v
      msixPending := s.hp.msixPending.filter fun x => x != v.val } } : State).send
        (.msix (s.reg .HALL_MSIX_DEST_DPID v) v)) := by
  have unmasks : (if s.hp.msixUnmasked.contains v.val then s
      else { s with hp := { s.hp with msixUnmasked := s.hp.msixUnmasked ++ [v.val] } }) =
      { s with hp := { s.hp with msixUnmasked := unmaskVector s.hp.msixUnmasked v } } := by
    unfold unmaskVector
    split <;> rfl
  show execMsixUnmask v s = _
  unfold execMsixUnmask
  dsimp only
  rw [if_neg (by simp [hallOn]), unmasks]
  exact congrArg _ (msixFlush_pending valid (mem_unmaskVector _ _) pending)

/-- Settles O19: keys, measurements, and the pending message of a vector that its destination or its mask held back. -/
theorem portSecurityCommands : Obligations.PortSecurityCommands := by
  refine ⟨fun s hallOn ok => ⟨_, exec_ideKeyProgram_mem hallOn, rfl, flag_setFlag ok _ _ _ rfl, rfl, ?_⟩,
    fun _ _ hallOn io => exec_ideKeyProgram_io hallOn io,
    fun _ _ _ hallOn block => exec_spdmGetMeasurements hallOn block,
    fun s v hallOn ok pending unmasked =>
      have valid : (s.setFlag .HALL_MSIX_DEST_VALID v true).flag .HALL_MSIX_DEST_VALID v = true :=
        flag_setFlag ok _ _ _ rfl
      ⟨_, exec_msixDestValid_pending hallOn ok pending unmasked, rfl, by simp, valid, ?_⟩,
    fun s v hallOn pending valid =>
      ⟨_, exec_msixUnmask_pending hallOn pending valid, rfl, mem_unmaskVector _ _, by simp, rfl⟩⟩
  · exact (SameRegs.refl _ s).flag _ _ _ (by simp)
  · have same : SameRegs [(.HALL_MSIX_DEST_VALID, v.val)] s (s.setFlag .HALL_MSIX_DEST_VALID v true) :=
      (SameRegs.refl _ s).flag _ _ _ (by simp)
    exact fun f i out => same f i out

/-! ### The mailbox (R100) -/

section
variable {s : State} {f : Sender} (may : MayCommand s f) (opcode : Nat)
include may

/-- A command that only reads answers Success with what it read. -/
theorem mailRead_next (payload : State → List Word) :
    (Host.Outcome.next (s.mailRead f opcode payload) : Result) =
      .next (s.mailAnswer f opcode .success (payload s)) :=
  mailbox_next may _ _ rfl

/-- A command that the device does not have is answered Unsupported. -/
theorem mailUnsupported_next :
    (Host.Outcome.next (s.mailUnsupported f opcode) : Result) = .next (s.mailAnswer f opcode .unsupported []) :=
  mailbox_next may _ _ rfl

end

/-- The mailbox is not reached by a requester that is no management requester (R543; log entry 66). -/
theorem mailbox_stranger {s : State} {f : Sender} (hallOn : s.pw.dev.hallOn = true) (host : f.landing = false)
    (stranger : s.isManagement (s.requesterOf f.requester) = false) (opcode : Nat)
    (run : State → State × RetCode × List Word) :
    s.mailbox f opcode run = s.barRefused (s.requesterOf f.requester) 0x0B010000 := by
  unfold State.mailbox
  rw [if_neg (by simp [hallOn]), if_pos (by simp [host, stranger])]

/-- Settles O20: each clause is a read of its words (log entry 65). -/
theorem mailboxReads : Obligations.MailboxReads := by
  intro s f may reply
  refine ⟨mailRead_next may _ _, fun log => mailRead_next may _ _, mailRead_next may _ _, fun p loaded => ?_,
    fun absent => ?_, mailRead_next may _ _, mailRead_next may _ _, mailRead_next may _ _, mailRead_next may _ _,
    mailRead_next may _ _, fun room => mailRead_next may _ _, mailRead_next may _ _, mailRead_next may _ _,
    fun room r present => ?_⟩
  · exact (mailRead_next may _ _).trans (by rw [loaded])
  · exact (mailRead_next may _ _).trans (by rw [absent])
  · exact mailbox_next may _ _ (by rw [present])

/-! ### Mailbox commands that write (R81, R101 to R103, R273, R495) -/

section
variable {s : State} {f : Sender} (may : MayCommand s f)
include may

/-- GET_TIMESTAMP is 0 while the time is not known (R230). -/
theorem exec_getTimestamp_unknown (unknown : s.timeState = 0) :
    exec (.getTimestamp f) s = .next (s.mailAnswer f 0x0300 .success [0]) :=
  mailbox_next may _ _ (if_pos (by simp [unknown]))

/-- GET_TIMESTAMP is rack time in ns, at an instant that the model leaves free (R230). -/
theorem exec_getTimestamp_known (known : s.timeState ≠ 0) :
    exec (.getTimestamp f) s = .next (s.fracNow.2.mailAnswer f 0x0300 .success
      [pword (rackNs s.fracNow.2.beat s.fracNow.1 (s.fracNow.2.reg .PRC_RT_FRAC_PERIOD 0))]) :=
  mailbox_next may _ _ (if_neg (by simp [known]))

/-- INJECT_POISON stores the line poisoned, and CLEAR_POISON the data it brings (R101, R273). -/
theorem exec_poison {room : RoomNo} {off : Nat} (line : s.offsetOk room off = true) :
    exec (.injectPoison f room off) s = .next ((s.deviceWrite room off 0 true).mailAnswer f 0x4301 .success []) ∧
      ∀ data, exec (.clearPoison f room off data) s =
        .next ((s.deviceWrite room off data false).mailAnswer f 0x4302 .success []) :=
  ⟨mailbox_next may _ _ (if_pos line), fun _ => mailbox_next may _ _ (if_pos line)⟩

/-- SANITIZE and SECURE_ERASE are refused while a requester holds an extent (R102). -/
theorem exec_erase_held (held : s.hp.extents ≠ []) :
    exec (.sanitize f) s = .next (s.mailAnswer f 0x4400 .invalidInput []) ∧
      exec (.secureErase f) s = .next (s.mailAnswer f 0x4401 .invalidInput []) :=
  ⟨mailbox_next may _ _ (if_pos (by simpa using held)), mailbox_next may _ _ (if_pos (by simpa using held))⟩

/-- SANITIZE waits for no other background command (R100). -/
theorem exec_sanitize_busy (free : s.hp.extents = []) (busy : s.hp.background ≠ none) :
    exec (.sanitize f) s = .next (s.mailAnswer f 0x4400 .busy []) :=
  mailbox_next may _ _ ((if_neg (by simp [free])).trans (if_pos (Option.isSome_iff_ne_none.2 busy)))

/-- SANITIZE runs in the background (R100, R102). -/
theorem exec_sanitize_begins (free : s.hp.extents = []) (idle : s.hp.background = none) :
    exec (.sanitize f) s = .next (({ s with
      hp := { s.hp with background := some .sanitize } } : State).mailAnswer f 0x4400 .background []) :=
  mailbox_next may _ _ ((if_neg (by simp [free])).trans (if_neg (by simp [idle])))

/-- SECURE_ERASE releases every page and renews the keys within its command (R102; log entry 66). -/
theorem exec_secureErase_done (free : s.hp.extents = []) :
    exec (.secureErase f) s =
      .next (((s.releaseAll false).renewKeys.settle).mailAnswer f 0x4401 .success []) :=
  mailbox_next may _ _ (if_neg (by simp [free]))

/-- RESTORE_REQUESTER restores a requester that has failed (R76). -/
theorem exec_restoreRequester {requester : Requester} (failed : requester.val ∈ s.hp.failed) :
    exec (.restoreRequester f requester) s = .next ((s.restore requester).mailAnswer f 0xC011 .success []) :=
  mailbox_next may _ _ (if_pos (by simpa using failed))

/-- The management requesters are set over Landing, and over no other way (R94, R103). -/
theorem exec_setManagementRequesters (list : Word) :
    exec (.setManagementRequesters f list) s = .next (if f.landing
      then (s.setMgmt list).mailAnswer f 0xC030 .success [] else s.mailAnswer f 0xC030 .unsupported []) := by
  cases way : f.landing with
  | true => exact mailbox_next may _ _ (if_pos way)
  | false => exact mailbox_next may _ _ (if_neg (by simp [way]))

end

/-- Settles O21: each clause is what its command runs (log entries 65 and 66). -/
theorem mailboxWrites : Obligations.MailboxWrites := by
  intro s f may reply
  refine ⟨fun log => mailbox_next may _ _ rfl, fun policy => mailbox_next may _ _ rfl,
    fun spare wear temp => mailbox_next may _ _ rfl, fun unknown => exec_getTimestamp_unknown may unknown,
    fun known => exec_getTimestamp_known may known, mailbox_next may _ _ rfl, fun room off line => exec_poison may line,
    fun free idle => exec_sanitize_begins may free idle, fun free => exec_secureErase_done may free,
    fun requester failed => exec_restoreRequester may failed, fun list way => ?_⟩
  exact (exec_setManagementRequesters may list).trans (by rw [if_pos way])

/-- Settles O23: each clause is the answer of its command; the mailbox register's refusal is log entry 66. -/
theorem mailboxRefusals : Obligations.MailboxRefusals := by
  refine ⟨fun s f may => ⟨mailUnsupported_next may _, mailUnsupported_next may _, mailUnsupported_next may _,
      fun opcode => mailUnsupported_next may _, fun held => exec_erase_held may held,
      fun free busy => exec_sanitize_busy may free busy, fun list way => ?_, fun room absent => ?_⟩,
    fun s f list hallOn host stranger =>
      ⟨congrArg _ (mailbox_stranger hallOn host stranger _ _), congrArg _ (mailbox_stranger hallOn host stranger _ _)⟩⟩
  · exact (exec_setManagementRequesters may list).trans (by rw [if_neg (by simp [way])])
  · exact mailbox_next may _ _ (by rw [absent])

/-! ### Extents, decoders and the end of a room (R73, R82, R140, R142, R322) -/

/-- ADD_DC_RESPONSE to an offer: the requester holds the extent from now on (R82). -/
theorem exec_addDcResponse_offered {s : State} {requester : Requester} {room : RoomNo} {region : Fin 8}
    {base size : Nat} (hallOn : s.pw.dev.hallOn = true) :
    let e : Extent :=
      { requester := s.requesterOf requester, room := room, region := region, base := base, size := size }
    e ∈ s.hp.offers → exec (.addDcResponse requester room region base size) s = .next (({ s with
      hp := { s.hp with offers := s.hp.offers.erase e, extents := s.hp.extents ++ [e] } } : State).mailAnswer
        ⟨requester, false⟩ 0x4802 .success []) := by
  intro e offered
  show execAddDcResponse requester room region base size s = _
  unfold execAddDcResponse
  rw [if_neg (by simp [hallOn])]
  exact if_pos (List.contains_iff_mem.2 offered)

/-- ADD_DC_RESPONSE to no offer is refused (R82). -/
theorem exec_addDcResponse_unoffered {s : State} {requester : Requester} {room : RoomNo} {region : Fin 8}
    {base size : Nat} (hallOn : s.pw.dev.hallOn = true)
    (unoffered : ({ requester := s.requesterOf requester, room := room, region := region, base := base
                    size := size } : Extent) ∉ s.hp.offers) :
    exec (.addDcResponse requester room region base size) s =
      .next (s.mailAnswer ⟨requester, false⟩ 0x4802 .invalidInput []) := by
  show execAddDcResponse requester room region base size s = _
  unfold execAddDcResponse
  rw [if_neg (by simp [hallOn])]
  exact if_neg (mt List.contains_iff_mem.1 unoffered)

/-- The walk of R140 over a room in removal ends: its pages are released, its key slot's floor raised, and the room is
gone; the unit record follows the last persistent room (R142, R322). -/
theorem exec_roomRemovalDone {s : State} {room : RoomNo} {r : Room} (present : s.room room = some r)
    (removing : r.state = .removing) (hallOn : s.pw.dev.hallOn = true) (quiet : s.roomHasRequests room = false) :
    let t := (((s.releasePages room ((s.roomPages room).map Prod.fst) false).1).raiseFloor r.cfg).freeRoom room
    exec (.roomRemovalDone room) s = .next (if r.cfg.persistent && t.rooms.all fun x => !x.2.cfg.persistent
      then t.putUnitRecord else t).settle := by
  show execRoomRemovalDone room s = _
  unfold execRoomRemovalDone
  rw [present]
  exact if_neg (by simp [removing, hallOn, quiet])

/-- Settles O24: an offer answered, the three ways of SET_DECODER, and the end of a removal (log entries 56 and 66). -/
theorem capacityCommands : Obligations.CapacityCommands :=
  ⟨⟨fun _ _ _ _ _ _ hallOn =>
      ⟨exec_addDcResponse_offered hallOn, fun unoffered => exec_addDcResponse_unoffered hallOn unoffered⟩,
    fun _ _ _ _ _ _ _ _ _ _ may =>
      ⟨fun empty => mailbox_next may _ _ (if_pos empty),
        fun sized ok => mailbox_next may _ _ ((if_neg sized).trans (if_pos ok)),
        fun sized bad => mailbox_next may _ _ ((if_neg sized).trans (if_neg (Bool.eq_false_iff.1 bad)))⟩⟩,
    fun _ _ _ present removing hallOn quiet => exec_roomRemovalDone present removing hallOn quiet⟩

/-! ### Pool commands (R424, R427, R428, R436) -/

section
variable {s : State} {f : Sender}

/-- A pool command at a member that is not the manager is answered Unsupported (R428). -/
theorem poolCommand_member (may : MayCommand s f) (member : s.isManager = false) (opcode : Nat)
    (run : State → State × Option (RetCode × List Word)) :
    s.poolCommand f opcode run = s.mailAnswer f opcode .unsupported [] := by
  obtain ⟨hallOn, way⟩ := may
  unfold State.poolCommand
  rw [if_neg (by simp [hallOn]), if_neg (by rcases way with h | h <;> simp [h]), if_pos (by simp [member])]

variable (may : MayManage s f)
include may

/-- DELIVER_AMENDMENT is refused where a quota would be exceeded (R424). -/
theorem exec_deliverAmendment_overQuota {member : Nat} {bytes : List Byte}
    (exceeds : s.overQuota ((roomsIn s.part bytes).foldl (dirApply member) s.poolRooms) = true) :
    exec (.deliverAmendment f member bytes) s = .next (s.mailAnswer f 0xC042 .success [pword quotaCause, 0]) :=
  pool_run may _ _ (if_pos exceeds)

/-- DELIVER_AMENDMENT to the manager itself is handled at once, and its result recorded (R416, R424). -/
theorem exec_deliverAmendment_own {bytes : List Byte}
    (within : s.overQuota ((roomsIn s.part bytes).foldl (dirApply s.index) s.poolRooms) = false)
    (settled : s.pl.evacuating = none) :
    exec (.deliverAmendment f s.index bytes) s = .next
      (((s.amend bytes).1.amendmentDone s.index (roomsIn s.part bytes) ((s.amend bytes).2.1 == 0)).mailAnswer f 0xC042
        .success [pword (s.amend bytes).2.1, pword (s.amend bytes).2.2]) := by
  refine pool_run may _ _ ?_
  dsimp only
  rw [if_neg (by simp [within]), if_neg (by simp [settled]), State.handIn, if_pos rfl]

/-- DELIVER_AMENDMENT to another member is sent on, and answered when AMD_RESULT comes (R416, R428). -/
theorem exec_deliverAmendment_sent {member : Nat} {bytes : List Byte}
    (within : s.overQuota ((roomsIn s.part bytes).foldl (dirApply member) s.poolRooms) = false)
    (settled : s.pl.evacuating = none) (other : member ≠ s.index) :
    exec (.deliverAmendment f member bytes) s =
      .next (s.sendAmendment member bytes (roomsIn s.part bytes) (some f)) := by
  refine pool_none may 0xC042 _ ?_
  dsimp only
  rw [if_neg (by simp [within]), if_neg (by simp [settled]), State.handIn, if_neg other]

/-- MIGRATE_ROOM starts the migration of a room in none, to another member that can be reached and has no room of its
number (R429). -/
theorem exec_migrateRoom {room : RoomNo} {source target : Nat} {d : DirRoom}
    (found : s.poolRooms.find? (fun d => d.device == source && d.room == room.val) = some d) (still : d.step = 0)
    (vacant : (s.poolRooms.any fun d => d.device == target && d.room == room.val) = false) (apart : source ≠ target)
    (reached : target = s.index ∨ s.reaches target = true) :
    exec (.migrateRoom f room source target) s =
      .next ((s.startMigration d target).mailAnswer f 0xC044 .success []) := by
  refine pool_run may _ _ ?_
  dsimp only
  rw [found, vacant]
  exact if_neg (by rcases reached with rfl | h <;> simp [*])

/-- EVACUATE of a member that can be reached starts (R436). -/
theorem exec_evacuate {member : Nat} (reached : member = s.index ∨ s.reaches member = true) :
    exec (.evacuate f member) s = .next ((s.evacuate member).mailAnswer f 0xC045 .success []) :=
  pool_run may _ _ (if_pos (by simpa using reached))

/-- POOL_SNAPSHOT at a beat 256 ahead goes to every member, and arms the manager's own (R427). -/
theorem exec_poolSnapshot {beat : Word} (ahead : s.beat + 256 ≤ beat.toNat) :
    exec (.poolSnapshot f beat) s = .next (((s.memberList.foldl
      (fun (u : State) m => u.landingSend m 0x08 [beat]) s).armAt beat.toNat).mailAnswer f 0xC046 .success []) :=
  pool_run may _ _ (if_neg (by omega))

end

/-- RELEASE_DC of a part of an extent held: the rest stays, the offers deferred for it are made, and a forwarding room
may lose its last holder (R83, R84, R86, R433). -/
theorem exec_releaseDc {s : State} {q : Requester} {room : RoomNo} {region : Fin 8} {base size : Nat} {e : Extent}
    {others : List Extent} (hallOn : s.pw.dev.hallOn = true) (front : s.hp.extents = e :: others)
    (own : e.requester = s.requesterOf q) (inRoom : e.room = room.val) (inRegion : e.region = region.val)
    (part : e.part base size = true)
    (few : s.extentsOf (s.requesterOf q) - 1 + (e.rest base size).length ≤ 256) :
    exec (.releaseDc q room region base size) s = .next ((((({ s with
      hp := { s.hp with extents := others ++ e.rest base size } } : State).formerOver room).mailAnswer ⟨q, false⟩ 0x4803
        .success []).offerDeferred (s.requesterOf q)).holdersGone room) := by
  have first : takeFirst (fun (e : Extent) => e.requester == s.requesterOf q && e.room == room.val &&
      e.region == region.val && e.part base size) s.hp.extents = some (e, others) := by
    rw [front]
    exact if_pos (by simp [own, inRoom, inRegion, part])
  show execReleaseDc q room region base size s = _
  unfold execReleaseDc
  dsimp only
  rw [if_neg (by simp [hallOn]), first]
  exact if_neg (Nat.not_lt.2 few)

/-- Settles O47: each clause is what its command runs at the manager, its answer at another member, or the release of an
extent by a host (log entries 47, 49 and 65). -/
theorem poolCommands : Obligations.PoolCommands := by
  refine ⟨fun s f may => ⟨pool_run may _ _ rfl, pool_run may _ _ rfl, fun r n => pool_run may _ _ rfl,
      fun member bytes => ⟨fun exceeds => exec_deliverAmendment_overQuota may exceeds, fun within settled own => ?_,
        fun within settled other => exec_deliverAmendment_sent may within settled other⟩,
      fun room source target d found still vacant apart reached =>
        exec_migrateRoom may found still vacant apart reached,
      fun member reached => exec_evacuate may reached, fun beat ahead => exec_poolSnapshot may ahead⟩,
    fun s f may member =>
      ⟨congrArg _ (poolCommand_member may member _ _), congrArg _ (poolCommand_member may member _ _)⟩,
    fun s q room region base size e others hallOn front own inRoom inRegion part few =>
      exec_releaseDc hallOn front own inRoom inRegion part few⟩
  subst own
  exact exec_deliverAmendment_own may within settled

/-! ### Register accesses that do not act (R93, R467, R532, R543) -/

/-- BAR0 from a requester that is no management requester: a read is answered Unsupported, and each access is discarded
with an event (R543). -/
theorem exec_bar0_stranger {s : State} {r : Requester} (hallOn : s.pw.dev.hallOn = true) (behind : s.hp.behind = [])
    (stranger : s.isManagement (s.requesterOf r) = false) (events : ∀ x ∈ s.fl.stalled, x.2.1 ≠ s.requesterOf r)
    (pages : ∀ x ∈ s.cb.waiting, x.2.2.1 ≠ s.requesterOf r) (offset width : Nat) (within fetchOk : Bool) (v : Word) :
    exec (.registerRead .bar0 r offset width within fetchOk) s =
        .next ((s.send (.regUnsupported (s.requesterOf r) offset)).barRefused (s.requesterOf r) offset) ∧
      exec (.registerWrite .bar0 r offset width v) s = .next (s.barRefused (s.requesterOf r) offset) := by
  have unstalled (block : Nat) : s.stalledAt (s.requesterOf r) block = false := by
    simp only [State.stalledAt, Bool.or_eq_false_iff, Bool.and_eq_false_iff, List.any_eq_false, beq_iff_eq,
      Bool.and_eq_true, not_and]
    exact ⟨fun x h e => absurd e (events x h), .inr pages⟩
  have refuses : (!s.isManagement (s.requesterOf r)) = true := by simp [stranger]
  constructor
  · refine congrArg _ ((run_bar hallOn behind _ (by simp) (by simp [State.heldBack, unstalled])).trans ?_)
    exact if_pos refuses
  · refine congrArg _ ((run_bar hallOn behind _ (by simp) (by simp [State.heldBack, unstalled])).trans ?_)
    exact if_pos refuses

/-- A counter page reads zero to a requester that may not read it (R532). -/
theorem counterPageWord_withheld {s : State} {q offset : Nat} {x : Room} (present : s.room (offset / 0x2000) = some x)
    (stranger : s.isManagement q = false) (withheld : x.cfg.counterAccess = false ∨ x.cfg.admits q = false) :
    s.counterPageWord q offset = 0 := by
  unfold State.counterPageWord
  dsimp only
  rw [present]
  exact if_pos (by rcases withheld with h | h <;> simp [stranger, h])

/-- The same of a read over BAR4. -/
theorem exec_registerRead_bar4_withheld {s : State} {r : Requester} {offset : Nat} {x : Room}
    (hallOn : s.pw.dev.hallOn = true) (behind : s.hp.behind = []) (aligned : offset % 8 = 0)
    (present : s.room (offset / 0x2000) = some x) (stranger : s.isManagement (s.requesterOf r) = false)
    (withheld : x.cfg.counterAccess = false ∨ x.cfg.admits (s.requesterOf r) = false) (within fetchOk : Bool) :
    exec (.registerRead .bar4 r offset 8 within fetchOk) s = .next (s.send (.regData (s.requesterOf r) offset 0)) := by
  refine congrArg _ ((run_bar hallOn behind _ (by simp) rfl).trans ?_)
  refine (if_neg (by simp [Access.odd, aligned])).trans ?_
  dsimp only
  rw [aligned_place aligned, counterPageWord_withheld present stranger withheld]
  rfl

/-- The Porch does not answer over I3C while the Hall has power (R467). -/
theorem exec_i3c_silent {s : State} (silent : s.porchAnswers = false) (r : Requester) (offset width : Nat)
    (within fetchOk : Bool) (v : Word) :
    exec (.registerRead .i3c r offset width within fetchOk) s = .next s ∧
      exec (.registerWrite .i3c r offset width v) s = .next s := by
  have noAccess (a : Access) (path : a.path = .i3c) : s.access a = s := by
    unfold State.access
    rw [if_pos (by simp [path]), if_neg (by simp [silent])]
  exact ⟨congrArg _ (noAccess _ rfl), congrArg _ (noAccess _ rfl)⟩

/-- A register of the Porch is read over I3C while the Hall is off (R467, R559). -/
theorem exec_registerRead_i3c {s : State} (answers : s.porchAnswers = true) {offset : Nat} {p : RegPlace}
    (place : placeOf (offset / 8 * 8) = some p) (porch : p.porch = true) (timeless : p.block ≠ .prcRt) (r : Requester)
    (width : Nat) (within fetchOk : Bool) :
    exec (.registerRead .i3c r offset width within fetchOk) s =
      .next (s.send (.regData r.val offset (s.regValue p))) := by
  show execRegisterRead _ _ _ _ _ _ _ = _
  unfold execRegisterRead State.access State.accessNow State.read
  simp [answers, place, porch, timeless]

/-- Settles O49: each clause is the lemma of its path. -/
theorem registerRefusals : Obligations.RegisterRefusals := by
  intro s r offset width within fetchOk v q
  refine ⟨fun hallOn behind => ⟨fun stranger events pages =>
        exec_bar0_stranger hallOn behind stranger events pages offset width within fetchOk v,
      exec_registerRead_bar2 hallOn behind r offset width within fetchOk,
      congrArg _ (run_bar hallOn behind _ (by simp) rfl),
      fun x aligned present stranger withheld =>
        exec_registerRead_bar4_withheld hallOn behind aligned present stranger withheld within fetchOk⟩,
    fun silent => exec_i3c_silent silent r offset width within fetchOk v,
    fun answers p place porch timeless =>
      exec_registerRead_i3c answers place porch timeless r width within fetchOk⟩

end Sys2Proof.Machine
end

section
/-! PROOF. The rooms' statements: lines never written and poisoned pages (O17), what the media packages report (O11), and
the copies, zeroes and page commands of a Stair channel (O37). -/

namespace Sys2Proof.Machine

/-! ### Reads of a room's lines (R117, R125, R128) -/

section
variable {s : State} {room page : Nat} {r : Room} (present : s.room room = some r)
include present

/-- A line with minor counter 0 in a page that a home serves, neither poisoned nor lost, reads as zero and is fetched from
nowhere (R125). -/
theorem readAt_unwritten (served : s.unreachable r.cfg room page = false)
    (clean : (s.page room page).entry.poison = false) (kept : (s.page room page).entry.lost = false) {line : Nat}
    (unwritten : ((s.page room page).block (s.floorOf r.cfg)).minor line = 0) :
    s.readAt room page line = .done 0 false 3 := by
  unfold State.readAt
  rw [present]
  dsimp only
  rw [if_neg (by simp [served, clean, kept]), if_pos (by simp [unwritten])]

/-- A line of a poisoned page reads as poison (R117, R128). -/
theorem readAt_poisoned (poisoned : (s.page room page).entry.poison = true) (line : Nat) :
    s.readAt room page line = .done 0 true 2 := by
  unfold State.readAt
  rw [present]
  dsimp only
  rw [if_pos (by simp [poisoned])]

end

/-- A page with nothing stored has minor counter 0 in every line (R118, R321). -/
theorem minor_blank (floor line : Nat) : (Page.blank.block floor).minor line = 0 := rfl

/-- Settles O17: a page with nothing stored is one whose lines were never written. -/
theorem lineReads : Obligations.LineReads := by
  intro s room page line r present served
  refine ⟨fun blank _ => ?_, fun poisoned => readAt_poisoned present poisoned line,
    fun clean kept unwritten => readAt_unwritten present served clean kept unwritten⟩
  refine readAt_unwritten present served ?_ ?_ ?_ <;> rw [blank]
  · rfl
  · rfl
  · exact minor_blank _ _

/-! ### Reads of media lines (R187, R197, R202 to R204) -/

/-- A package in service takes reads: its cellar is up and not in reset, the package is fitted and the Hall has power. -/
theorem mediaRead_acts {s : State} {c : Cellar} {p : Pkg} (up : s.cellarUp c = true) (fitted : p.val ∈ s.packages c)
    (hallOn : s.pw.dev.hallOn = true) (runs : s.inReset (.cellar c) = false) :
    ¬ (!s.cellarUp c || !(s.packages c).contains p.val || !s.pw.dev.hallOn || s.inReset (.cellar c)) = true := by
  simp [up, fitted, hallOn, runs]

section
variable {s : State} {c : Cellar} {p : Pkg} {frame : Nat} {f : Frame} (found : s.frame (frameAt c p frame) = some f)
  (up : s.cellarUp c = true) (fitted : p.val ∈ s.packages c) (hallOn : s.pw.dev.hallOn = true)
  (runs : s.inReset (.cellar c) = false) {ml : MediaLineNo} {reads : List Sys2Proof.Decoded}
  {arrived : Option (List StoredLine)}
include found up fitted hallOn runs

/-- A sequence of reads that is not over counts its bad transfers and nothing else (R187). -/
theorem exec_mediaReadData_unfinished (ended : readEnd (s.readPlan f).limit reads 0 0 0 = .unfinished) :
    exec (.mediaReadData c p frame ml reads arrived) s =
      .next (s.busCrcs (frameAt c p frame) ml (reads.countP fun d => d == .busCrc)) := by
  have acts := mediaRead_acts up fitted hallOn runs
  simp only [exec, execMediaReadData, found, if_neg acts, ended]

/-- A package whose strobe or whose transfers fail to the last repeat is lost, with a timeout (R187, R197). -/
theorem exec_mediaReadData_pkgFailed (ended : readEnd (s.readPlan f).limit reads 0 0 0 = .pkgFailed) :
    let a := frameAt c p frame
    let u := s.busCrcs a ml (reads.countP fun d => d == .busCrc)
    exec (.mediaReadData c p frame ml reads arrived) s =
      .next (((u.satReg .CEL_ERR1_TIMEOUT c 1).errLoc a ml 7 0).losePackage c p).mediaStep := by
  have acts := mediaRead_acts up fitted hallOn runs
  simp only [exec, execMediaReadData, found, if_neg acts, ended]

/-- Any other verdict is counted and taken to the page of the frame, and no patrol read is counted where a request waits
for the line (R202 to R204, log entry 25). -/
theorem exec_mediaReadData_verdict {v : ReadEnd} (ended : readEnd (s.readPlan f).limit reads 0 0 0 = v)
    (complete : v ≠ .unfinished) (sound : v ≠ .pkgFailed) {room page : Nat} :
    let a := frameAt c p frame
    let plan := s.readPlan f
    let u := s.busCrcs a ml (reads.countP fun d => d == .busCrc)
    let t := (u.countOutcome a ml plan reads.length v).clearMisses c p [0, 2]
    t.pageOf a = some (room, page) → (∃ i < 4, t.mediaWaiters room page (4 * ml + i) ≠ []) →
    exec (.mediaReadData c p frame ml reads arrived) s =
      .next ((t.mediaLine a room page ml v (plan == ReadPlan.search) arrived).settle.resumeBank a).drainAdvance := by
  intro a plan u t holds waits
  have wanted : ((List.range 4).any fun i => !(t.mediaWaiters room page (4 * ml + i)).isEmpty) = true := by
    simpa using waits
  have acts := mediaRead_acts up fitted hallOn runs
  simp only [exec, execMediaReadData, found, if_neg acts, ended]
  change t.pageOf _ = _ at holds
  cases v with
  | unfinished => exact absurd rfl complete
  | pkgFailed => exact absurd rfl sound
  | clean | corrected _ | retried | uncorrectable =>
    dsimp only
    rw [holds]
    dsimp only
    rw [if_pos]
    exact wanted
end

/-! ### Temperatures, alerts and missing answers (R195, R197, R474) -/

section
variable {s : State} {c : Cellar} {p : Pkg} (fitted : c.val ∈ s.cellars) (hallOn : s.pw.dev.hallOn = true)
include fitted hallOn

/-- A temperature is stored in its register, and moves the package in or out of the media-write and the drain-write
window (R195, R474, log entry 26). -/
theorem exec_tempRead (v : BitVec 16) :
    let t := s.setReg (tempFld p) c v.toNat
    let u := c.val * 8 + p.val
    let w := fun (f : Fld) => signed16 (s.reg f 0)
    let held := holdNow (s.md.held.contains u) (w .CHM_WIN0_MEDIA_LO) (w .CHM_WIN0_MEDIA_HI) v.toInt
    let drain := holdNow (s.md.drainHeld.contains u) (w .CHM_WIN0_DRAIN_LO) (w .CHM_WIN0_DRAIN_HI) v.toInt
    let t : State := { t with md := { t.md with
      held := setHeld s.md.held u held, drainHeld := setHeld s.md.drainHeld u drain } }
    exec (.tempRead c p (some v)) s = .next ((t.clearMisses c p [1]).holdLevels c).mediaStep :=
  if_neg (by simp [fitted, hallOn])

/-- ALERT_N sets the ALERT flag of its cellar (R195, R474; log entry 26). -/
theorem exec_alertN : exec (.alertN c) s = .next (s.setFlag .CEL_STATUS_ALERT c true) :=
  if_pos (by simp [fitted, hallOn])

variable (enabled : p.val ∈ s.packages c)
include enabled

/-- One missing completion loses the package, with a timeout (R197). -/
theorem exec_mediaTimeout_completion :
    exec (.mediaTimeout c p .completion) s =
      .next ((((s.satReg .CEL_ERR1_TIMEOUT c 1).errLoc (frameAt c p 0) 0 7 0).losePackage c p).mediaStep) :=
  if_neg (by simp [fitted, hallOn, enabled])

/-- A missing strobe is a timeout that counts towards the third in a row, which loses the package (R197). -/
theorem exec_mediaTimeout_readStrobe :
    let t := (s.satReg .CEL_ERR1_TIMEOUT c 1).errLoc (frameAt c p 0) 0 7 0
    exec (.mediaTimeout c p .readStrobe) s = .next
      (if (t.miss c p 0 3).2 then ((t.miss c p 0 3).1.losePackage c p).mediaStep else (t.miss c p 0 3).1) :=
  if_neg (by simp [fitted, hallOn, enabled])

end

/-! ### The switch of a migrated page (R132, R135, R217) -/

/-- A page that was released meanwhile has no frame to leave, and its migration's target goes instead (R132). -/
theorem exec_frameMigrationSwitch_released {s : State} {room : RoomNo} {page : Nat} {b : FrameAddr}
    (migrating : pageKey room page ∈ s.md.wear) :
    let t : State := { s with md := { s.md with wear := s.md.wear.filter fun x => x != pageKey room page } }
    t.moveTarget room page = some b → (t.page room page).entry.frame = none →
    exec (.frameMigrationSwitch room page) s = .next (t.leaveFrame b).mediaStep := by
  intro t target released
  show execFrameMigrationSwitch room page s = _
  unfold execFrameMigrationSwitch
  dsimp only
  rw [if_neg (by simp [migrating]), target]
  dsimp only
  rw [released]

/-- A page of a room that is not braced moves: its entry names the target and is journalled, the target is in use from
this age unit on, its queued write-back goes there, and the old frame is left (R135, R217). -/
theorem exec_frameMigrationSwitch_moves {s : State} {room : RoomNo} {page : Nat} {a b : FrameAddr} {f : Frame}
    (migrating : pageKey room page ∈ s.md.wear) :
    let t : State := { s with md := { s.md with wear := s.md.wear.filter fun x => x != pageKey room page } }
    let e := { (t.page room page).entry with frame := some b }
    let u := (t.setPage room page { t.page room page with entry := e }).journalEntry room page e
    let v := u.setFrame b { f with st := 2, age := u.ageUnit, ageUnknown := false }
    let w : State := { v with md := { v.md with queue := v.md.queue.map fun (o : MediaOp) =>
      if o.kind == (OpKind.writeBack (pageKey room page)) then { o with at_ := b, cellar := b.cellar } else o } }
    t.moveTarget room page = some b → (t.page room page).entry.frame = some a →
    (t.page room page).entry.lost = false → u.frame b = some f → v.isBraced room = false →
    exec (.frameMigrationSwitch room page) s =
      .next ((((w.leaveFrame a).emit (srcAlloc b.wing 2)).count (512 + 768 * b.wing + 707) 1)).mediaStep := by
  intro t e u v w target holds kept found plain
  show execFrameMigrationSwitch room page s = _
  unfold execFrameMigrationSwitch
  dsimp only
  rw [if_neg (by simp [migrating]), target]
  dsimp only
  split
  · next a' holds' _ =>
    obtain rfl : a = a' := Option.some.inj (holds.symm.trans holds')
    rw [found]
    dsimp only
    rw [if_neg]
    exact Bool.eq_false_iff.1 plain
  · next stays => exact absurd kept (stays a holds)

/-- Settles O11: each clause is the lemma of its report or of its switch (log entries 25 and 26). -/
theorem packageCommands : Obligations.PackageCommands :=
  ⟨fun _ _ _ _ _ _ _ _ found up fitted hallOn runs =>
      ⟨fun ended => exec_mediaReadData_unfinished found up fitted hallOn runs ended,
        fun ended => exec_mediaReadData_pkgFailed found up fitted hallOn runs ended,
        fun complete sound _ _ => exec_mediaReadData_verdict found up fitted hallOn runs rfl complete sound⟩,
    fun _ _ _ v fitted hallOn => exec_tempRead fitted hallOn v,
    fun _ _ fitted hallOn => exec_alertN fitted hallOn,
    fun _ _ _ fitted enabled hallOn => ⟨exec_mediaTimeout_completion fitted hallOn enabled,
      exec_mediaTimeout_readStrobe fitted hallOn enabled⟩,
    fun _ _ _ _ migrating => exec_frameMigrationSwitch_released migrating,
    fun _ _ _ _ _ _ migrating => exec_frameMigrationSwitch_moves migrating⟩

/-! ### Transfers and page commands of a Stair channel (R385 to R387, R392) -/

/-- What a channel's command that is not over comes to, from what its run gives. -/
theorem onCommand_next {s t : State} {ch : StairCh} {op : Nat} {c : Channel} (h : OnChannel s ch op c)
    {run : State → Channel → StairCmd → State} (gives : run s c (stairCmd c.cmd) = t) :
    s.onCommand ch.val op run = .next t.settle := by
  rw [onCommand_run h, gives]

section
variable {s : State} {ch : StairCh} {c : Channel}

/-- A copy whose source has been read goes on with its writes (R386). -/
theorem exec_copy_loaded (h : OnChannel s ch 1 c) (loaded : c.loaded = true) (source : List Byte) :
    exec (.copy ch source) s = .next (s.stairGo ch).settle :=
  show execCopy ch source s = _ from onCommand_next h (if_pos loaded)

/-- A copy reads its source whole, and then writes it (R386). -/
theorem exec_copy_reads (h : OnChannel s ch 1 c) (fresh : c.loaded = false) {source : List Byte}
    {bs : List (Byte × Bool)} :
    let d := stairCmd c.cmd
    s.stairReadHeld c.ring d.sspace d.sid d.src d.len = false →
    s.stairRead c.ring d.sspace d.sid d.src d.len source = .ok bs →
    exec (.copy ch source) s = .next ((((s.stairReads ch d.sspace d.sid d.src d.len).modChan ch fun c =>
      { c with loaded := true, todo := writesOf d.dspace d.did d.dst bs }).stairGo ch).settle) := by
  intro d free read
  show execCopy ch source s = _
  unfold execCopy
  refine onCommand_next h ?_
  dsimp only
  rw [if_neg (by simp [fresh]), if_neg (by simp [free, d]), read]

/-- A copy whose source cannot be read ends with the status of the read (R385). -/
theorem exec_copy_fails (h : OnChannel s ch 1 c) (fresh : c.loaded = false) {source : List Byte} {st : Nat} :
    let d := stairCmd c.cmd
    s.stairReadHeld c.ring d.sspace d.sid d.src d.len = false →
    s.stairRead c.ring d.sspace d.sid d.src d.len source = .error st →
    exec (.copy ch source) s = .next (s.endChan ch st 0).settle := by
  intro d free failed
  show execCopy ch source s = _
  unfold execCopy
  refine onCommand_next h ?_
  dsimp only
  rw [if_neg (by simp [fresh]), if_neg (by simp [free, d]), failed]

/-- A ZERO that has begun goes on with its writes (R386). -/
theorem exec_zero_loaded (h : OnChannel s ch 2 c) (loaded : c.loaded = true) :
    exec (.zero ch) s = .next (s.stairGo ch).settle :=
  show execZero ch s = _ from onCommand_next h (if_pos loaded)

/-- A ZERO writes zeroes to the lines of its range that do not read as zero already (R386). -/
theorem exec_zero_begins (h : OnChannel s ch 2 c) (fresh : c.loaded = false) :
    let d := stairCmd c.cmd
    exec (.zero ch) s = .next (((s.modChan ch fun c => { c with
      loaded := true
      todo := (writesOf d.dspace d.did d.dst (List.replicate d.len (0, false))).filter fun w =>
        !s.zeroSkips c.ring w }).stairGo ch).settle) :=
  show execZero ch s = _ from onCommand_next h (if_neg (by simp [fresh]))

/-- A release begins once no request of its range is at a tracker (R130, R131; log entries 20 and 40). -/
theorem exec_release_idle (idle : s.rangeBusy (stairCmd c.cmd).did ((stairCmd c.cmd).dst / 4096)
      ((stairCmd c.cmd).len / 4096) = false) :
    let d := stairCmd c.cmd
    (OnChannel s ch 3 c →
      exec (.release ch) s = .next (s.overPages ch c d (State.releaseStep d.did false)).settle) ∧
    (OnChannel s ch 4 c →
      exec (.secureRelease ch) s = .next (s.overPages ch c d (State.releaseStep d.did true)).settle) :=
  ⟨fun h => show execRelease ch s = _ from onCommand_next h (if_neg (by simp [idle])),
    fun h => show execSecureRelease ch s = _ from onCommand_next h (if_neg (by simp [idle]))⟩

/-- PREFETCH and PIN run over the pages of a room whose TIER is not 2 (R169, R387). -/
theorem exec_prefetch_pin (tiered : s.tier2 (stairCmd c.cmd).did = false) :
    let d := stairCmd c.cmd
    (OnChannel s ch 5 c → exec (.prefetch ch) s = .next (s.overPages ch c d (State.prefetchStep d.did)).settle) ∧
    (OnChannel s ch 6 c → exec (.pin ch) s = .next (s.overPages ch c d (State.pinStep d.did)).settle) :=
  ⟨fun h => show execPrefetch ch s = _ from onCommand_next h (if_neg (by simp [tiered])),
    fun h => show execPin ch s = _ from onCommand_next h (if_neg (by simp [tiered]))⟩

/-- A TIER 2 room refuses PREFETCH and PIN whatever their range holds (R387). -/
theorem exec_prefetch_pin_tier2 (tier2 : s.tier2 (stairCmd c.cmd).did = true) :
    (OnChannel s ch 5 c → exec (.prefetch ch) s = .next (s.endChan ch 0x16 0).settle) ∧
    (OnChannel s ch 6 c → exec (.pin ch) s = .next (s.endChan ch 0x16 0).settle) :=
  ⟨fun h => show execPrefetch ch s = _ from onCommand_next h (if_pos tier2),
    fun h => show execPin ch s = _ from onCommand_next h (if_pos tier2)⟩

/-- UNPIN runs over the pages of its range, and what its room's policy or a ring command still pins is pinned again (R169,
R386, R387). -/
theorem exec_unpin (h : OnChannel s ch 7 c) :
    let d := stairCmd c.cmd
    exec (.unpin ch) s = .next (s.overPages ch c d (State.unpinStep d.did)).repin.settle :=
  show execUnpin ch s = _ from onCommand_run h _

/-- A PERSIST_BARRIER ends once no earlier command of its ring is left (R392, log entry 40). -/
theorem exec_persistBarrier_ends (h : OnChannel s ch 8 c) (alone : s.earlierBusy c = false) :
    exec (.persistBarrier ch) s = .next (s.endChan ch 0 0).settle :=
  show execPersistBarrier ch s = _ from onCommand_next h (if_neg (by simp [alone]))

end

/-- Settles O37: each clause is what its command runs on its channel (log entries 20, 40 and 41). -/
theorem stairTransfers : Obligations.StairTransfers :=
  ⟨fun _ _ _ => ⟨fun h source => ⟨fun loaded => exec_copy_loaded h loaded source, fun fresh free =>
        ⟨fun _ read => exec_copy_reads h fresh free read, fun _ failed => exec_copy_fails h fresh free failed⟩⟩,
      fun h => ⟨exec_zero_loaded h, exec_zero_begins h⟩⟩,
    fun _ _ _ => ⟨fun h idle => (exec_release_idle idle).1 h, fun h idle => (exec_release_idle idle).2 h,
      fun h tiered => (exec_prefetch_pin tiered).1 h, fun h tiered => (exec_prefetch_pin tiered).2 h,
      fun h tier2 => (exec_prefetch_pin_tier2 tier2).1 h, fun h tier2 => (exec_prefetch_pin_tier2 tier2).2 h,
      exec_unpin, exec_persistBarrier_ends⟩⟩

end Sys2Proof.Machine
end

section
/-! PROOF. The Pantry and Larder family: the calendar's events while it runs (O9), and the programs issued at a slot with
what a status record says of them (O10). -/

namespace Sys2Proof.Machine

/-! ### Registers alone change -/

/-- Nothing but the register table differs. -/
def OnlyRegs (s t : State) : Prop := t = { s with regs := t.regs }

theorem OnlyRegs.refl (s : State) : OnlyRegs s s := rfl

theorem OnlyRegs.setReg {s t : State} (h : OnlyRegs s t) (f : Fld) (i v : Nat) : OnlyRegs s (t.setReg f i v) :=
  (congrArg (fun u : State => { u with regs := (t.setReg f i v).regs }) h :)

theorem OnlyRegs.satReg {s t : State} (h : OnlyRegs s t) (f : Fld) (i n : Nat) : OnlyRegs s (t.satReg f i n) :=
  h.setReg f i _

theorem OnlyRegs.foldl {α : Type} {f : State → α → State} {s t : State} (h : OnlyRegs s t)
    (step : ∀ {t} x, OnlyRegs s t → OnlyRegs s (f t x)) (l : List α) : OnlyRegs s (l.foldl f t) := by
  induction l generalizing t with
  | nil => exact h
  | cons x l ih => exact ih (step x h)

/-! ### Events of the calendar (R249, R251, R254, R331, R332, R497) -/

section
variable {s : State} (runs : s.calendarRuns = true)
include runs

/-- A running calendar writes its checkpoint and its anchor and flushes the Attic (R331, R332, R497). -/
theorem exec_calendar_records : exec .checkpoint s = .next s.checkpointNow ∧
    exec .cupboardAnchor s = .next s.anchorNow ∧ exec .atticFlush s = .next s.flushAttic :=
  ⟨if_pos runs, if_pos runs, if_pos runs⟩

/-- A descriptor line is one metadata program behind the package's data frames (R254, R257). -/
theorem exec_descriptorRewrite {c : Cellar} {p : Pkg} {m : MediaProfile} (profile : s.profile c = some m)
    (up : s.cellarUp c = true) (fitted : p.val ∈ s.packages c) (line : Nat) (copy : Fin 2) :
    exec (.descriptorRewrite c p line copy) s = .next (s.queueOp (mediaOp .metadata 4
      (frameAt c p (m.frames + (2 * line + copy) / 16)) ((2 * line + copy) % 16))) := by
  show execDescriptorRewrite c p line copy s = _
  unfold execDescriptorRewrite
  rw [profile]
  exact if_pos (by simp [runs, up, fitted])

/-- A pass that is not over when the next is due counts as late and goes on (R251). -/
theorem exec_scrubPassStart_late {w : Wing} (enabled : w.val ∈ s.wings) {n : Nat} (pass : look s.md.scrub w = some n)
    (unfinished : n < s.scrubTotal w) : exec (.scrubPassStart w) s = .next (s.satReg .WING_SCRUB_SCRUB_LATE w 1) := by
  show execScrubPassStart w s = _
  unfold execScrubPassStart
  dsimp only
  rw [if_neg (by simp [runs, enabled]), pass]
  exact if_pos unfinished

/-- A pass starts on a wing that has none, or whose last one is over (R251). -/
theorem exec_scrubPassStart_new {w : Wing} (enabled : w.val ∈ s.wings)
    (finished : ∀ n, look s.md.scrub w = some n → s.scrubTotal w ≤ n) : exec (.scrubPassStart w) s =
      .next (({ s with md := { s.md with scrub := put s.md.scrub w 0 } } : State).setReg .WING_SCRUB_PROGRESS w 0) := by
  show execScrubPassStart w s = _
  unfold execScrubPassStart
  dsimp only
  rw [if_neg (by simp [runs, enabled])]
  split
  · next n pass => exact if_neg (by have := finished n pass; omega)
  · rfl

/-- While time is neither FROZEN nor UNKNOWN, a new age unit drops the expired correction records and queues the frames
that have reached the horizon (R249). -/
theorem exec_ageUnitTick (moving : s.timeState ≠ 3) (known : s.timeState ≠ 0) :
    let u : State := { s with rt := { s.rt with
      corrections := s.rt.corrections.filter fun c => s.ageUnit ≤ c.last + s.horizon } }
    exec .ageUnitTick s = .next (u.atHorizon.foldl (fun t x => t.queueRefresh (frameOfKey x.1) true) u) := by
  show execAgeUnitTick s = _
  unfold execAgeUnitTick
  rw [if_neg (by simp [runs, moving])]
  exact if_neg (mt beq_iff_eq.1 known)

end

/-! ### The health sample (R216, R224) -/

/-- A cellar's wear and temperatures are measured into registers alone (R224). -/
theorem OnlyRegs.healthCellar {s t : State} (c : Nat) (h : OnlyRegs s t) : OnlyRegs s (t.healthCellar c) := by
  unfold State.healthCellar
  dsimp only
  split
  · exact ((h.setReg ..).setReg ..).satReg ..
  · exact (h.setReg ..).setReg ..

/-- A health sample measures into registers alone, sets the spare levels and then queues the migrations that R216 calls
for (R224). -/
theorem exec_healthSample {s : State} (runs : s.calendarRuns = true) : ∃ u : State,
    exec .healthSample s = .next (u.worn.foldl (fun t x => t.queueMigration x.1 x.2) u.spareLevels) ∧ OnlyRegs s u := by
  refine ⟨_, if_neg (by simp [runs]), ?_⟩
  have measured := fun mean top retired =>
    ((((OnlyRegs.refl s).setReg .HALL_MEDIA_WEAR_MEAN 0 mean).setReg .HALL_MEDIA_WEAR_MAX 0 top).setReg
      .HALL_MEDIA_RETIRED 0 retired).foldl OnlyRegs.healthCellar
  split
  · exact (measured _ _ _ _).satReg ..
  · exact measured _ _ _ _

/-! ### Leaky buckets (R493) -/

/-- The level of a source's bucket after a leak: one less where its LEAK divides the beat. -/
def State.leakedLevel (s : State) (k : Nat) : Nat :=
  if s.beat % max 1 (s.reg .FLT_SRC_LEAK k) = 0 then s.reg .FLT_SRC_LEVEL k - 1 else s.reg .FLT_SRC_LEVEL k

/-- The leak of one source's bucket. -/
def State.leakBucket (s : State) (k : Nat) : State :=
  let v := s.reg .FLT_SRC_LEVEL k
  if v != 0 && s.beat % max 1 (s.reg .FLT_SRC_LEAK k) == 0 then s.setReg .FLT_SRC_LEVEL k (v - 1) else s

/-- The leaks of the first `n` sources. -/
def State.leakBuckets (s : State) (n : Nat) : State := (List.range n).foldl State.leakBucket s

/-- BUCKET_LEAK runs the leaks of all 2,048 sources, one after the other. -/
theorem exec_bucketLeak (s : State) : exec .bucketLeak s = .next (s.leakBuckets 2048) := rfl

theorem leakBuckets_succ (s : State) (n : Nat) : s.leakBuckets (n + 1) = (s.leakBuckets n).leakBucket n := by
  simp [State.leakBuckets, List.range_succ]

theorem OnlyRegs.leakBucket {s t : State} (k : Nat) (h : OnlyRegs s t) : OnlyRegs s (t.leakBucket k) := by
  unfold State.leakBucket
  dsimp only
  split
  · exact h.setReg ..
  · exact h

theorem regsOk_leakBucket (s : State) (k : Nat) (h : RegsOk s.regs) : RegsOk (s.leakBucket k).regs := by
  unfold State.leakBucket
  dsimp only
  split
  · exact regsOk_setReg _ _ _ h
  · exact h

theorem regsOk_leakBuckets {s : State} (h : RegsOk s.regs) (n : Nat) : RegsOk (s.leakBuckets n).regs :=
  ok_foldl _ _ regsOk_leakBucket s h

/-- A source's leak changes its level and no other register. -/
theorem reg_leakBucket_other (s : State) {k i : Nat} {f : Fld} (h : ¬ (f = .FLT_SRC_LEVEL ∧ i = k)) :
    (s.leakBucket k).reg f i = s.reg f i := by
  unfold State.leakBucket
  dsimp only
  split
  · exact reg_setReg_other _ _ _ _ _ _ h
  · rfl

/-- A leak sets its bucket's level to `leakedLevel`; an empty bucket stays empty. -/
theorem level_leakBucket {s : State} (h : RegsOk s.regs) (k : Nat) :
    (s.leakBucket k).reg .FLT_SRC_LEVEL k = s.leakedLevel k := by
  have fits : s.reg .FLT_SRC_LEVEL k < 2 ^ 8 := reg_lt .FLT_SRC_LEVEL k h
  unfold State.leakBucket State.leakedLevel
  dsimp only
  split
  · next leaks =>
    obtain ⟨-, due⟩ : s.reg .FLT_SRC_LEVEL k ≠ 0 ∧ s.beat % max 1 (s.reg .FLT_SRC_LEAK k) = 0 := by simpa using leaks
    rw [reg_setReg_same _ _ _ _ h.1, if_pos due]
    exact Nat.mod_eq_of_lt (by show _ < 2 ^ 8; omega)
  · next stays =>
    have empty : s.beat % max 1 (s.reg .FLT_SRC_LEAK k) = 0 → s.reg .FLT_SRC_LEVEL k = 0 := by
      intro due
      by_contra full
      exact stays (by simp [due, full])
    split
    · next due => rw [empty due]
    · rfl

/-- The leaks of the first `n` sources change their levels and no other register. -/
theorem reg_leakBuckets_other (s : State) {n i : Nat} {f : Fld} (h : f ≠ .FLT_SRC_LEVEL ∨ n ≤ i) :
    (s.leakBuckets n).reg f i = s.reg f i := by
  induction n with
  | zero => rfl
  | succ n ih =>
    have beyond : f ≠ .FLT_SRC_LEVEL ∨ n ≤ i := h.imp_right Nat.le_of_succ_le
    have apart : ¬ (f = .FLT_SRC_LEVEL ∧ i = n) := fun ⟨level, here⟩ => h.elim (· level) (by omega)
    rw [leakBuckets_succ, reg_leakBucket_other _ apart, ih beyond]

/-- A source's leak reads only what the leaks of the sources before it leave alone. -/
theorem leakedLevel_leakBuckets (s : State) (n : Nat) : (s.leakBuckets n).leakedLevel n = s.leakedLevel n := by
  unfold State.leakedLevel State.beat
  rw [reg_leakBuckets_other s (.inl (by decide)), reg_leakBuckets_other s (.inl (by decide)),
    reg_leakBuckets_other s (.inr n.le_refl)]

/-- Each of the first `n` buckets has leaked once. -/
theorem level_leakBuckets {s : State} (h : RegsOk s.regs) {n k : Nat} (below : k < n) :
    (s.leakBuckets n).reg .FLT_SRC_LEVEL k = s.leakedLevel k := by
  induction n with
  | zero => omega
  | succ n ih =>
    rw [leakBuckets_succ]
    rcases Nat.lt_succ_iff_lt_or_eq.1 below with earlier | rfl
    · rw [reg_leakBucket_other _ (by omega), ih earlier]
    · rw [level_leakBucket (regsOk_leakBuckets h k), leakedLevel_leakBuckets]

/-! ### The sketch and the cadence frame (R164, R253, R254) -/

/-- A decay halves every count of the wing's sketch (R164; in every device state, log entry 30). -/
theorem exec_sketchDecay (w : Wing) (s : State) : exec (.sketchDecay w) s =
    let halved := fun (x : Nat × Sketch) => if x.1 / 2 ^ 20 = w.val then
      (x.1, { x.2 with reads := x.2.reads / 2, writes := x.2.writes / 2 }) else x
    .next { s with ti := { s.ti with sketch := s.ti.sketch.map halved } } := by
  simp only [exec, execSketchDecay, beq_iff_eq]

/-- Settles O9: each clause is what its event does; BUCKET_LEAK, SKETCH_DECAY and CADENCE_FRAME act in every device state
(log entry 30). -/
theorem calendarCommands : Obligations.CalendarCommands :=
  ⟨fun _ runs => exec_calendar_records runs,
    fun _ _ _ line copy _ profile runs up fitted => exec_descriptorRewrite runs profile up fitted line copy,
    fun _ runs => exec_healthSample runs,
    fun s ok => ⟨_, exec_bucketLeak s, fun _ below => level_leakBuckets ok below,
      fun _ _ other => reg_leakBuckets_other s other, (OnlyRegs.refl s).foldl OnlyRegs.leakBucket _⟩,
    fun s w => exec_sketchDecay w s,
    fun _ _ runs enabled => ⟨fun ⟨_, pass, unfinished⟩ => exec_scrubPassStart_late runs enabled pass unfinished,
      exec_scrubPassStart_new runs enabled⟩,
    fun _ runs moving known => ⟨_, exec_ageUnitTick runs moving known, rfl⟩,
    fun _ _ => rfl⟩

/-! ### Programs and status records (R170, R188 to R192, R205, R254) -/

/-- A slot at which every MAC holds goes to the operation of `slotChoice`, with the lines taken as it is issued (R205,
R206, R254; the slots themselves are not counted, log entry 24). -/
theorem exec_programSlot_issues {s : State} {c : Cellar} {o : MediaOp} (hallOn : s.pw.dev.hallOn = true)
    (planned : s.plan.isSome = true) (works : s.inReset (.cellar c) = false) (chosen : s.slotChoice c = some o)
    (readOk : Bool) : exec (.programSlot c 0 readOk) s =
      .next ((s.poisonedInMerge o (s.opLines o readOk)).issue o (s.opLines o readOk)).mediaStep := by
  show execProgramSlot c 0 readOk s = _
  unfold execProgramSlot
  dsimp only
  rw [if_neg (by simp [hallOn, works, Option.isSome_iff_ne_none.1 planned]), chosen]
  dsimp only
  split
  -- No bit of 0 is set, so no line's MAC fails.
  · next tampered => split at tampered <;> simp at tampered
  · rfl

/-- A page that R170 chooses is queued for write-back at position 5. -/
theorem exec_writeBackSelection {s : State} {w : Wing} {k : Nat} (chosen : s.writeBackChoice w = some k) :
    exec (.writeBackSelection w) s = .next (s.queueWriteBack (keyRoom k) (keyPage k) 5).mediaStep := by
  show execWriteBackSelection w s = _
  unfold execWriteBackSelection
  rw [chosen]

/-- A good status record is applied to the operations in flight on its package (R188, R189). -/
theorem exec_statusRecord {s : State} {c : Cellar} {p : Pkg} {flags : Byte} (up : s.cellarUp c = true)
    (fitted : p.val ∈ s.packages c) (hallOn : s.pw.dev.hallOn = true) (noBusCrc : flags.getLsbD 0 = false)
    (done verify crc : BitVec 64) :
    let t := s.clearMisses c p [1, 2]
    let ops := t.md.inflight.filter fun o => o.cellar == c.val && o.at_.pkg == p.val
    exec (.statusRecord c p done verify crc flags true) s =
      .next (ops.foldl (fun u o => u.statusOf o done verify crc) t).mediaStep := by
  intro t ops
  show execStatusRecord c p done verify crc flags true s = _
  unfold execStatusRecord
  rw [if_neg (by simp [up, fitted, hallOn]), if_neg (by simp)]
  dsimp only
  rw [if_neg (by rw [noBusCrc]; exact Bool.false_ne_true)]

/-- An operation that is neither suspended nor asked to is asked to suspend, and counted, while SUSPEND_EN is set (R192). -/
theorem exec_suspendOp {s : State} {c : Cellar} {tag : Fin 64} {o : MediaOp} (found : s.opOf c tag = some o)
    (running : o.suspended = false) (unasked : o.suspending = false) (enabled : s.flag .CEL_CTRL_SUSPEND_EN c = true) :
    exec (.suspendOp c tag) s = .next ((s.modOp c tag fun o => { o with suspending := true }).celCount c 5 1) := by
  show execSuspendOp c tag s = _
  unfold execSuspendOp
  rw [found]
  exact if_neg (by simp [running, unasked, enabled])

/-- Settles O10: each clause is what its command does; DONE_N_LOW changes nothing (log entry 27). -/
theorem programCommands : Obligations.ProgramCommands :=
  ⟨fun _ _ readOk _ hallOn planned works chosen => exec_programSlot_issues hallOn planned works chosen readOk,
    fun _ _ _ chosen => exec_writeBackSelection chosen,
    fun _ _ => rfl,
    fun _ _ _ done verify crc _ up fitted hallOn noBusCrc => exec_statusRecord up fitted hallOn noBusCrc done verify crc,
    fun _ _ _ _ found running unasked enabled => exec_suspendOp found running unasked enabled,
    fun _ _ _ => rfl⟩

end Sys2Proof.Machine
end

section
/-! PROOF. Counters, freeze, snapshots, sample pointers and wraps (O25). -/

namespace Sys2Proof.Machine

/-! ### Which counter a window shows (R522, R536) -/

/-- The Hall's window shows its counter at 128 words to the bank. -/
theorem windowCounter_hall {s : State} {i : Nat} (inHall : 128 * s.reg .PMC_SEL_BANK 0 + i < 512) :
    s.windowCounter none i = some (128 * s.reg .PMC_SEL_BANK 0 + i) :=
  if_pos inHall

/-- A wing's window shows its local counter, which the 512 of the Hall and 768 of each wing before it precede (R522). -/
theorem windowCounter_wing {s : State} {w : Wing} {i : Nat} (inWing : 128 * s.reg .PMC_SEL_BANK (1 + w.val) + i < 768) :
    s.windowCounter (some w) i = some (512 + 768 * w.val + (128 * s.reg .PMC_SEL_BANK (1 + w.val) + i)) :=
  if_pos inWing

/-! ### The commands of a running Hall (R252, R524 to R527, R537) -/

section
variable {s : State} (hallOn : s.pw.dev.hallOn = true)
include hallOn

/-- FREEZE is set or cleared as written (R526). -/
theorem exec_pmcFreeze (on : Bool) : exec (.pmcFreeze on) s = .next (s.setFlag .PMC_CTRL_FREEZE 0 on) :=
  congrArg Host.Outcome.next (if_pos hallOn)

/-- SNAP_NOW takes a snapshot at once, which is neither late nor skipped (R527). -/
theorem exec_snapNow : exec .snapNow s = .next (s.snapshot false false) :=
  congrArg Host.Outcome.next (if_pos hallOn)

/-- ARM takes the beat from SNAP_BEAT (R527). -/
theorem exec_arm : exec .arm s = .next (s.armAt (s.reg .PMC_SNAP_BEAT 0)) :=
  congrArg Host.Outcome.next (if_pos hallOn)

/-- DISARM cancels the armed snapshot (R527). -/
theorem exec_disarm : exec .disarm s = .next (s.setArmed none) :=
  congrArg Host.Outcome.next (if_pos hallOn)

/-- Outside FROZEN, an armed snapshot whose beat has come is taken, and flagged SKIPPED when BEAT has passed it (R252,
R527, log entry 53). -/
theorem exec_counterSnapshot {b : Nat} (armed : s.me.armed = some b) (moving : s.timeState ≠ 3) (due : b ≤ s.beat) :
    exec .counterSnapshot s = .next ((s.setArmed none).snapshot false (b != s.beat)) := by
  show execCounterSnapshot s = _
  unfold execCounterSnapshot
  rw [armed]
  exact if_neg (by simp [hallOn, moving, due])

/-- A write of PMC_SMP_PTR empties the buffer from NEXT on and clears FULL (R537). -/
theorem exec_pmcSmpPtr (w : Wing) (next : BitVec 20) :
    exec (.pmcSmpPtr w next) s = .next (s.setSamplePtr w next.toNat) :=
  congrArg Host.Outcome.next (if_pos hallOn)

/-- Unless the counters are frozen, a counter of its range's list wraps to 0 (R522, R526, log entry 53). -/
theorem exec_counterWrap {c : Fin 6656} (listed : counterListed c = true) (thawed : s.flag .PMC_CTRL_FREEZE 0 = false) :
    exec (.counterWrap c) s =
      .next (({ s with me := { s.me with live := put s.me.live c 0 } } : State).wrapped c) :=
  if_neg (by simp [hallOn, thawed, listed])

/-- A write through a window that shows the live bank presets the counter shown (R524, R536). -/
theorem exec_pmcWin_live {block : Option Wing} {i : Fin 128} {c : Nat} (live : s.windowShadow block = false)
    (shown : s.windowCounter block i = some c) (listed : counterListed c = true) (v : BitVec 48) :
    exec (.pmcWin block i v) s = .next (s.preset c v.toNat) := by
  show execPmcWin block i v s = _
  unfold execPmcWin
  rw [if_neg (by simp [hallOn, live]), shown]
  exact congrArg Host.Outcome.next (if_pos listed)

end

/-- Settles O25: each clause is what its command does while the Hall is on; the write of a window is that of the counter
it shows. -/
theorem counterCommands : Obligations.CounterCommands := fun _ hallOn =>
  ⟨exec_pmcFreeze hallOn, exec_snapNow hallOn, exec_arm hallOn, exec_disarm hallOn,
    fun _ armed moving due => exec_counterSnapshot hallOn armed moving due,
    exec_pmcSmpPtr hallOn,
    fun _ listed thawed => exec_counterWrap hallOn listed thawed,
    fun _ v _ live shown inHall listed => by
      subst shown
      exact exec_pmcWin_live (block := none) hallOn live (windowCounter_hall inHall) listed v,
    fun _ _ v _ live shown inWing listed => by
      subst shown
      exact exec_pmcWin_live (block := some _) hallOn live (windowCounter_wing inWing) listed v⟩

end Sys2Proof.Machine
end

section
/-! PROOF. The reservoir: its samples, what ends its charging, and its charge test (O4). -/

namespace Sys2Proof.Machine

section
variable {s : State}

/-! ### The samples (R292, R294, R296, R309, R461) -/

/-- The bank voltage is the sample times SENSE_GAIN, up to the width of VOLTS (R294, R309; the sample comes filtered, log
entry 59). -/
theorem exec_resSenseSample (powered : s.pw.dev ≠ .noVstby) (mv : Nat) : exec (.resSenseSample mv) s =
    .next (s.setReg .PRC_RES_STATUS_VOLTS 0 (min (mv * s.reg .PRC_RES_CFG1_SENSE_GAIN 0 / 2560) 65535)) :=
  if_neg (mt beq_iff_eq.1 powered)

/-- While a bank charges or is READY, a reading with a resistance outside 10 Ω to 10 MΩ (R461), or outside −40 °C to 125 °C,
fails it (R292); any other becomes TEMP, and holds it when it lies outside the charging window (R296). -/
theorem exec_resNtcSample (powered : s.pw.dev ≠ .noVstby) (inUse : s.res.st = .charging ∨ s.res.st = .ready) (ohms : Nat) :
    let t := Config.ntcTemp ohms (s.reg .PRC_NTC_NTC_B 0) (10 * s.reg .PRC_NTC_NTC_NOM 0)
    let s' := s.setReg .PRC_RES_STATUS_TEMP 0 (unsignedOf 16 t)
    exec (.resNtcSample ohms) s = .next (if ohms < 10 ∨ 10000000 < ohms ∨ t < -160 ∨ 500 < t then s.reservoirFails 3 true
      else if s'.inChargeWindow then s' else s'.setReservoir .held) := by
  intro t s'
  show execResNtcSample ohms s = _
  unfold execResNtcSample
  rw [if_neg (mt beq_iff_eq.1 powered)]
  dsimp only
  by_cases faulty : ohms < 10 ∨ 10000000 < ohms ∨ t < -160 ∨ 500 < t
  · rw [if_pos faulty, if_pos (by simpa [or_assoc] using faulty)]
    rcases inUse with st | st <;> rw [st]
  · rw [if_neg faulty, if_neg (by simpa [or_assoc] using faulty), State.setReg_res]
    rcases inUse with st | st <;> rw [st]

/-! ### What ends the charging (R291, R292) -/

section
variable (charging : s.res.st = .charging) (chargerHigh : s.flag .PRC_RES_STATUS_CHG_EN 0 = true)
include charging chargerHigh

/-- The plateau makes the reservoir READY, with the voltage at that moment for V_FULL (R292). -/
theorem exec_reservoirReady : exec .reservoirReady s = .next
    (({ s with res := { s.res with vFull := some (s.reg .PRC_RES_STATUS_VOLTS 0) } } : State).setReservoir .ready) :=
  if_neg (by simp [charging, chargerHigh])

/-- No plateau within CHG_LIMIT fails it, with cause 1 (R292). -/
theorem exec_chgLimitExpiry : exec .chgLimitExpiry s = .next (s.reservoirFails 1 false) :=
  if_pos (by simp [charging, chargerHigh])

/-- Below 0.5 V after 1 s of charging the bank is ABSENT (R291). -/
theorem exec_reservoirAbsent (low : s.reg .PRC_RES_STATUS_VOLTS 0 < 50) :
    exec .reservoirAbsent s = .next (s.setReservoir .absent) :=
  if_pos (by simp [charging, chargerHigh, low])

end

/-! ### The charge test (R293) and TEST_NOW (R292, R309) -/

section
variable (ready : s.res.st = .ready) (chargerHigh : s.flag .PRC_RES_STATUS_CHG_EN 0 = true)
include ready chargerHigh

/-- TEST_NOW starts a test of a READY reservoir (R309). -/
theorem exec_testNow_ready : exec .testNow s = .next s.startTest := by
  show execTestNow s = _
  unfold execTestNow
  rw [ready]
  exact congrArg Host.Outcome.next (if_pos chargerHigh)

/-- A test that is due starts (R293). -/
theorem exec_chargeTestStart (due : s.res.testDue = true) : exec .chargeTestStart s = .next s.startTest :=
  if_pos (by simp [ready, due, chargerHigh])

end

/-- TEST_NOW charges an ABSENT or FAILED bank anew (R292). -/
theorem exec_testNow_recharge (lost : s.res.st = .absent ∨ s.res.st = .failed) : exec .testNow s = .next s.recharge := by
  show execTestNow s = _
  unfold execTestNow
  rcases lost with st | st <;> rw [st]

section
variable (testing : s.res.st = .testing)
include testing

/-- A complete fall is kept as TEST_DROP and its time, and the rise is timed (R293 steps 2 and 3). -/
theorem exec_chargeTestFallEnd_complete (falling : s.res.rising = false) {drop : Nat} (complete : s.res.testDrop ≤ drop)
    (ms : Nat) : exec (.chargeTestFallEnd drop ms) s = .next
      ({ s with res := { s.res with rising := true, fallDrop := s.res.testDrop, fallMs := ms } } : State).charger := by
  show execChargeTestFallEnd drop ms s = _
  have notShort : ¬ drop < s.res.testDrop := Nat.not_lt.2 complete
  unfold execChargeTestFallEnd
  rw [if_neg (by simp [testing, falling, notShort]), if_neg (by simp [notShort]), Nat.min_eq_right complete]

variable (rising : s.res.rising = true)
include rising

/-- A rise that is not complete within 60 s fails the reservoir, with cause 2 (R293). -/
theorem exec_chargeTestRiseTimeout : exec .chargeTestRiseTimeout s = .next (s.reservoirFails 2 false) :=
  if_pos (by simp [testing, rising])

/-- The end of a rise stores C and V_FULL, counts the test and returns the reservoir to READY (R293); with the Hall off no
copy goes to the Cupboard. -/
theorem exec_chargeTestRiseEnd_hallOff {ms : Nat} (inTime : ms ≤ 60000) (hallOff : s.pw.dev.hallOn = false) :
    exec (.chargeTestRiseEnd ms) s =
      let c := min (2 ^ 32 - 1) (capacitance s.res.testIchg s.res.fallDrop s.res.fallMs ms)
      let t : State := { s with res := { s.res with stored := some (c, s.res.vFull.getD 0), rising := false } }
      let t := (t.setReg .PRC_RES_MEAS_CAP 0 c).setFlag .PRC_RES_STATUS_INCONCLUSIVE 0 false
      let t := (t.setReg .PRC_RES_TEST_LAST_BEAT 0 t.beat).satReg .PRC_RES_TEST_TESTS 0 1
      .next ((t.emit srcChargeTest).setReservoir .ready) := by
  show execChargeTestRiseEnd ms s = _
  unfold execChargeTestRiseEnd
  rw [if_neg (by simp [testing, rising, inTime])]
  dsimp only
  rw [if_neg (by simp [hallOff])]

end

end

/-- Settles O4: each clause is the lemma of its command (samples come filtered, log entry 59). -/
theorem reservoirCommands : Obligations.ReservoirCommands :=
  ⟨fun _ mv powered => exec_resSenseSample powered mv,
    fun _ charging chargerHigh => ⟨exec_reservoirReady charging chargerHigh, exec_chgLimitExpiry charging chargerHigh,
      exec_reservoirAbsent charging chargerHigh⟩,
    fun _ ohms powered inUse => exec_resNtcSample powered inUse ohms,
    fun _ ready chargerHigh => ⟨exec_testNow_ready ready chargerHigh, exec_chargeTestStart ready chargerHigh⟩,
    fun _ lost => exec_testNow_recharge lost,
    fun _ _ ms testing falling complete => exec_chargeTestFallEnd_complete testing falling complete ms,
    fun _ testing rising => exec_chargeTestRiseTimeout testing rising,
    fun _ _ testing rising inTime standby => exec_chargeTestRiseEnd_hallOff testing rising inTime (by rw [standby]; rfl)⟩

end Sys2Proof.Machine
end

section
/-! PROOF. The Lockset: the Landing requests that only the manager may send, among them the key-slot operations (O44). -/

namespace Sys2Proof.Machine

section
variable {s : State} {h : Hdr} (p : LandingPasses s h) (manager : h.src = (s.taken h).pl.manager)
include p manager

/-! ### Clear tokens, snapshots, migrations and the mirror (R423, R426, R427, R429) -/

/-- NONCE_REQUEST draws a nonce, which takes the place of the last one, and answers its two words (R426). -/
theorem exec_nonceRequest :
    let t := s.taken h
    exec (.nonceRequest h) s = .next (({ t with
      fresh := t.fresh + 1
      pl := { t.pl with nonce := some (Config.nonce t.fresh) } } : State).landingAnswer h 0x07 0
        [wordAt (Config.nonce t.fresh) 0, wordAt (Config.nonce t.fresh) 1]) :=
  congrArg _ (mgr_run p manager _ _ rfl)

/-- CLEAR_TOKEN answers whether the token was taken (R426). -/
theorem exec_clearToken (part : Fin 11) (nonce : BitVec 128) (member : Nat) (term : Word) (ok : Bool) :
    let x := (s.taken h).useToken part nonce member term.toNat ok
    exec (.clearToken h part nonce member term ok) s =
      if x.2 then .next (x.1.landingAnswer h 0x07 0 []) else .next (x.1.landingAnswer h 0x07 4 [pword badField]) := by
  intro x
  cases accepted : x.2 with
  | true => exact congrArg _ (mgr_run p manager _ _ (if_pos accepted))
  | false => exact congrArg _ (mgr_run p manager _ _ (if_neg (Bool.eq_false_iff.1 accepted)))

/-- SNAPSHOT arms a counter snapshot at the beat it names (R427). -/
theorem exec_snapshotMsg (beat : Word) :
    exec (.snapshotMsg h beat) s = .next (((s.taken h).armAt beat.toNat).landingAnswer h 0x08 0 []) :=
  congrArg _ (mgr_run p manager _ _ rfl)

/-- MIGRATE_BEGIN prepares the target of a migration (R429). -/
theorem exec_migrateBegin_target (idle : (s.taken h).pl.mig = none) (room : RoomNo) (source : Nat) {target : Nat}
    (here : target = (s.taken h).index) : exec (.migrateBegin h room source target) s =
      .next (((s.taken h).beginTarget room source).landingAnswer h 0x09 0 []) := by
  refine congrArg _ (mgr_run p manager _ _ ?_)
  rw [if_neg (by simp [idle]), if_pos here]

/-- MIGRATE_BEGIN starts the source of a migration (R429). -/
theorem exec_migrateBegin_source (idle : (s.taken h).pl.mig = none) (room : RoomNo) {source target : Nat}
    (elsewhere : target ≠ (s.taken h).index) (here : source = (s.taken h).index) :
    exec (.migrateBegin h room source target) s =
      .next (((s.taken h).beginSource room target).landingAnswer h 0x09 0 []) := by
  refine congrArg _ (mgr_run p manager _ _ ?_)
  rw [if_neg (by simp [idle]), if_neg elsewhere, if_pos here]

/-- The standby applies a delta of the manager's state (R423). -/
theorem exec_mirrorMsg (standby : (s.taken h).role = 1) (delta : Delta) :
    exec (.mirrorMsg h delta) s = .next (((s.taken h).applyDeltaOf delta).landingAnswer h 0x0C 0 []) :=
  congrArg _ (mgr_run p manager _ _ (if_pos standby))

/-! ### Key slots and the pool escrow key (R313, R316, R425) -/

/-- ESCROW_KEY: the member keeps the pool escrow key, wrapped, in its Cupboard (R425). -/
theorem exec_escrowKey (key : Key) :
    let t := s.taken h
    exec (.escrowKey h key) s = .next ((({ t with pl := { t.pl with escrowKey := some key } } : State).queueRecord
      [2768] [2769] (.escrow (Config.wrap Config.wrapKey key))).landingAnswer h 0x06 0 []) :=
  congrArg _ (mgr_run p manager _ _ rfl)

section
variable {slot : Fin 4096} (empty : look (s.taken h).lk.slots slot = none)
include empty

/-- GENERATE fills an EMPTY slot, of whose rooms no page is backed, with a new random key (R313). -/
theorem exec_generate_empty (unbacked : ∀ r ∈ (s.taken h).roomsOfSlot slot, (s.taken h).anyBacked r = false) :
    let t := s.taken h
    exec (.generate h slot) s = .next (((((t.newKey.2.fillSlot slot {
      key := t.newKey.1, floor := 0, high := 0, changed := false, origin := t.index }).emit
        srcSlotGenerated).settle).count 193 1).landingAnswer h 0x05 0 []) := by
  show execGenerate h slot s = _
  unfold execGenerate
  refine congrArg _ (key_run p manager _ ?_)
  rw [if_neg (by simp [empty]), if_neg (by simpa using unbacked)]
  rfl

variable {r : EscrowRecord} {e : Key} (escrow : (s.taken h).pl.escrowKey = some e)
include escrow

/-- IMPORT of a record that does not unwrap under the pool escrow key is refused (log entry 35). -/
theorem exec_importKey_notUnwrapped (refused : Config.unwrap e r.wrapped = none) :
    exec (.importKey h slot r) s = .next ((s.taken h).landingAnswer h 0x05 4 [pword badField]) := by
  refine congrArg _ (key_bad p manager _ ?_)
  rw [if_neg (by simp [empty]), escrow, Option.bind_some, refused]

/-- IMPORT fills an EMPTY slot with the record's key, its FLOOR and HIGH following the record's origin (R313, R316, R425;
log entry 35). -/
theorem exec_importKey_unwrapped {key : Key} (unwrapped : Config.unwrap e r.wrapped = some key) :
    let t := s.taken h
    exec (.importKey h slot r) s = .next (((((t.fillSlot slot {
      key := key, floor := (t.importMarks slot r).1 % 2 ^ 57, high := (t.importMarks slot r).2 % 2 ^ 57
      changed := false, origin := r.origin }).emit srcSlotImported).settle).count 193 1).landingAnswer h 0x05 0 []) := by
  show execImportKey h slot r s = _
  unfold execImportKey
  refine congrArg _ (key_run p manager _ ?_)
  rw [if_neg (by simp [empty]), escrow, Option.bind_some, unwrapped]

end

section
variable {slot : Fin 4096} {x : KeySlot} (loaded : look (s.taken h).lk.slots slot = some x)
include loaded

/-- GENERATE of a LOADED slot is refused (R313). -/
theorem exec_generate_loaded :
    exec (.generate h slot) s = .next ((s.taken h).landingAnswer h 0x05 4 [pword badField]) := by
  refine congrArg _ (key_bad p manager _ ?_)
  rw [if_pos (by simp [loaded])]

/-- EXPORT answers the escrow record of a LOADED slot, which then counts as unchanged (R313, R425). -/
theorem exec_exportKey {e : Key} (escrow : (s.taken h).pl.escrowKey = some e) :
    let t := s.taken h
    exec (.exportKey h slot) s = .next (((({ t with lk := { t.lk with
      slots := put t.lk.slots slot { x with changed := false } } } : State).emit srcSlotExported).count 193 1).landingAnswer
        h 0x05 0 ([pword slot.val, pword x.origin, pword x.floor, pword x.high] ++
          (List.range 5).map fun i => wordAt (Config.wrap e x.key) i)) := by
  refine congrArg _ (key_run p manager _ ?_)
  rw [loaded, escrow]

/-- DESTROY of a LOADED slot that no persistent room names takes its key from the vault and the table (R313, R314). -/
theorem exec_destroy_unused (unused : (s.taken h).roomsOfSlot slot = []) :
    let t := s.taken h
    exec (.destroy h slot) s = .next ((((({ t with lk := { t.lk with slots := del t.lk.slots slot } } : State).putSlotTable
      (del t.md.slotTable slot)).emit srcSlotDestroyed).count 193 1).landingAnswer h 0x05 0 []) := by
  refine congrArg _ (key_run p manager _ ?_)
  rw [if_neg (by simp [loaded]), if_neg (by simp [unused])]

/-- DESTROY of a slot that a persistent room names is refused (R313). -/
theorem exec_destroy_used (used : (s.taken h).roomsOfSlot slot ≠ []) :
    exec (.destroy h slot) s = .next ((s.taken h).landingAnswer h 0x05 4 [pword roomBusy]) := by
  refine congrArg _ (key_bad p manager _ ?_)
  rw [if_neg (by simp [loaded]), if_pos (by simpa using used)]

end

end

/-- Settles O44: each clause is the lemma of its request; an import follows what its record unwraps to (log entry 35). -/
theorem managerCommands : Obligations.ManagerCommands := fun _ _ p manager =>
  ⟨exec_nonceRequest p manager,
    exec_clearToken p manager,
    exec_snapshotMsg p manager,
    fun room source _ idle => ⟨fun here => exec_migrateBegin_target p manager idle room source here,
      fun elsewhere here => exec_migrateBegin_source p manager idle room elsewhere here⟩,
    fun delta standby => exec_mirrorMsg p manager standby delta,
    fun _ => ⟨fun empty unbacked => exec_generate_empty p manager empty unbacked,
      fun _ loaded => exec_generate_loaded p manager loaded,
      fun r e empty escrow => by
        cases unwraps : Config.unwrap e r.wrapped with
        | none => exact exec_importKey_notUnwrapped p manager empty escrow unwraps
        | some key => exact exec_importKey_unwrapped p manager empty escrow unwraps,
      fun _ _ loaded escrow => exec_exportKey p manager loaded escrow,
      fun _ loaded unused => exec_destroy_unused p manager loaded unused,
      fun _ loaded used => exec_destroy_used p manager loaded used⟩,
    exec_escrowKey p manager⟩

end Sys2Proof.Machine
end

section
/-! PROOF. The bracing family: units out of service and back (O32), and fault collection (O29). -/

namespace Sys2Proof.Machine

/-! ### Failover windows and mirrors (R352, R358) -/

section
variable {s : State} {w : Wing} {v : Nat} (stands : s.standIn w = some v)
include stands

/-- The stand-in takes the home role of a wing in its failover window (R358; log entry 33). -/
theorem exec_actingHomeServe (window : w.val ∈ s.br.window) (hallOn : s.pw.dev.hallOn = true) :
    exec (.actingHomeServe w) s = .next (s.actFor w v).settle.drainAdvance := by
  show execActingHomeServe w s = _
  unfold execActingHomeServe
  rw [if_neg (by simp [window, hallOn]), stands]

/-- A wing that copies its mirrors has them on its stand-in (R352; log entry 71). -/
theorem exec_remirrorDone (copies : s.flag .HALL_SVC_REMIRROR w = true) :
    exec (.remirrorDone w) s = .next (((s.mirrorTo w v).setFlag .HALL_SVC_REMIRROR w false).emit (srcBrace w 4)) := by
  show execRemirrorDone w s = _
  unfold execRemirrorDone
  rw [if_neg (by simp [copies]), stands]

end

/-! ### Drains, rebuilds and losses (R357, R360, R363, R365, R368) -/

section
variable {s : State} {u : UnitId} (hallOn : s.pw.dev.hallOn = true)
include hallOn

/-- A drained unit other than a package is FENCED (R363, R364). -/
theorem exec_unitFenced (noPackage : ∀ c p, u ≠ .package c p) (draining : s.svc (unitIndex u) = 1)
    (drained : s.drained (unitIndex u) = true) :
    exec (.unitFenced u) s = .next (s.fence (unitIndex u)).drainAdvance := by
  show execUnitFenced u s = _
  unfold execUnitFenced
  cases u with
  | package c p => exact absurd rfl (noPackage c p)
  | cellar | larder | wing =>
    dsimp only
    rw [if_neg (by simp [draining, hallOn]), if_pos drained]

/-- A unit other than a package whose rebuild has nothing left is in service again (R368). -/
theorem exec_unitRebuilt (noPackage : ∀ c p, u ≠ .package c p) (rebuilding : s.svc (unitIndex u) = 4)
    (rebuilt : s.rebuildOver (unitIndex u) = true) :
    let t := ((s.setSvc (unitIndex u) 0 0).setReg .HALL_SVC_PROGRESS (unitIndex u) 10000).setReg .HALL_SVC_STRIPES
      (unitIndex u) 0
    exec (.unitRebuilt u) s = .next (({ t with br := { t.br with rebuildPtr := del t.br.rebuildPtr (unitIndex u) } } :
      State).emit (srcBrace (unitWing (unitIndex u)) 3)).settle := by
  show execUnitRebuilt u s = _
  unfold execUnitRebuilt
  cases u with
  | package c p => exact absurd rfl (noPackage c p)
  | cellar | larder | wing =>
    dsimp only
    rw [if_neg (by simp [rebuilding, hallOn, rebuilt])]

variable (u) in
/-- A lost unit waits for no re-admission any more, and goes as its kind of unit does (R357, R360, R369). -/
theorem exec_unitLoss :
    let t : State := { s with br := { s.br with readmit := s.br.readmit.filter fun x => x != unitIndex u } }
    exec (.unitLoss u) s = .next (match u with
      | .package c p => t.losePackage c p
      | .cellar c => t.loseCellar c
      | .larder w => (t.loseLarder w).remirror w
      | .wing w => (t.loseWing w).remirror w).spareLevels.settle.drainAdvance := by
  show execUnitLoss u s = _
  cases u with
  | package | cellar | larder | wing => exact if_neg (by simp [hallOn])

end

/-! ### Re-admission (R366) -/

section
variable {s : State} {w : Wing} {u : Nat} {rest : List Nat} (hallOn : s.pw.dev.hallOn = true)
  (front : s.br.readmit = u :: rest) (hasLarder : u < 16) (ofWing : unitWing u = w) (tested : s.svc u ≠ 3)
  (idle : ∀ r ∈ s.me.running, r.1 ≠ u)

section
include front hasLarder ofWing tested idle

/-- The unit in front of the re-admissions is the one whose Larder channel is trained, once its BIST is over. -/
theorem readmit_find_front : (s.br.readmit.find? fun u =>
    u < 16 && unitWing u == w.val && s.svc u != 3 && s.me.running.all (fun r => r.1 != u)) = some u := by
  rw [front]
  exact List.find?_cons_of_pos (by simpa [hasLarder, ofWing, tested] using idle)

end

include hallOn front hasLarder ofWing tested idle

/-- A channel that is trained takes its unit to REBUILDING (R366; log entry 33). -/
theorem exec_larderTrainingDone_ok : exec (.larderTrainingDone w true) s =
    .next ((((s.setFlag .LAR_STATUS_TRAINED w true).setFlag .LAR_STATUS_OUT_OF_SERVICE w false).startRebuild u).settle
      |>.drainAdvance) := by
  show execLarderTrainingDone w true s = _
  unfold execLarderTrainingDone
  dsimp only
  rw [readmit_find_front front hasLarder ofWing tested idle]
  dsimp only
  rw [if_neg (by simp [hallOn]), if_pos rfl]

/-- A channel whose training failed leaves its unit LOST (R366). -/
theorem exec_larderTrainingDone_failed : exec (.larderTrainingDone w false) s =
    .next (((({ s with br := { s.br with readmit := s.br.readmit.filter fun x => x != u } } : State).setSvc u 5 2).emit
      (srcLarder w 6)).settle) := by
  show execLarderTrainingDone w false s = _
  unfold execLarderTrainingDone
  dsimp only
  rw [readmit_find_front front hasLarder ofWing tested idle]
  dsimp only
  rw [if_neg (by simp [hallOn]), if_neg Bool.false_ne_true]

end

/-! ### Parity (R348 to R350, R371) and the domain groups (R457) -/

section
variable {s : State} {w : Wing}

/-- The oldest delta on its way to a parity wing settles in its parity slot (R348 to R350). -/
theorem exec_parityDelta {d : ParityDelta} {rest : List ParityDelta} (hallOn : s.pw.dev.hallOn = true)
    (toWing : d.wing = w.val) (oldest : s.br.deltas = d :: rest) : exec (.parityDelta w) s =
      .next ((({ s with br := { s.br with deltas := rest } } : State).applyDelta d).settle.drainAdvance) := by
  have first : takeFirst (fun (d : ParityDelta) => d.wing == w.val) s.br.deltas = some (d, rest) := by
    rw [oldest]
    exact if_pos (beq_iff_eq.2 toWing)
  show execParityDelta w s = _
  unfold execParityDelta
  rw [first]
  exact if_neg (by simp [hallOn])

/-- The stripes of a parity wing whose parity waits to be computed again. -/
def State.toRecompute (s : State) (w : Wing) : SMap Stripe :=
  s.br.stripes.filter fun x => x.2.recompute && s.parityWing (x.1 / 2 ^ 40) (x.1 % 2 ^ 40) == w.val

/-- The first such stripe is computed again and its parity queued, and RECOMPUTE ends with the last one (R371; log
entry 71). -/
theorem exec_parityRecompute {k : Nat} {x : Stripe} {rest : SMap Stripe} (serving : s.pw.dev = .serving)
    (front : s.toRecompute w = (k, x) :: rest) :
    let t := (s.setStripe (k / 2 ^ 40) (k % 2 ^ 40) { x with
      lines := s.recomputed (k / 2 ^ 40) (k % 2 ^ 40), dirty := true, recompute := false }).queueParity (k / 2 ^ 40)
        (k % 2 ^ 40) 5
    let more := !(t.toRecompute w).isEmpty
    let v := t.setFlag .WING_BRACE_RECOMPUTE w more
    exec (.parityRecompute w) s = .next (if more then v else v.emit (srcBrace w 5)) := by
  show execParityRecompute w s = _
  unfold execParityRecompute
  unfold State.toRecompute at front
  dsimp only
  rw [front]
  exact if_neg (by simp [serving])

/-- A group in front of the sequencer that does not switch in time raises its event and no more (R457; log entry 57). -/
theorem exec_groupSwitchTimeout {g : Fin 46} {on : Bool} {rest : List (Nat × Bool)}
    (front : s.pw.switching = (g.val, on) :: rest) :
    exec (.groupSwitchTimeout g) s = .next (s.emit srcGroupTimeout) := by
  show execGroupSwitchTimeout g s = _
  unfold execGroupSwitchTimeout
  rw [front]
  exact congrArg _ (if_pos (beq_self_eq_true _))

end

/-- Settles O32: each clause is the lemma of its command (log entries 33, 57 and 71). -/
theorem unitCommands : Obligations.UnitCommands :=
  ⟨fun _ _ _ window hallOn stands => exec_actingHomeServe stands window hallOn,
    fun _ _ _ copies stands => exec_remirrorDone stands copies,
    fun _ _ noPackage hallOn =>
      ⟨fun draining drained => exec_unitFenced hallOn noPackage draining drained,
        fun rebuilding rebuilt => exec_unitRebuilt hallOn noPackage rebuilding rebuilt⟩,
    fun _ u hallOn => exec_unitLoss u hallOn,
    fun _ _ _ _ hallOn front hasLarder ofWing tested idle =>
      ⟨exec_larderTrainingDone_ok hallOn front hasLarder ofWing tested idle,
        exec_larderTrainingDone_failed hallOn front hasLarder ofWing tested idle⟩,
    fun _ _ _ _ hallOn toWing oldest => exec_parityDelta hallOn toWing oldest,
    fun _ _ _ _ _ serving front => exec_parityRecompute serving front,
    fun _ _ _ _ front => exec_groupSwitchTimeout front⟩

/-! ### The collector's fault and the sources that cannot be forced (R490, R492) -/

/-- A fault of a collector that takes events is recorded past it; the collector and the events on their way to it are
gone, and the device halts (R490; log entry 52 for the record). -/
theorem exec_collectorFault {s : State} (collects : s.collects = true) :
    exec .collectorFault s = .next (({ s.atticNote 8 3 0x06 [pword 4] with
      fl := { (s.atticNote 8 3 0x06 [pword 4]).fl with dead := true, inbox := [] } } : State).halt 2) :=
  if_neg (by simp [collects])

/-- Sources 0 to 4 cannot be forced (R492). -/
theorem exec_force_fixed {s : State} {source : Source} (fixed : source.val < 5) (on : Bool) :
    exec (.force source on) s = .next s :=
  if_pos (by simp [fixed])

section
variable {s : State} (hallOn : s.pw.dev.hallOn = true)
include hallOn

/-! ### REARM, traps and buckets (R484, R487, R505) -/

/-- REARM empties the first record and ends the ERR_N latch (R484). -/
theorem exec_rearm : exec .rearm s =
    .next { s with fl := { s.fl with first := none, later := 0, errLatch := false } } :=
  if_neg (by simp [hallOn])

/-- TRAP_DONE ends the pending trap of the Hall or of a wing (R487). -/
theorem exec_trapDone (wing : Option Wing) :
    exec (.trapDone wing) s = .next (s.setTrap (wing.map Fin.val) false) :=
  if_neg (by simp [hallOn])

/-- A bucket that is switched off is emptied (R505). -/
theorem exec_bucketEnClear (source : Source) : exec (.bucketEnClear source) s =
    .next ((s.setFlag .FLT_SRC_BUCKET_EN source false).setReg .FLT_SRC_LEVEL source 0) :=
  if_neg (by simp [hallOn])

/-! ### Forced events (R492) -/

/-- FORCE of any other source the map lists is written, and raises a forced event when it goes from 0 to 1 (R492; log
entry 50). -/
theorem exec_force {source : Source} (free : 5 ≤ source.val) (listed : (severityOf source).isSome = true) (on : Bool) :
    exec (.force source on) s = .next (if on && !s.flag .FLT_SRC_FORCE source then
      (s.setFlag .FLT_SRC_FORCE source true).emitEv { source := source, masterKind := 6, forced := true }
      else s.setFlag .FLT_SRC_FORCE source on) := by
  have acts : ¬ (!s.pw.dev.hallOn || decide (source.val < 5) || (severityOf source.val).isNone) = true := by
    simp [hallOn, free, Option.isSome_iff_ne_none.1 listed]
  show execForce source on s = _
  unfold execForce
  rw [if_neg acts]
  cases on with
  | false => rfl
  | true => cases s.flag .FLT_SRC_FORCE source <;> rfl

/-! ### Core restarts (R372, R487) -/

/-- A core of a wing that is up, when its watchdog expires, restarts, with its event and its count (R372). -/
theorem exec_watchdogExpiry {core : Fin 64} (up : s.wingUp (core.val / 8) = true)
    (runs : s.inReset (.core core) = false) : exec (.watchdogExpiry core) s =
      .next (((({ s with fl := { s.fl with resets := s.fl.resets ++ [srcCore core] } } : State).emit
        (srcCore core))).count (512 + 768 * (core.val / 8) + 608 + 8 * (core.val % 8) + 2) 1) :=
  if_neg (by simp [hallOn, up, runs])

end

/-! ### The end of a block reset (R197, R486) -/

section
variable {s : State} {src : Source} (resetting : src.val ∈ s.fl.resets) (ident : BitVec 8)
include resetting

/-- The end of a reset of a block other than a cellar takes it off the resets in progress and does no more (R486). -/
theorem exec_blockResetDone_noCellar (noCellar : ∀ c, ownerOf src ≠ .cellar c) :
    exec (.blockResetDone src ident) s =
      .next { s with fl := { s.fl with resets := s.fl.resets.filter fun x => x != src.val } } := by
  show execBlockResetDone src ident s = _
  unfold execBlockResetDone
  rw [if_neg (by simp [resetting])]
  dsimp only
  split
  next c owner => exact absurd owner (noCellar c)
  next => rfl

/-- After a reset of a cellar, its packages that do not answer IDENT are lost (R197, R486). -/
theorem exec_blockResetDone_cellar {c : Nat} (owner : ownerOf src = .cellar c) (up : s.cellarUp c = true)
    (hallOn : s.pw.dev.hallOn = true) :
    let t : State := { s with fl := { s.fl with resets := s.fl.resets.filter fun x => x != src.val } }
    exec (.blockResetDone src ident) s =
      .next ((((t.packages c).filter fun p => !ident.getLsbD p).foldl (fun (u : State) p => u.losePackage c p) t)
        |>.mediaStep) := by
  show execBlockResetDone src ident s = _
  unfold execBlockResetDone
  rw [if_neg (by simp [resetting])]
  dsimp only
  rw [owner]
  exact if_pos (Bool.and_eq_true_iff.2 ⟨up, hallOn⟩)

end

/-- Settles O29: each clause is the lemma of its command; a forced source follows what its FORCE held (log entries 50
and 52). -/
theorem faultCommands : Obligations.FaultCommands :=
  ⟨fun _ collects => exec_collectorFault collects,
    fun s hallOn => ⟨exec_rearm hallOn, exec_trapDone hallOn none, fun w => exec_trapDone hallOn (some w),
      exec_bucketEnClear hallOn,
      fun _ free listed =>
        ⟨fun clear => by simpa [clear] using exec_force hallOn free listed true,
          fun held => by simpa [held] using exec_force hallOn free listed true,
          exec_force hallOn free listed false⟩,
      fun _ fixed on => exec_force_fixed fixed on,
      fun _ up runs => exec_watchdogExpiry hallOn up runs⟩,
    fun _ _ ident resetting =>
      ⟨fun noCellar => exec_blockResetDone_noCellar resetting ident noCellar,
        fun _ owner up hallOn => exec_blockResetDone_cellar resetting ident owner up hallOn⟩⟩

end Sys2Proof.Machine
end

section
/-! PROOF. The Stair and its rings: doorbells and CONTEXT writes (O33, O52), dispatch and completion records (O35, O36),
programs with their waits (O39, O40), and how a channel's command ends or is interrupted (O41, O42). -/

namespace Sys2Proof.Machine

/-! ### Doorbells (R378, R380 to R382, R403) -/

/-- A CTRL value given in a state it acts in acts (R380). -/
theorem ctrl_acts {s : State} {k : Nat} {states : List RingState} (acts : (s.ctx k).state ∈ states)
    (run : State → State) : s.ctrl k states run = run s :=
  if_pos (List.contains_iff_mem.2 acts)

section
variable {s : State} {requester page : Requester} {ring : RingNo} (h : RingDoorbell s requester page ring)
include h

/-- A CTRL value that reaches its ring in a state it acts in (R380). -/
theorem doorbell_ctrl {states : List RingState} (acts : (s.ctx (ringKey page ring)).state ∈ states)
    (run : State → Nat → State) :
    s.doorbell requester.val page.val ring.val (fun s k => s.ctrl k states fun s => run s k) =
      run (s.count 256 1) (ringKey page ring) :=
  (doorbell_run h _).trans (ctrl_acts ((ctx_count s 256 1 _).symm ▸ acts) _)

/-- SQ_TAIL at or ahead of the old tail, by no more than the ring holds, is taken (R381). -/
theorem exec_sqTail_moves {tail : BitVec 32} :
    let k := ringKey page ring
    let c := s.ctx k
    c.state ≠ .idle → (c.sqTail - c.sqHead).toNat ≤ (tail - c.sqHead).toNat → (tail - c.sqHead).toNat ≤ 2 ^ c.sqLog2 →
    exec (.sqTail requester page ring tail) s = .next ((s.count 256 1).setCtx k { c with sqTail := tail }) := by
  intro k c present ahead holds
  show execSqTail requester page ring tail s = _
  refine doorbell_next h _ ?_
  dsimp only
  rw [ctx_count, if_neg (by simpa using present),
    if_pos (Bool.and_eq_true_iff.2 ⟨decide_eq_true ahead, decide_eq_true holds⟩)]

/-- SQ_TAIL behind the old tail, or further ahead than the ring holds, is an error of the ring (R381). -/
theorem exec_sqTail_error {tail : BitVec 32} :
    let k := ringKey page ring
    let c := s.ctx k
    c.state ≠ .idle → c.state ≠ .error →
    (tail - c.sqHead).toNat < (c.sqTail - c.sqHead).toNat ∨ 2 ^ c.sqLog2 < (tail - c.sqHead).toNat →
    exec (.sqTail requester page ring tail) s = .next ((s.count 256 1).ringError k none 0x1E) := by
  intro k c present sound outside
  show execSqTail requester page ring tail s = _
  refine doorbell_next h _ ?_
  have refused : ¬ (decide ((c.sqTail - c.sqHead).toNat ≤ (tail - c.sqHead).toNat) &&
      decide ((tail - c.sqHead).toNat ≤ 2 ^ c.sqLog2)) = true := by
    rw [Bool.and_eq_true_iff, decide_eq_true_iff, decide_eq_true_iff]
    omega
  dsimp only
  rw [ctx_count, if_neg (by simpa using present), if_neg refused, if_neg (by simpa using sound)]

/-- CQ_HEAD up to the tail is taken, and records that wait are written as far as there is room (R382). -/
theorem exec_cqHead_moves {head : BitVec 32} :
    let k := ringKey page ring
    let c := s.ctx k
    c.state ≠ .idle → (head - c.cqHead).toNat ≤ (c.cqTail - c.cqHead).toNat →
    exec (.cqHead requester page ring head) s =
      .next (State.flushRecords c.waiting.length ((s.count 256 1).setCtx k { c with cqHead := head }) k) := by
  intro k c present upTo
  show execCqHead requester page ring head s = _
  refine doorbell_next h _ ?_
  have taken : ¬ (c.state == .idle || decide ((c.cqTail - c.cqHead).toNat < (head - c.cqHead).toNat)) = true := by
    rw [Bool.or_eq_true_iff, beq_iff_eq, decide_eq_true_iff]
    exact not_or.2 ⟨present, Nat.not_lt.2 upTo⟩
  dsimp only
  rw [ctx_count, if_neg taken]

/-- A CONTEXT write that R379 admits sets up the IDLE ring and leaves it STOPPED (R379, R380). -/
theorem exec_context_accepted {data : Line} :
    let k := ringKey page ring
    (s.ctx k).state = .idle → (contextOf data).ok = true →
    exec (.context requester page ring data) s =
      .next (((s.count 256 1).setCtx k (contextOf data)).setRing k .stopped) := by
  intro k idle admitted
  show execContext requester page ring data s = _
  refine doorbell_next h _ ?_
  dsimp only
  rw [ctx_count, if_pos (by simp [k, idle, admitted])]

/-- Any other CONTEXT write is ignored and counted, with an event (R379). -/
theorem exec_context_rejected {data : Line}
    (rejected : (s.ctx (ringKey page ring)).state ≠ .idle ∨ (contextOf data).ok = false) :
    exec (.context requester page ring data) s =
      .next (((s.count 256 1).satReg .RING_ERR_BAD_CONTEXT 0 1).emitReq srcBadContext page 2 0 0) := by
  show execContext requester page ring data s = _
  refine doorbell_next h _ ?_
  dsimp only
  rw [ctx_count, if_neg (by rcases rejected with e | e <;> simp [e]), ringKey_div]

/-- SEM_ADD adds the upper half of its value to the semaphore its low bits name (R403). -/
theorem exec_semAdd (value : Word) : exec (.semAdd requester page ring value) s =
    .next ((s.count 256 1).semAdd page (value.toNat % 64) (value.toNat / 2 ^ 32)) :=
  show execSemAdd requester page ring value s = _ from doorbell_next h _ (by rw [ringKey_div])

/-- EVENT_SET sets flags of its requester (R403). -/
theorem exec_eventSet (flags : Word) : exec (.eventSet requester page ring flags) s =
    .next ((s.count 256 1).eventSet page flags) :=
  show execEventSet requester page ring flags s = _ from doorbell_next h _ (by rw [ringKey_div])

/-- START of a STOPPED ring (R380). -/
theorem exec_ringStart (stopped : (s.ctx (ringKey page ring)).state = .stopped) :
    exec (.ringStart requester page ring) s = .next ((s.count 256 1).setRing (ringKey page ring) .running) :=
  congrArg _ (doorbell_ctrl h (by simp [stopped]) _)

/-- STOP of a RUNNING ring puts back what was fetched and not started (R380; log entry 38). -/
theorem exec_ringStop (running : (s.ctx (ringKey page ring)).state = .running) :
    let k := ringKey page ring
    exec (.ringStop requester page ring) s =
      .next ((((s.count 256 1).unfetch k).setRing k .stopping).ringStopped k) :=
  congrArg _ (doorbell_ctrl h (by simp [running]) _)

/-- RESUME of a ring in ERROR (R380). -/
theorem exec_ringResume (error : (s.ctx (ringKey page ring)).state = .error) :
    exec (.ringResume requester page ring) s = .next ((s.count 256 1).setRing (ringKey page ring) .running) :=
  congrArg _ (doorbell_ctrl h (by simp [error]) _)

/-- RESET of a ring that is STOPPED or in ERROR drops its context, its commands, its channels and their waits (R380; log
entry 38). -/
theorem exec_ringReset
    (resets : (s.ctx (ringKey page ring)).state = .stopped ∨ (s.ctx (ringKey page ring)).state = .error) :
    let k := ringKey page ring
    let t := s.count 256 1
    exec (.ringReset requester page ring) s = .next { t with
      rg := { t.rg with
        ctx := del s.rg.ctx k
        fetched := s.rg.fetched.filter fun x => x.ring != k
        chans := s.rg.chans.filter fun x => x.2.ring != k
        waiters := s.rg.waiters.filter fun x =>
          !((s.rg.chans.filter fun (y : Nat × Channel) => y.2.ring == k).map Prod.fst).contains x } } := by
  intro k t
  show execRingReset requester page ring s = _
  refine congrArg _ ((doorbell_ctrl h (by simpa using resets) _).trans ?_)
  dsimp only [t]
  rw [State.count_rg]

end

/-- Settles O33: each clause is the lemma of its doorbell (log entry 38). -/
theorem doorbellCommands : Obligations.DoorbellCommands := fun _ _ _ _ h =>
  ⟨fun _ => exec_sqTail_moves h, fun _ => exec_sqTail_error h, fun _ => exec_cqHead_moves h, exec_ringStart h,
    exec_ringStop h, exec_ringResume h, exec_ringReset h, fun _ => exec_context_accepted h,
    fun _ => exec_context_rejected h, exec_semAdd h, exec_eventSet h⟩

/-! ### Completion records (R382, R389) -/

section
variable {s : State} {k : Nat} (external : k ≠ internalRing) (present : (s.ctx k).state ≠ .idle)
include external present

/-- A record waits while the completion ring is full or others wait (R382; log entry 38). -/
theorem record_waits (held : (s.ctx k).full = true ∨ (s.ctx k).waiting ≠ []) (x : Nat × Nat × Nat × Nat × Word) :
    s.record k x = s.setCtx k { s.ctx k with waiting := (s.ctx k).waiting ++ [x] } := by
  unfold State.record
  dsimp only
  rw [if_neg (by simp [external, present]), if_pos (by rcases held with e | e <;> simp [e])]

/-- Any other record is written at once (R389). -/
theorem record_written (room : (s.ctx k).full = false) (nobody : (s.ctx k).waiting = [])
    (x : Nat × Nat × Nat × Nat × Word) : s.record k x = s.putRecord k x := by
  unfold State.record
  dsimp only
  rw [if_neg (by simp [external, present]), if_neg (by simp [room, nobody])]

end

/-- A record under interrupt mode 0 goes to the slot of CQ_TAIL and counts towards no message (R389). -/
theorem putRecord_mode0 {s : State} {k : Nat} (mode : (s.ctx k).irqMode = 0) (tag index status flags : Nat)
    (result : Word) :
    let c := s.ctx k
    let slot := c.cqTail.toNat % 2 ^ c.cqLog2
    s.putRecord k (tag, index, status, flags, result) =
      ((s.send (.memWrite (k / 64) (c.cqBase + 16 * slot)
        (toBytes 4 tag ++ toBytes 2 index ++ toBytes 1 status ++ toBytes 1 (flags % 256 + if c.phase then 1 else 0) ++
          toBytes 8 result.toNat) false)).count 258 1).setCtx k { c with
            cqTail := c.cqTail + 1, phase := if slot + 1 = 2 ^ c.cqLog2 then !c.phase else c.phase } := by
  simp [State.putRecord, mode]

/-- Settles O36: a record waits (log entry 38), or is written under interrupt mode 0. -/
theorem completionRecords : Obligations.CompletionRecords :=
  fun _ _ tag index status flags result external present =>
    ⟨fun held => record_waits external present held (tag, index, status, flags, result),
      fun room nobody mode => (record_written external present room nobody _).trans
        (putRecord_mode0 mode tag index status flags result)⟩

/-! ### The end of a channel's command (R385, R389, R390, R396) -/

/-- A key that is there is set to its changed value. -/
theorem adjust_found {α : Type} {m : SMap α} {k : Nat} {v : α} (found : look m k = some v) (f : α → α) :
    adjust m k f = put m k (f v) := by
  unfold adjust
  rw [found]

/-- The channels after the command of one ends. -/
theorem endChan_chans {s : State} {ch : Nat} {c : Channel} (found : look s.rg.chans ch = some c) (status : Nat)
    (result : Word) : (s.endChan ch status result).rg.chans = put s.rg.chans ch
      { c with done := true, status := status, result := result, todo := [], waitBeat := none } :=
  adjust_found found _

/-- A write to a room that its requester may not make fails with REFUSED before anything is done (R385, R396). -/
theorem stairWrite_refused {s : State} {k : Nat} {w : StairWrite} (toRoom : w.space = 0)
    (refused : s.stairMay k w.id w.addr = false) (wing : Nat) : s.stairWrite wing k w = .fails 0x12 s := by
  unfold State.stairWrite
  rw [if_pos toRoom]
  split
  · rfl
  · dsimp only
    rw [if_pos (by simp [refused])]

/-- A command whose next write is refused ends with REFUSED and what it had reached (R385, R396). -/
theorem stairFlush_refused {s : State} {ch : Nat} {c : Channel} {w : StairWrite} {rest : List StairWrite}
    (found : look s.rg.chans ch = some c) (next : c.todo = w :: rest) (toRoom : w.space = 0)
    (refused : s.stairMay c.ring w.id w.addr = false) (n : Nat) :
    State.stairFlush (n + 1) s ch none = s.endChan ch 0x12 c.result := by
  unfold State.stairFlush
  rw [found]
  dsimp only
  rw [next]
  dsimp only
  rw [stairWrite_refused toRoom refused]
  rfl

/-- Settles O42: the table of channels with one of them changed, and a write that is refused. -/
theorem channelEnds : Obligations.ChannelEnds := by
  refine ⟨fun s ch status result c _ found => ⟨?_, fun other ne => ?_, rfl⟩,
    fun s ch c w rest n found next toRoom refused => stairFlush_refused found next toRoom refused n⟩
  · rw [endChan_chans found, look_put_same]
  · rw [endChan_chans found, look_put_other _ _ ne]

/-! ### CONTEXT writes (R377, R379) -/

/-- A field of a word of a line is a field of the line. -/
theorem wordAt_field (d : Line) (i lo width : Nat) (inside : lo + width ≤ 64) :
    (wordAt d i).toNat / 2 ^ lo % 2 ^ width = (d.extractLsb' (64 * i + lo) width).toNat := by
  apply Nat.eq_of_testBit_eq
  intro j
  simp only [wordAt, BitVec.extractLsb'_toNat, Nat.testBit_mod_two_pow, Nat.testBit_div_two_pow, Nat.testBit_shiftRight]
  by_cases hj : j < width
  · have : lo + j < 64 := by omega
    simp [hj, this, Nat.add_comm j lo, Nat.add_assoc]
  · simp [hj]

/-- The sizes and the interrupt mode of a context are the bytes of its fourth word (R377). -/
theorem contextOf_sizes (d : Line) :
    (contextOf d).sqLog2 = (d.extractLsb' 224 8).toNat ∧ (contextOf d).cqLog2 = (d.extractLsb' 232 8).toNat ∧
      (contextOf d).irqMode = (d.extractLsb' 240 8).toNat :=
  ⟨wordAt_field d 3 32 8 (by omega), wordAt_field d 3 40 8 (by omega), wordAt_field d 3 48 8 (by omega)⟩

/-- The interrupt data and the coalescing fields of a context (R377). -/
theorem contextOf_message (d : Line) :
    (contextOf d).msiData.toNat = (d.extractLsb' 192 32).toNat ∧
      (contextOf d).coalesceCount = (d.extractLsb' 384 8).toNat ∧
      (contextOf d).coalesceTime = (d.extractLsb' 392 16).toNat := by
  have data := wordAt_field d 3 0 32 (by omega)
  have count := wordAt_field d 6 0 8 (by omega)
  rw [Nat.pow_zero, Nat.div_one] at data count
  exact ⟨(BitVec.toNat_ofNat ..).trans data, count, wordAt_field d 6 8 16 (by omega)⟩

/-- What R379 admits, by the fields of R377. -/
theorem contextOf_ok (d : Line) :
    let field := fun (lo width : Nat) => (d.extractLsb' lo width).toNat
    (contextOf d).ok = true ↔ 4 ≤ field 224 8 ∧ field 224 8 ≤ 16 ∧ 4 ≤ field 232 8 ∧ field 232 8 ≤ 16 ∧
      field 0 64 % 64 = 0 ∧ field 64 64 % 64 = 0 ∧ field 240 8 ≤ 2 := by
  intro field
  obtain ⟨sq, cq, irq⟩ := contextOf_sizes d
  have sqBase : (contextOf d).sqBase = field 0 64 := rfl
  have cqBase : (contextOf d).cqBase = field 64 64 := rfl
  unfold RingCtx.ok
  rw [sq, cq, irq, sqBase, cqBase]
  simp only [Bool.and_eq_true, decide_eq_true_eq, beq_iff_eq, and_assoc]
  exact Iff.rfl

/-- A saturating count reads back as added. -/
theorem reg_satReg_same {s : State} (ok : RegsOk s.regs) (f : Fld) (i n : Nat) :
    (s.satReg f i n).reg f i = min (2 ^ f.desc.width - 1) (s.reg f i + n) := by
  refine (reg_setReg_same _ _ _ _ ok.1).trans (Nat.mod_eq_of_lt ?_)
  have := Nat.two_pow_pos f.desc.width
  unfold satAdd
  omega

/-- Settles O52: a context that fits is accepted in IDLE; any other one changes no ring and is counted. -/
theorem contextWrites : Obligations.ContextWrites := by
  intro s requester page ring data h k field fits c
  obtain ⟨sq, cq, irq⟩ := contextOf_sizes data
  obtain ⟨msi, count, time⟩ := contextOf_message data
  have admits : c.ok = true ↔ fits := contextOf_ok data
  refine ⟨⟨rfl, rfl, rfl, msi, sq, cq, irq, count, time, rfl, rfl, rfl, rfl, rfl, rfl, rfl, rfl⟩,
    fun idle fit => exec_context_accepted h idle (admits.2 fit), fun bad => ?_⟩
  have rejected : (s.ctx k).state ≠ .idle ∨ c.ok = false :=
    bad.imp_right fun unfit => Bool.eq_false_iff.2 fun ok => unfit (admits.1 ok)
  refine ⟨_, exec_context_rejected h rejected, by simp, fun ok => ?_⟩
  rw [reg_congr (State.emitReq_regs ..)]
  exact reg_satReg_same (((Keeps.refl s).count 256 1).regs ok) _ 0 1

/-! ### Dispatch and completion (R383, R389 to R391, R394, R395) -/

section
variable {s : State} {k : Nat} (serving : s.pw.dev = .serving) (chosen : s.dispatchChoice true = some k)
include serving chosen

/-- DISPATCH starts the command of the chosen ring that was fetched before (R394, R395; log entries 21 and 39). -/
theorem exec_dispatch_fetched {x : RingCmd} (waits : s.unstarted k = some x) (f : Option Line) :
    exec (.dispatch f) s = .next (s.startNext k) := by
  show execDispatch f s = _
  unfold execDispatch
  rw [if_neg (by simp [serving]), chosen]
  dsimp only
  rw [waits]

section
variable (empty : s.unstarted k = none)
include empty

/-- DISPATCH fetches the next command of the chosen ring where none waits (R394; log entry 39). -/
theorem exec_dispatch_fetches (d : Line) :
    exec (.dispatch (some d)) s = .next ((s.fetchCommand k d).startNext k) := by
  show execDispatch (some d) s = _
  unfold execDispatch
  rw [if_neg (by simp [serving]), chosen]
  dsimp only
  rw [empty]

/-- A fetch that fails is HOST_ERROR at SQ_HEAD (R390; log entry 38). -/
theorem exec_dispatch_fetchFails :
    exec (.dispatch none) s = .next (s.ringError k (some (s.ctx k).sqHead) 0x17) := by
  show execDispatch none s = _
  unfold execDispatch
  rw [if_neg (by simp [serving]), chosen]
  dsimp only
  rw [empty]

end

end

/-- A finished command leaves its channel, its waits and the commands in execution. -/
def State.retire (s : State) (ch : Nat) (c : Channel) : State :=
  { s with rg := { s.rg with
    chans := del s.rg.chans ch
    waiters := s.rg.waiters.filter fun x => x != ch
    fetched := s.rg.fetched.filter fun x => !(x.ring == c.ring && x.index == c.index && x.started) } }

/-- The completion record of a channel's command, with bit 8 of the flags asking for an interrupt (R389). -/
def Channel.record (c : Channel) : Nat × Nat × Nat × Nat × Word :=
  ((stairCmd c.cmd).tag, c.index.toNat % 2 ^ 16, c.status,
    (if (stairCmd c.cmd).unordered then 4 else 0) + (if (stairCmd c.cmd).irq then 256 else 0), c.result)

section
variable {s : State} {ch : StairCh} {c : Channel} (found : look s.rg.chans ch = some c) (ended : c.done = true)
include found ended

/-- COMMAND_COMPLETE of a command that did not fail retires it and writes its record, and a STOPPING ring may be STOPPED
with it (R380, R389). -/
theorem exec_commandComplete_ok (well : c.status < 0x10) : exec (.commandComplete ch) s =
    .next (((s.retire ch c).record c.ring c.record).ringStopped c.ring) := by
  show execCommandComplete ch s = _
  unfold execCommandComplete
  rw [found]
  dsimp only
  rw [if_neg (by simp [ended]), if_pos well]
  rfl

/-- COMMAND_COMPLETE of a command that failed also counts the error, with an event, and its ring goes to ERROR (R390). -/
theorem exec_commandComplete_error (failed : 0x10 ≤ c.status) :
    let u := (s.retire ch c).record c.ring c.record
    let v := (u.satReg .STR_STAT_ERRORS ch 1).emit (srcStair ch)
    (v.ctx c.ring).state = .running ∨ (v.ctx c.ring).state = .stopping →
    exec (.commandComplete ch) s = .next (v.ringError c.ring (some c.index) c.status) := by
  intro u v active
  show execCommandComplete ch s = _
  unfold execCommandComplete
  rw [found]
  dsimp only
  rw [if_neg (by simp [ended]), if_neg (Nat.not_lt.2 failed)]
  have stops : ((v.ctx c.ring).state == .running || (v.ctx c.ring).state == .stopping) = true := by simpa using active
  exact if_pos stops

end

/-- COALESCE_TIMER sends the message of the records counted (R383). -/
theorem exec_coalesceTimer {s : State} {requester : Requester} {ring : RingNo} (hallOn : s.pw.dev.hallOn = true)
    (counted : (s.ctx (ringKey requester ring)).counted ≠ 0)
    (timed : (s.ctx (ringKey requester ring)).coalesceTime ≠ 0) :
    exec (.coalesceTimer requester ring) s = .next (s.ringMessage (ringKey requester ring)) :=
  if_neg (by simp [hallOn, counted, timed])

/-- Settles O35: each clause is the lemma of its command (log entries 21, 38 and 39). -/
theorem dispatchCommands : Obligations.DispatchCommands :=
  ⟨fun _ _ serving chosen => ⟨fun f _ waits => exec_dispatch_fetched serving chosen waits f,
      fun d empty => exec_dispatch_fetches serving chosen empty d, exec_dispatch_fetchFails serving chosen⟩,
    fun _ _ _ found ended => ⟨exec_commandComplete_ok found ended, exec_commandComplete_error found ended⟩,
    fun _ _ _ hallOn => exec_coalesceTimer hallOn⟩

/-! ### RUN (R397, R398) -/

/-- RUN fetches the header and the instructions, and starts at instruction 0 (R397, R398; log entry 39). -/
theorem exec_run_starts {s : State} {ch : StairCh} {c : Channel} (h : OnChannel s ch 11 c)
    {header program ws : List StairWord} (new : c.program = []) :
    let d := stairCmd c.cmd
    s.stairReadHeld c.ring d.sspace d.sid d.src (64 + 16 * d.len) = false →
    s.programWords c.ring d header program = .ok ws → ((ws.take 4).filterMap baseOf).length = 4 →
    exec (.run ch header program) s = .next ((s.modChan ch fun c => { c with
      bases := (ws.take 4).filterMap baseOf, program := ws.drop 4, pc := 0 }).programAt ch).settle := by
  intro d free words four
  show execRun ch header program s = _
  unfold execRun
  refine onCommand_next h ?_
  dsimp only
  rw [if_neg (by simp [new, free, d]), words]
  dsimp only
  rw [if_neg (by omega)]

/-! ### Moves, fills and loops of a program (R399 to R402, R405) -/

/-- What an instruction of a channel's program comes to, from what its run gives. -/
theorem onInstr_next {s t : State} {ch : StairCh} {c : Channel} {i : StairInstr} (h : OnChannel s ch 11 c)
    (present : c.instr = some i) {run : State → Channel → StairInstr → State} (gives : run s c i = t) :
    s.onInstr ch.val run = .next t.settle := by
  rw [onInstr_run h present, gives]

/-- The line requests of a row of a MOVE2D, when the row lies inside its base (R400). -/
def State.rowReads (s : State) (ch : Nat) (c : Channel) (b off line : Nat) : State :=
  match c.access b off line with
  | .ok (x, a) => s.stairReads ch x.space x.id a line
  | .error _ => s

section
variable {s : State} {ch : StairCh} {c : Channel} (h : OnChannel s ch 11 c)
include h

section
variable {sb db soff doff len : Nat} (present : c.instr = some (.move sb db soff doff len)) {source : List Byte}
include present

/-- A MOVE whose source has been read goes on with its writes (R400). -/
theorem exec_move_loaded (loaded : c.loaded = true) : exec (.move ch source) s = .next (s.instrGo ch).settle :=
  show execMove ch source s = _ from onInstr_next h present (if_pos loaded)

/-- A MOVE inside its bases reads its source whole, and then writes it (R398, R400). -/
theorem exec_move_reads (fresh : c.loaded = false) {x y : StairBase} {a b : Nat} {bs : List (Byte × Bool)}
    (src : c.access sb soff len = .ok (x, a)) (dst : c.access db doff len = .ok (y, b))
    (free : s.stairReadHeld c.ring x.space x.id a len = false)
    (read : s.stairRead c.ring x.space x.id a len source = .ok bs) :
    exec (.move ch source) s =
      .next ((s.stairReads ch x.space x.id a len).instrLoad ch c (.ok (writesOf y.space y.id b bs))).settle := by
  show execMove ch source s = _
  unfold execMove
  refine onInstr_next h present ?_
  dsimp only
  rw [if_neg (by simp [fresh]), src, dst]
  dsimp only
  rw [if_neg (by simp [free]), read]
  rfl

/-- A MOVE whose source lies outside its base stops the program at this instruction (R398, R405; log entry 42). -/
theorem exec_move_outside (fresh : c.loaded = false) {st : Nat} (outside : c.access sb soff len = .error st) :
    exec (.move ch source) s = .next (s.endChan ch st (pword c.pc)).settle := by
  show execMove ch source s = _
  unfold execMove
  refine onInstr_next h present ?_
  dsimp only
  rw [if_neg (by simp [fresh]), outside]

end

section
variable {sb db soff doff line count sstride dstride : Nat}
  (present : c.instr = some (.move2d sb db soff doff line count sstride dstride)) {source : List Byte}
include present

/-- A MOVE2D whose rows have been read goes on with its writes (R400). -/
theorem exec_move2d_loaded (loaded : c.loaded = true) : exec (.move2d ch source) s = .next (s.instrGo ch).settle :=
  show execMove2d ch source s = _ from onInstr_next h present (if_pos loaded)

section
variable (fresh : c.loaded = false) (free : ∀ i < count, ∀ x a, c.access sb (soff + i * sstride) line = .ok (x, a) →
  s.stairReadHeld c.ring x.space x.id a line = false)
include fresh free

/-- A MOVE2D that waits for no row loads what its rows come to, after the reads of rows that were read (R400, R401). -/
theorem exec_move2d_loads {r : Except Nat (List StairWrite)}
    (rows : s.rows c sb db soff doff line sstride dstride source (List.range count) = r) :
    exec (.move2d ch source) s = .next ((if (r.map mergeWrites).toBool then
      (List.range count).foldl (fun (u : State) i => u.rowReads ch c sb (soff + i * sstride) line) s
      else s).instrLoad ch c (r.map mergeWrites)).settle := by
  show execMove2d ch source s = _
  unfold execMove2d
  refine onInstr_next h present ?_
  dsimp only
  rw [if_neg (by simp [fresh]), rows]
  refine if_neg ?_
  rw [List.any_eq_true]
  rintro ⟨i, inside, held⟩
  split at held
  · next x a access => exact absurd held (by simp [free i (List.mem_range.1 inside) x a access])
  · cases held

/-- A MOVE2D reads all its rows, and then writes the lines they share once (R400, R401; log entry 42). -/
theorem exec_move2d_reads {ws : List StairWrite}
    (rows : s.rows c sb db soff doff line sstride dstride source (List.range count) = .ok ws) :
    exec (.move2d ch source) s = .next (((List.range count).foldl (fun (u : State) i =>
      u.rowReads ch c sb (soff + i * sstride) line) s).instrLoad ch c (.ok (mergeWrites ws))).settle := by
  rw [exec_move2d_loads h present fresh free rows, if_pos]
  · rfl
  · rfl

/-- A MOVE2D with a row that cannot be read or written stops the program at this instruction (R405). -/
theorem exec_move2d_fails {st : Nat}
    (rows : s.rows c sb db soff doff line sstride dstride source (List.range count) = .error st) :
    exec (.move2d ch source) s = .next (s.endChan ch st (pword c.pc)).settle := by
  rw [exec_move2d_loads h present fresh free rows, if_neg]
  · rfl
  · exact Bool.false_ne_true

end

end

/-- A FILL goes on with its writes, or begins with its pattern over its range (R400). -/
theorem exec_fill {db doff len pattern : Nat} (present : c.instr = some (.fill db doff len pattern)) :
    exec (.fill ch) s = .next (if c.loaded then s.instrGo ch else s.instrLoad ch c
      ((c.access db doff len).map fun (y, b) => writesOf y.space y.id b (patternBytes pattern len))).settle :=
  show execFill ch s = _ from onInstr_next h present rfl

section
variable {ctr target count bx by_ dx dy : Nat} (present : c.instr = some (.loop ctr target count bx by_ dx dy))
include present

/-- The last turn of a LOOP drops its counter and goes on behind it (R402). -/
theorem exec_loop_ends (spent : (look c.loops ctr).getD count = 0) : exec (.loop ch) s =
    .next ((s.modChan ch fun c => { c with loops := del c.loops ctr }).advancePc ch).settle :=
  show execLoop ch s = _ from onInstr_next h present (if_pos spent)

/-- Any other turn of a LOOP counts down, steps its two bases and goes back (R402). -/
theorem exec_loop_turns (left : (look c.loops ctr).getD count ≠ 0) : exec (.loop ch) s =
    .next ((s.modChan ch fun x => { x with
      loops := put x.loops ctr ((look c.loops ctr).getD count - 1)
      bases := stepBase (stepBase x.bases bx dx) by_ dy }).jump ch target).settle :=
  show execLoop ch s = _ from onInstr_next h present (if_neg left)

end

/-! ### Waits, signals and PERSIST of a program (R403 to R405) -/

section
variable {kind index value timeout : Nat} (present : c.instr = some (.wait kind index value timeout))
include present

/-- A WAIT on an event flag or a semaphore with nobody before it takes what is there, or becomes the first to wait
(R403). -/
theorem exec_waitInstr_first (named : kind = 0 ∨ kind = 3) (first : s.rg.waiters = []) :
    exec (.waitInstr ch) s = .next (if s.waitMet (c.ring / 64) (kind, index, value) then
      (s.takeWait (c.ring / 64) (kind, index, value)).advancePc ch
      else { s with rg := { s.rg with waiters := s.rg.waiters ++ [ch.val] } }).settle := by
  show execWaitInstr ch s = _
  unfold execWaitInstr
  refine onInstr_next h present ?_
  dsimp only
  rw [if_pos (by simpa using named), first, if_neg (by simp)]
  simp

/-- A WAIT for a beat goes on once it has come, and else waits for it (R403). -/
theorem exec_waitInstr_beat (beat : kind = 1) (new : c.waitBeat = none) :
    exec (.waitInstr ch) s = .next (if value ≤ s.beat then s.advancePc ch
      else s.modChan ch fun c => { c with waitBeat := some value }).settle := by
  subst beat
  show execWaitInstr ch s = _
  unfold execWaitInstr
  refine onInstr_next h present ?_
  dsimp only
  rw [if_neg (by simp), new]
  rfl

/-- The TIMEOUT of a WAIT that still waits ends the command at this instruction (R403, R405). -/
theorem exec_waitTimeout (limited : timeout ≠ 0) (waits : c.waitBeat ≠ none ∨ ch.val ∈ s.rg.waiters) :
    exec (.waitTimeout ch) s =
      .next ((({ s with rg := { s.rg with waiters := s.rg.waiters.filter fun y => y != ch.val } } : State).endChan ch 0x1A
        (pword c.pc)).settle) :=
  have waiting : (c.waitBeat.isSome || s.rg.waiters.contains ch.val) = true := by
    simpa [Option.isSome_iff_ne_none] using waits
  show execWaitTimeout ch s = _ from onInstr_next h present (if_pos
    (Bool.and_eq_true_iff.2 ⟨bne_iff_ne.2 limited, waiting⟩))

/-- The beat of a WAIT ends it (R403). -/
theorem exec_beatWaitEnd {b : Nat} (awaits : c.waitBeat = some b) (come : b ≤ s.beat) :
    exec (.beatWaitEnd ch) s = .next (s.advancePc ch).settle := by
  show execBeatWaitEnd ch s = _
  unfold execBeatWaitEnd
  refine onInstr_next h present ?_
  rw [awaits]
  exact if_pos come

end

section
variable {index value : Nat}

/-- SIGNAL of a record writes one, or lets it wait, while fewer than 8 wait (R404). -/
theorem exec_signal_record (present : c.instr = some (.signal 0 index value))
    (few : (s.ctx c.ring).waiting.length < 8) :
    let d := stairCmd c.cmd
    exec (.signal ch) s = .next ((s.record c.ring (d.tag, c.index.toNat % 2 ^ 16, 0,
      8 + (if d.unordered then 4 else 0) + (if d.irq then 256 else 0), pword value)).advancePc ch).settle :=
  show execSignal ch s = _ from onInstr_next h present (if_neg (Nat.not_le.2 few))

/-- SIGNAL of an interrupt, a semaphore or an event acts at once (R404). -/
theorem exec_signal_other {kind : Nat} (present : c.instr = some (.signal kind index value)) (other : kind ≠ 0) :
    exec (.signal ch) s = .next ((if kind = 1 then s.ringMessage c.ring
      else if kind = 2 then s.semAdd (c.ring / 64) index value
      else s.eventSet (c.ring / 64) (1#64 <<< index)).advancePc ch).settle := by
  show execSignal ch s = _
  unfold execSignal
  refine onInstr_next h present ?_
  dsimp only
  rw [if_neg other]
  split
  · rfl
  · split <;> rfl

end

/-- PERSIST goes on at once (R405; log entry 40). -/
theorem exec_persist (present : c.instr = some .persist) : exec (.persist ch) s = .next (s.advancePc ch).settle :=
  show execPersist ch s = _ from onInstr_next h present rfl

end

/-- Settles O39: each clause is the lemma of its instruction (log entries 39 and 42). -/
theorem stairPrograms : Obligations.StairPrograms := fun _ _ _ h =>
  ⟨fun _ _ _ new => exec_run_starts h new,
    fun _ _ _ _ _ _ present => ⟨exec_move_loaded h present,
      fun fresh _ _ _ _ _ => exec_move_reads h present fresh,
      fun fresh _ => exec_move_outside h present fresh⟩,
    fun _ _ _ _ _ _ _ _ _ present => exec_move2d_loaded h present,
    fun _ _ _ _ _ _ _ _ _ _ present fresh free => exec_move2d_reads h present fresh free,
    fun _ _ _ _ _ _ _ _ _ _ present fresh free => exec_move2d_fails h present fresh free,
    fun _ _ _ _ present => ⟨fun loaded => by rw [exec_fill h present, if_pos loaded],
      fun fresh => by rw [exec_fill h present, if_neg (by simp [fresh])]⟩,
    fun _ _ _ _ _ _ _ present => ⟨exec_loop_ends h present, exec_loop_turns h present⟩⟩

/-- Settles O40: each clause is the lemma of its instruction or of what ends its wait (log entries 40 and 42). -/
theorem stairWaits : Obligations.StairWaits := by
  intro s ch c h
  refine ⟨fun kind index value timeout present => ⟨fun named _ first => ⟨fun met => ?_, fun unmet => ?_⟩,
      fun beat new => ⟨fun come => ?_, fun ahead => ?_⟩, exec_waitTimeout h present,
      fun b => exec_beatWaitEnd h present⟩,
    fun kind index value present => ⟨?_, ?_, ?_, ?_⟩, exec_persist h⟩
  · rw [exec_waitInstr_first h present named first, if_pos met]
  · rw [exec_waitInstr_first h present named first, if_neg (by simp [unmet])]
  · rw [exec_waitInstr_beat h present beat new, if_pos come]
  · rw [exec_waitInstr_beat h present beat new, if_neg (Nat.not_le.2 ahead)]
  · rintro rfl few
    exact exec_signal_record h present few
  · intro interrupt
    rw [exec_signal_other h present (by omega), if_pos interrupt]
  · intro semaphore
    rw [exec_signal_other h present (by omega), if_neg (by omega), if_pos semaphore]
  · intro event
    rw [exec_signal_other h present (by omega), if_neg (by omega), if_neg (by omega)]

/-! ### Interruptions of a channel (R385, R406, R408) -/

/-- PAUSE of a channel whose wing is reached (R408). -/
theorem exec_pause {s : State} {ch : StairCh} (hallOn : s.pw.dev.hallOn = true)
    (reached : s.wingReached (ch.val / 32) = true) (on : Bool) :
    exec (.pause ch on) s = .next (s.setFlag .STR_CTRL_PAUSE ch on) :=
  if_neg (by simp [hallOn, reached])

section
variable {s : State} {ch : StairCh} {c : Channel} (found : look s.rg.chans ch = some c) (runs : c.done = false)
include found runs

/-- ABORT ends a command with ABORTED, the bytes it wrote or the instruction it reached (R408; log entry 41). -/
theorem exec_abort (hallOn : s.pw.dev.hallOn = true) : exec (.abort ch) s = .next (({ s with
    rg := { s.rg with waiters := s.rg.waiters.filter fun y => y != ch.val } } : State).endChan ch 0x1B
      (if c.program.isEmpty then c.result else pword c.pc)) := by
  show execAbort ch s = _
  unfold execAbort
  rw [found]
  exact if_neg (by simp [runs, hallOn])

/-- An access that is not answered in time ends its command with the status of the access (R385). -/
theorem exec_lineRequestTimeout {st : Nat} (waits : c.timeoutStatus = some st) : exec (.lineRequestTimeout ch) s =
    .next ((s.roundFailed c.ring).endChan ch st (if c.program.isEmpty then c.result else pword c.pc)) := by
  show execLineRequestTimeout ch s = _
  unfold execLineRequestTimeout
  rw [found]
  dsimp only
  rw [if_neg (by simp [runs]), waits]

end

/-- Settles O41: each clause is the lemma of its command (log entry 41 for the result of an abort). -/
theorem stairInterruptions : Obligations.StairInterruptions := fun _ _ =>
  ⟨fun on hallOn reached => exec_pause hallOn reached on,
    fun _ found runs => ⟨exec_abort found runs, fun _ => exec_lineRequestTimeout found runs⟩⟩

end Sys2Proof.Machine
end

section
/-! PROOF. Measurement: what a snapshot keeps (O26), the preset of a counter (O53), and BIST by command (O27). -/

namespace Sys2Proof.Machine

/-! ### Flags and registers that a setting leaves alone -/

section
variable (s : State) {f g : Fld} {i j : Nat} (other : ¬ (g = f ∧ j = i))
include other

/-- Setting a flag leaves every other register as it was. -/
theorem reg_setFlag_other (b : Bool) : (s.setFlag f i b).reg g j = s.reg g j := reg_setReg_other _ _ _ _ _ _ other

/-- Setting a register leaves every other flag as it was. -/
theorem flag_setReg_other (v : Nat) : (s.setReg f i v).flag g j = s.flag g j :=
  congrArg (· != 0) (reg_setReg_other _ _ _ _ _ _ other)

/-- Setting a flag leaves every other flag as it was. -/
theorem flag_setFlag_other (b : Bool) : (s.setFlag f i b).flag g j = s.flag g j := flag_setReg_other s other _

end

/-! ### Snapshots (R526 to R528) -/

/-- Both banks hold the live counters of the moment, with the tracker slots in flight (R527, R528). -/
def State.shadowed (s : State) : State :=
  { s with me := { s.me with
    live := put s.me.live 137 s.inFlight, shadow := put s.me.live 137 s.inFlight, roomShadow := s.me.rooms
    snapshotTaken := true } }

/-- PMC_SNAP_STATUS says how and at which beat the snapshot was taken (R527). -/
def State.snapReported (s : State) (late skipped : Bool) : State :=
  let t := (s.setFlag .PMC_SNAP_STATUS_LATE 0 late).setFlag .PMC_SNAP_STATUS_SKIPPED 0 skipped
  t.setReg .PMC_SNAP_STATUS_BEAT 0 t.beat

/-- FREEZE_AT_SNAP freezes the counters (R526). -/
def State.snapFrozen (s : State) : State :=
  if s.flag .PMC_CTRL_FREEZE_AT_SNAP 0 then s.setFlag .PMC_CTRL_FREEZE 0 true else s

section
variable (s : State) (late skipped : Bool)

/-- A snapshot copies the counters, reports, and then freezes them where it is asked to (R526, R527). -/
theorem snapshot_eq : s.snapshot late skipped = (s.shadowed.snapReported late skipped).snapFrozen := rfl

/-- A frozen snapshot differs in no register but FREEZE. -/
theorem reg_snapFrozen_other {f : Fld} {i : Nat} (other : ¬ (f = .PMC_CTRL_FREEZE ∧ i = 0)) :
    s.snapFrozen.reg f i = s.reg f i := by
  unfold State.snapFrozen
  split
  · exact reg_setFlag_other s other _
  · rfl

/-- FREEZE holds after a snapshot where it did before or FREEZE_AT_SNAP asks for it. -/
theorem freeze_snapFrozen (ok : RegsOk s.regs) :
    s.snapFrozen.flag .PMC_CTRL_FREEZE 0 = (s.flag .PMC_CTRL_FREEZE 0 || s.flag .PMC_CTRL_FREEZE_AT_SNAP 0) := by
  unfold State.snapFrozen
  cases asked : s.flag .PMC_CTRL_FREEZE_AT_SNAP 0 with
  | true => rw [if_pos rfl, flag_setFlag ok _ _ _ rfl, Bool.or_true]
  | false => rw [if_neg (by decide), Bool.or_false]

/-- A snapshot changes registers and counters alone. -/
theorem snapshot_frame : s.snapshot late skipped =
    { s with me := s.shadowed.me, regs := (s.snapshot late skipped).regs } := by
  rw [snapshot_eq]
  unfold State.snapFrozen
  split <;> rfl

/-- The report of a snapshot differs in no register but the three of PMC_SNAP_STATUS. -/
theorem sameRegs_snapReported : SameRegs [(.PMC_SNAP_STATUS_LATE, 0), (.PMC_SNAP_STATUS_SKIPPED, 0),
    (.PMC_SNAP_STATUS_BEAT, 0)] s (s.snapReported late skipped) :=
  (((SameRegs.refl _ s).flag _ _ _ (by simp)).flag _ _ _ (by simp)).set _ _ _ (by simp)

variable {s} (ok : RegsOk s.regs)
include ok

/-- LATE reads as the snapshot was. -/
theorem late_snapReported : (s.snapReported late skipped).flag .PMC_SNAP_STATUS_LATE 0 = late :=
  (flag_setReg_other _ (by decide) _).trans
    ((flag_setFlag_other _ (by decide) _).trans (flag_setFlag ok _ _ _ rfl))

/-- SKIPPED reads as the snapshot was. -/
theorem skipped_snapReported : (s.snapReported late skipped).flag .PMC_SNAP_STATUS_SKIPPED 0 = skipped :=
  (flag_setReg_other _ (by decide) _).trans (flag_setFlag (regsOk_setReg _ _ _ ok) _ _ _ rfl)

/-- BEAT reads as the beat of the snapshot, as far as its field goes. -/
theorem beat_snapReported : (s.snapReported late skipped).reg .PMC_SNAP_STATUS_BEAT 0 =
    s.beat % 2 ^ Fld.PMC_SNAP_STATUS_BEAT.desc.width := by
  have beat : ((s.setFlag .PMC_SNAP_STATUS_LATE 0 late).setFlag .PMC_SNAP_STATUS_SKIPPED 0 skipped).beat = s.beat :=
    (reg_setFlag_other _ (by decide) _).trans (reg_setFlag_other _ (by decide) _)
  rw [← beat]
  exact reg_setReg_same _ _ _ _ (regsOk_setReg _ _ _ (regsOk_setReg _ _ _ ok)).1

end

/-- Settles O26: the copies are `shadowed`'s, the report `snapReported`'s, and FREEZE follows FREEZE_AT_SNAP. -/
theorem snapshotCopies : Obligations.SnapshotCopies := by
  intro s late skipped ok t
  let r := s.shadowed.snapReported late skipped
  have rOk : RegsOk r.regs := regsOk_setReg _ _ _ (regsOk_setReg _ _ _ (regsOk_setReg _ _ _ ok))
  have same : SameRegs _ s r := sameRegs_snapReported s.shadowed late skipped
  have kept : ∀ f i, ¬ (f = .PMC_CTRL_FREEZE ∧ i = 0) → t.reg f i = r.reg f i := fun _ _ => reg_snapFrozen_other r
  have keptFlag : ∀ f, f ≠ .PMC_CTRL_FREEZE → t.flag f 0 = r.flag f 0 := fun f other =>
    congrArg (· != 0) (kept f 0 fun e => other e.1)
  have frame : t = { s with me := s.shadowed.me, regs := t.regs } := snapshot_frame s late skipped
  have me : t.me = s.shadowed.me := by rw [frame]
  refine ⟨?_, ?_, ?_, ?_, ?_, ?_, ?_, ?_, ?_, ?_⟩
  · rw [me]; rfl
  · rw [me]; rfl
  · rw [me]; rfl
  · rw [me]; rfl
  · exact (keptFlag _ (by decide)).trans (late_snapReported late skipped ok)
  · exact (keptFlag _ (by decide)).trans (skipped_snapReported late skipped ok)
  · exact (kept _ _ (by decide)).trans (beat_snapReported late skipped ok)
  · refine (freeze_snapFrozen r rOk).trans ?_
    unfold State.flag
    rw [same .PMC_CTRL_FREEZE 0 (by decide), same .PMC_CTRL_FREEZE_AT_SNAP 0 (by decide)]
  · rw [me]
    exact frame
  · intro f i outside
    have reported : (f, i) ∉
        [(Fld.PMC_SNAP_STATUS_LATE, 0), (.PMC_SNAP_STATUS_SKIPPED, 0), (.PMC_SNAP_STATUS_BEAT, 0)] :=
      fun e => outside (List.mem_append_left [_] e)
    have notFreeze : ¬ (f = .PMC_CTRL_FREEZE ∧ i = 0) := by
      rintro ⟨rfl, rfl⟩
      exact outside (by decide)
    exact (kept f i notFreeze).trans (same f i reported)

/-! ### Presets (R524, R525) -/

/-- Unless the counters are frozen, counting adds to the counter, which wraps at 48 bits (R522, R526). -/
theorem live_count {s : State} (thawed : s.flag .PMC_CTRL_FREEZE 0 = false) (c n : Nat) :
    (s.count c n).me.live = put s.me.live c ((lookD s.me.live c 0 + n) % 2 ^ 48) := by
  unfold State.count
  rw [if_neg (by simp [thawed])]
  dsimp only
  split
  · rfl
  · exact live_wrapped _ c

/-- Settles O53: the preset of a 48-bit value is kept whole, and the next event adds to it. -/
theorem counterPreset : Obligations.CounterPreset := by
  intro s block i v c hallOn live shown listed
  have value : lookD (s.preset c v.toNat).me.live c 0 = v.toNat :=
    (lookD_put_same _ _ _ _).trans (Nat.mod_eq_of_lt v.isLt)
  refine ⟨s.preset c v.toNat, exec_pmcWin_live hallOn live shown listed v, value, fun n thawed => ?_,
    fun other apart => lookD_put_other _ _ _ apart, (SameRegs.refl _ s).set _ _ _ (List.mem_singleton.2 rfl), rfl⟩
  rw [live_count thawed, lookD_put_same, value]

/-! ### BIST by command (R458, R533, R534) -/

section
variable {s : State} {w : Wing} (hallOn : s.pw.dev.hallOn = true) (enabled : w.val ∈ s.wings)
  (idle : ∀ r ∈ s.me.running, r.1 ≠ w.val)
include hallOn enabled idle

/-- A wing out of service that no run holds takes a run: its domains switch on, and LBIST makes it TESTING (R458, R533;
log entry 54). -/
theorem bistStart_fenced (fenced : s.svc w = 2) (kind : Nat) :
    let on := (s.fenceGroups w).foldl (fun (u : State) g => u.switchGroup g true) (s.setReg .BST_STATUS_REFUSE w 0)
    let run := ((({ on with me := { on.me with running := on.me.running ++ [(w.val, kind, false)] } } : State).setReg
      .BST_STATUS_STATE w 1).setReg .BST_STATUS_KIND w kind)
    s.bistStart w kind = if kind = 1 then run else run.setReg .HALL_SVC_STATE w 3 := by
  have free : s.bistRefusal w = 0 := by
    unfold State.bistRefusal
    rw [if_neg (show w.val ≠ 8 by omega), if_neg (by simp [enabled]),
      if_neg (by simp only [List.any_eq_true, beq_iff_eq, not_exists, not_and]; exact idle), if_neg (by simp [fenced])]
  unfold State.bistStart
  rw [if_neg (by simp [hallOn]; omega), free]
  rfl

/-- A wing in service refuses the run, with its cause and as REFUSED (R534). -/
theorem bistStart_refused (inService : s.svc w ≠ 2) (kind : Nat) :
    s.bistStart w kind = (s.setReg .BST_STATUS_REFUSE w 1).setReg .BST_STATUS_STATE w 4 := by
  have refused : s.bistRefusal w = 1 := by
    unfold State.bistRefusal
    rw [if_neg (show w.val ≠ 8 by omega), if_neg (by simp [enabled]),
      if_neg (by simp only [List.any_eq_true, beq_iff_eq, not_exists, not_and]; exact idle),
      if_pos (by simp [inService])]
  unfold State.bistStart
  rw [if_neg (by simp [hallOn]; omega), refused]
  rfl

end

/-- The end of a run compares its signatures with the BIST section's, and what follows depends on the result (R533). -/
theorem exec_bistDone {s : State} {target : Fin 9} {kind : Nat} {ret : Bool} {p : Plan} {lb mb : Word}
    (runs : s.me.running.find? (fun r => r.1 == target.val) = some (target.val, kind, ret)) (plan : s.plan = some p) :
    let u : State := { s with me := { s.me with running := s.me.running.filter fun r => r.1 != target.val } }
    let v := u.bistResult target (kind != 1) (kind != 0) (lb, mb)
      (p.bist.wingLbist.getD target 0, p.bist.wingMbist.getD target 0)
    exec (.bistDone target lb mb) s = .next (v.1.bistOver target ret v.2) := by
  intro u v
  show execBistDone target lb mb s = _
  unfold execBistDone
  dsimp only
  split
  · next found held =>
    cases runs.symm.trans found
    cases plan.symm.trans held
    rfl
  · next stays => exact absurd plan (stays _ _ _ _ runs)

/-- Settles O27: a run starts or is refused as `bistStart` says of a wing that is free (log entry 54). -/
theorem bistCommands : Obligations.BistCommands :=
  ⟨fun _ _ hallOn enabled fenced idle =>
      have starts := bistStart_fenced hallOn enabled idle fenced
      ⟨congrArg _ (starts 0), congrArg _ (starts 1), congrArg _ (starts 2)⟩,
    fun _ _ hallOn enabled inService idle => congrArg _ (bistStart_refused hallOn enabled idle inService 0),
    fun _ _ _ _ _ _ _ runs plan => exec_bistDone runs plan⟩

end Sys2Proof.Machine
end

section
/-! PROOF. Faults and the Attic: how an event is counted and captured (O31), the stalling ports and what ends a stall
(O30), and the Attic through the mailbox (O28). -/

namespace Sys2Proof.Machine

/-! ### Leaky buckets (R493) -/

section
variable {s : State} {src : Nat}

/-- A bucket that is off absorbs nothing. -/
theorem bucket_off (off : s.bucketOn src = false) : s.bucket src = (s, false) := if_pos (by simp [off])

/-- A bucket of DEPTH 0, or whose LEVEL has come to DEPTH, overflows and is empty again (R493). -/
theorem bucket_overflows (on : s.bucketOn src = true)
    (full : s.reg .FLT_SRC_DEPTH src = 0 ∨ s.reg .FLT_SRC_LEVEL src = s.reg .FLT_SRC_DEPTH src) :
    s.bucket src = (s.setReg .FLT_SRC_LEVEL src 0, false) := by
  unfold State.bucket
  rw [if_neg (by simp [on]), if_pos (by simpa [State.bucketFull] using full)]

/-- Any other bucket absorbs the event, which raises its LEVEL (R493). -/
theorem bucket_absorbs (on : s.bucketOn src = true) (deep : s.reg .FLT_SRC_DEPTH src ≠ 0)
    (below : s.reg .FLT_SRC_LEVEL src ≠ s.reg .FLT_SRC_DEPTH src) :
    s.bucket src = (s.setReg .FLT_SRC_LEVEL src (s.reg .FLT_SRC_LEVEL src + 1), true) := by
  unfold State.bucket
  rw [if_neg (by simp [on]), if_neg (by simp [State.bucketFull, deep, below])]

end

/-! ### An event at the collector (R481, R482) -/

/-- The state in which an event meets its source's bucket: counted at the source, in total and by its counter (R481). -/
def State.eventCounted (s : State) (src : Nat) : State :=
  ((s.satReg .FLT_SRC_COUNT src 1).satReg .FLT_CNT_EVENTS 0 1).count 352 1

/-- An event of a reserved source does nothing (R482). -/
theorem collect_reserved {s : State} {ev : Ev} (reserved : severityOf ev.info.source = none) : s.collect ev = s :=
  if_pos (by simp [reserved])

/-- An event of any other source is counted, and taken unless the bucket absorbs it (R481, R493). -/
theorem collect_listed {s : State} {ev : Ev} (listed : (severityOf ev.info.source).isSome = true) {t : State}
    {absorbed : Bool} (bucket : (s.eventCounted ev.info.source).bucket ev.info.source = (t, absorbed)) :
    s.collect ev = if absorbed then t else t.takeEvent ev := by
  have known : (severityOf ev.info.source).isNone = false := by
    rw [← Option.not_isSome, listed]
    rfl
  unfold State.eventCounted at bucket
  unfold State.collect
  dsimp only
  rw [if_neg (Bool.eq_false_iff.1 known), bucket]

/-- The first record keeps the first event, and every one after it is counted (R482). -/
theorem capture_first (s : State) (r : ErrRec) :
    (s.fl.first = none → (s.capture r).fl.first = some r ∧ (s.capture r).fl.later = 0) ∧
    (∀ f, s.fl.first = some f → (s.capture r).fl.first = some f ∧
      (s.capture r).fl.later = min (s.fl.later + 1) 0xFFFF) := by
  unfold State.capture
  split
  · next none_ => simp [none_]
  · next f some_ => simp [some_]

/-- The latest record takes every event, and no more than the records changes (R482). -/
theorem capture_last (s : State) (r : ErrRec) :
    s.capture r = { s with fl := { s.fl with
      first := (s.capture r).fl.first, later := (s.capture r).fl.later, last := some r } } := by
  unfold State.capture
  split <;> rfl

/-- Settles O31: an event goes through its bucket, which is off, overflows or absorbs it (log entry 50). -/
theorem eventsCount : Obligations.EventsCount :=
  ⟨fun _ _ => ⟨collect_reserved, fun listed =>
      ⟨fun off => collect_listed listed (bucket_off off),
        fun on full => collect_listed listed (bucket_overflows on full),
        fun on deep below => collect_listed listed (bucket_absorbs on deep below)⟩⟩,
    fun s r => ⟨by rw [capture_last], (capture_first s r).1, (capture_first s r).2, capture_last s r⟩⟩

/-! ### Event queues (R494, R505, R506, R554) -/

section
variable {s : State} {q requester : Nat}

/-- A read of a queue that holds an item removes and returns it (R494). -/
theorem readEvq_item {x : QItem} {rest : List QItem} (item : lookD s.fl.queues q [] = x :: rest) :
    s.readEvq q requester .all = ({ s with fl := { s.fl with
      queues := if rest = [] then del s.fl.queues q else put s.fl.queues q rest } } : State).send
        (.regData requester (evqOffset q) x.word) := by
  unfold State.readEvq
  rw [item]
  simp only [List.isEmpty_iff]
  rfl

/-- A read of an empty queue stalls (R494). -/
theorem readEvq_stalls (empty : lookD s.fl.queues q [] = []) (half : Half) :
    s.readEvq q requester half = { s with fl := { s.fl with stalled := s.fl.stalled ++ [(q, requester, half)] } } := by
  unfold State.readEvq
  rw [empty]

end

section
variable {s : State} {r : Requester} (may : MayAccess s r)
include may

/-- FLT_EVQ of the Hall reads the Hall's queue (R505). -/
theorem exec_fltEvq_hall : exec (.fltEvq none r) s =
    .next ((s.unlatched r (evqOffset 0)).readEvq 0 (s.requesterOf r) .all) :=
  congrArg _ ((port_run may _ _ rfl place_evq0.1).trans (port_evq place_evq0.2 rfl))

/-- FLT_EVQ of a wing that is reached reads the wing's queue (R506). -/
theorem exec_fltEvq_wing {w : Wing} (reached : s.wingReached w = true) : exec (.fltEvq (some w) r) s =
    .next ((s.unlatched r (evqOffset (1 + w.val))).readEvq (1 + w.val) (s.requesterOf r) .all) := by
  have aligned : evqOffset (1 + w.val) % 8 = 0 := by
    unfold evqOffset
    split <;> omega
  exact congrArg _ ((port_run may _ _ aligned (place_evq w).1).trans
    (port_evq (place_evq w).2 (congrArg not reached)))

/-! ### The Attic, Cupboard and sample windows (R507, R509, R521, R537) -/

/-- ATC_WIN gives its word, or all ones where the fetch fails (R507). -/
theorem exec_atcWin (i : Fin 128) (ok : Bool) :
    let u := s.unlatched r (0x3C800 + 8 * i.val)
    exec (.atcWin i r ok) s = .next (u.send (.regData (s.requesterOf r) (0x3C800 + 8 * i.val)
      (if ok then u.atcWord i else BitVec.allOnes 64))) :=
  congrArg _ ((port_run may _ _ (by omega) (place_atc i).1).trans (port_atc (place_atc i).2 rfl))

/-- CPB_DATA gives its word, or stalls while a page is being written (R509, R521). -/
theorem exec_cpbData (i : Fin 8) : exec (.cpbData i r) s =
    .next ((s.unlatched r (0x40040 + 8 * i.val)).readCpb i (s.requesterOf r) .all) :=
  congrArg _ ((port_run may _ _ (by omega) (place_cpb i).1).trans (port_cpb (place_cpb i).2 rfl))

/-- PMC_SMP_WIN of a wing that is reached gives its word, or all ones where the fetch fails (R537). -/
theorem exec_pmcSmpWin {w : Wing} (reached : s.wingReached w = true) (i : Fin 8) (ok : Bool) :
    let u := s.unlatched r (0x1000000 * (1 + w.val) + 0x18800 + 8 * i.val)
    exec (.pmcSmpWin w i r ok) s = .next (u.send (.regData (s.requesterOf r)
      (0x1000000 * (1 + w.val) + 0x18800 + 8 * i.val) (if ok then u.sampleWord w i else BitVec.allOnes 64))) := by
  intro u
  have wing : (8 * w.val + i.val) / 8 = w.val := by omega
  have word : (8 * w.val + i.val) % 8 = i.val := by omega
  refine congrArg _ ((port_run may _ ok (by omega) (place_smp w i).1).trans ?_)
  refine (port_smp (s := u) (place_smp w i).2 (congrArg not reached)).trans ?_
  rw [wing, word]
  rfl

end

/-! ### What ends a stall (R485, R494, R509, R510) -/

section
variable {s : State}

/-- The collector takes an event that is given to it, and accesses that waited go on (R485). -/
theorem exec_event_given (collects : s.collects = true) (e : EventIn) :
    exec (.event (some e)) s = .next (s.collect ⟨e, s.beat, false⟩).release :=
  if_neg (by simp [collects])

/-- The collector takes the oldest event on its way, and accesses that waited go on (R485). -/
theorem exec_event_oldest (collects : s.collects = true) {ev : Ev} {rest : List Ev} (oldest : s.fl.inbox = ev :: rest) :
    exec (.event none) s = .next (({ s with fl := { s.fl with inbox := rest } } : State).collect ev).release := by
  show execEvent none s = _
  unfold execEvent
  rw [if_neg (by simp [collects]), oldest]

/-- The first element of a list is the one taken where it is of the kind asked for. -/
theorem takeFirst_front {α : Type} {p : α → Bool} {x : α} {rest : List α} (front : p x = true) :
    takeFirst p (x :: rest) = some (x, rest) := if_pos front

/-- At the limit the read that has stalled longest on a queue returns a word with VALID clear (R494). -/
theorem exec_evqStallLimit (queue : Option Wing) {r : Nat × Nat × Half} {rest : List (Nat × Nat × Half)} :
    let q := match queue with | none => 0 | some w => 1 + w.val
    r.1 = q → s.fl.stalled = r :: rest → exec (.evqStallLimit queue) s = .next
      (({ s with fl := { s.fl with stalled := rest } } : State).deliver r.2.1 (evqOffset q) r.2.2 0).release := by
  intro q here stalled
  have first : takeFirst (fun (x : Nat × Nat × Half) => x.1 == q) s.fl.stalled = some (r, rest) := by
    rw [stalled]
    exact takeFirst_front (beq_iff_eq.2 here)
  show execEvqStallLimit queue s = _
  unfold execEvqStallLimit
  dsimp only
  split
  · next found =>
    cases first.symm.trans found
    rfl
  · next none_ => cases first.symm.trans none_

/-- The end of a page write lets the reads that waited for it go on (R509, R510). -/
theorem exec_cupboardWriteDone (busy : s.cb.queue ≠ []) (ok : Bool) :
    exec (.cupboardWriteDone ok) s = .next (s.pageDone ok).release :=
  if_neg (by simpa using busy)

end

/-- Settles O30: each port reads its place, and each end of a stall releases what waited. -/
theorem stalledReads : Obligations.StalledReads := by
  refine ⟨⟨fun s r queue may reached => ?_, fun _ _ i ok may => exec_atcWin may i ok, fun s r i may => ⟨fun idle => ?_,
    fun busy => ?_⟩, fun _ _ _ i ok may reached => exec_pmcSmpWin may reached i ok⟩,
    fun _ e collects => exec_event_given collects e, fun _ _ _ collects oldest =>
    exec_event_oldest collects oldest, fun _ queue _ _ =>
    exec_evqStallLimit queue, fun _ ok busy => exec_cupboardWriteDone busy ok⟩
  · intro q u
    have reads : exec (.fltEvq queue r) s = .next (u.readEvq q (s.requesterOf r) .all) := by
      cases queue with
      | none => exact exec_fltEvq_hall may
      | some w => exact exec_fltEvq_wing may (reached w rfl)
    exact ⟨fun _ _ item => reads.trans (congrArg _ (readEvq_item (s := u) item)),
      fun empty => reads.trans (congrArg _ (readEvq_stalls (s := u) empty _))⟩
  · exact (exec_cpbData may i).trans (congrArg _ (if_pos (List.isEmpty_iff.2 idle)))
  · exact (exec_cpbData may i).trans (congrArg _ (if_neg fun e => busy (List.isEmpty_iff.1 e)))

/-! ### The Attic through the mailbox (R426, R502 to R504) -/

section
variable {s : State} {f : Sender} (may : MayCommand s f) (part : Fin 11)
include may

/-- ATTIC_READ answers up to 16 slots of a partition, its records in the buffer included (R502, R503). -/
theorem exec_atticRead (slot count : Nat) : exec (.atticRead f part slot count) s =
    .next (s.mailAnswer f 0xC050 .success ((List.range (min (min count 16) (s.partSlots part.val - slot))).flatMap
      fun i => (s.withBuffered part).slotWords part (slot + i))) :=
  mailRead_next may 0xC050 _

/-- A token that names the latest nonce, this device and the highest term clears the partition, and its nonce is spent
(R426, R504). -/
theorem exec_atticClear_accepted {nonce : BitVec 128} {term : Word} (latest : s.pl.nonce = some nonce)
    (current : s.term = term.toNat) : exec (.atticClear f part nonce s.index term true) s =
      .next ((({ s with pl := { s.pl with nonce := none } } : State).clearPart part).mailAnswer f 0xC051 .success
        []) := by
  have accepted : s.tokenOk nonce s.index term.toNat true = true := by simp [State.tokenOk, latest, current]
  refine mailbox_next may 0xC051 _ ?_
  unfold State.useToken
  rw [if_pos accepted]
  rfl

/-- Any other token is refused, with a record of a TYPE that the spec leaves open (R426, R504; log entry 52). -/
theorem exec_atticClear_refused {nonce : BitVec 128} {member : Nat} {term : Word} {ok : Bool}
    (refused : s.tokenOk nonce member term.toNat ok = false) : exec (.atticClear f part nonce member term ok) s =
      .next ((s.free.2.atticNote 9 1 (0x10 + s.free.1.toNat % 0x70) [pword part.val]).mailAnswer f 0xC051 .invalidInput
        []) := by
  refine mailbox_next may 0xC051 _ ?_
  unfold State.useToken
  rw [if_neg (Bool.eq_false_iff.1 refused)]
  rfl

end

/-- Settles O28: the refusal of a token is recorded under a free TYPE (log entry 52). -/
theorem atticCommands : Obligations.AtticCommands := fun _ _ part may =>
  ⟨exec_atticRead may part, fun _ _ latest current => exec_atticClear_accepted may part latest current,
    fun _ _ _ _ refused => exec_atticClear_refused may part refused⟩

end Sys2Proof.Machine
end

section
/-! PROOF. Power and temperature: the sequencer (O2), the rail monitors (O3), and the sensors with the throttle stage
(O6). -/

namespace Sys2Proof.Machine

/-! ### A step is raised (R444, R447) -/

/-- The monitors of a wait-for-good set start, but for those that run (R444). -/
def State.monitorsStarted (s : State) (wait : BitVec 32) : State :=
  (bitsOf wait).foldl (fun s m => if s.reg .FBX_MON_STATE m == 2 then s else s.setReg .FBX_MON_STATE m 1) s

/-- A step's enables are up and its monitors started (R447). -/
def State.stepEnabled (s : State) (hall : Bool) (k : Nat) : State :=
  ({ s with pw := { s.pw with
    enables := s.pw.enables ||| (s.stepCfg hall k).enable, minOffDone := false } } : State).monitorsStarted
      (s.stepCfg hall k).wait

/-- FBX_SEQ names a step of a sequence going up (R447, R459). -/
def State.stepNamed (s : State) (hall : Bool) (k : Nat) : State :=
  ((s.setReg .FBX_SEQ_STEP 0 k).setFlag .FBX_SEQ_HALL 0 hall).setReg .FBX_SEQ_PHASE 0 1

/-- The fields that raising a step sets (R444, R447, R459). -/
def stepFlds : List Fld := [.FBX_MON_STATE, .FBX_SEQ_STEP, .FBX_SEQ_HALL, .FBX_SEQ_PHASE]

section
variable (s : State)

theorem OnlyRegs.monitorsStarted (wait : BitVec 32) : OnlyRegs s (s.monitorsStarted wait) :=
  (OnlyRegs.refl s).foldl (fun m h => by
    split
    · exact h
    · exact h.setReg _ _ _) _

/-- Starting monitors changes no register but their STATE. -/
theorem reg_monitorsStarted_other (wait : BitVec 32) {f : Fld} (other : f ≠ .FBX_MON_STATE) (i : Nat) :
    (s.monitorsStarted wait).reg f i = s.reg f i :=
  reg_foldl _ _ _ _ (fun s m => by
    split
    · rfl
    · exact reg_setReg_other _ _ _ _ _ _ fun e => other e.1) s

variable {s} in
theorem regsOk_monitorsStarted (ok : RegsOk s.regs) (wait : BitVec 32) : RegsOk (s.monitorsStarted wait).regs :=
  ok_foldl _ _ (fun s m h => by
    split
    · exact h
    · exact regsOk_setReg _ _ _ h) s ok

variable (hall : Bool) (k : Nat)

theorem raiseStep_eq : s.raiseStep hall k =
    { (s.stepEnabled hall k).stepNamed hall k with pw := { ((s.stepEnabled hall k).stepNamed hall k).pw with
      delaying := ((s.stepEnabled hall k).stepNamed hall k).stepGood } } := rfl

/-- Raising a step changes registers and what the Porch knows of the enables and the delay, and nothing else. -/
theorem raiseStep_frame : s.raiseStep hall k =
    { s with regs := (s.raiseStep hall k).regs, pw := { s.pw with
      enables := s.pw.enables ||| (s.stepCfg hall k).enable, minOffDone := false
      delaying := (s.raiseStep hall k).pw.delaying } } := by
  have started := OnlyRegs.monitorsStarted ({ s with pw := { s.pw with
    enables := s.pw.enables ||| (s.stepCfg hall k).enable, minOffDone := false } } : State) (s.stepCfg hall k).wait
  have named : OnlyRegs _ ((s.stepEnabled hall k).stepNamed hall k) :=
    ((started.setReg .FBX_SEQ_STEP 0 k).setReg .FBX_SEQ_HALL 0 _).setReg .FBX_SEQ_PHASE 0 1
  rw [raiseStep_eq]
  unfold OnlyRegs at named
  rw [named]

/-- Raising a step changes no register but FBX_SEQ's and the STATE of monitors. -/
theorem reg_raiseStep_other {f : Fld} (other : f ∉ stepFlds) (i : Nat) : (s.raiseStep hall k).reg f i = s.reg f i := by
  simp only [stepFlds, List.mem_cons, not_or] at other
  obtain ⟨monitor, step, die, phase, -⟩ := other
  show ((s.stepEnabled hall k).stepNamed hall k).reg f i = _
  unfold State.stepNamed State.setFlag
  rw [reg_setReg_other _ _ _ _ _ _ fun e => phase e.1, reg_setReg_other _ _ _ _ _ _ fun e => die e.1,
    reg_setReg_other _ _ _ _ _ _ fun e => step e.1]
  exact reg_monitorsStarted_other _ _ monitor i

end

/-- FBX_SEQ reads as the step it names: its number, its die and PHASE 1 (R459). -/
theorem seq_stepNamed {s : State} (ok : RegsOk s.regs) (hall : Bool) (k : Nat) :
    (s.stepNamed hall k).reg .FBX_SEQ_STEP 0 = k % 2 ^ Fld.FBX_SEQ_STEP.desc.width ∧
    (s.stepNamed hall k).flag .FBX_SEQ_HALL 0 = hall ∧ (s.stepNamed hall k).reg .FBX_SEQ_PHASE 0 = 1 := by
  have stepped := regsOk_setReg .FBX_SEQ_STEP 0 k ok
  unfold State.stepNamed
  refine ⟨?_, ?_, reg_setReg_same _ _ _ _ (regsOk_setReg _ _ _ stepped).1⟩
  · exact (reg_setReg_other _ _ _ _ _ _ (by decide)).trans ((reg_setFlag_other _ (by decide) _).trans
      (reg_setReg_same _ _ _ _ ok.1))
  · exact (flag_setReg_other _ (by decide) _).trans (flag_setFlag stepped _ _ _ rfl)

/-- FBX_SEQ reads as the step raised (R447, R459). -/
theorem seq_raiseStep {s : State} (ok : RegsOk s.regs) (hall : Bool) (k : Nat) :
    (s.raiseStep hall k).reg .FBX_SEQ_STEP 0 = k % 2 ^ Fld.FBX_SEQ_STEP.desc.width ∧
    (s.raiseStep hall k).flag .FBX_SEQ_HALL 0 = hall ∧ (s.raiseStep hall k).reg .FBX_SEQ_PHASE 0 = 1 :=
  seq_stepNamed (regsOk_monitorsStarted (s := { s with pw := { s.pw with
    enables := s.pw.enables ||| (s.stepCfg hall k).enable, minOffDone := false } }) ok _) hall k

/-! ### Entry to POWERING (R441, R449, R452, R464, R552) -/

/-- The fields of a monitor's window, which the Hall's monitors have fixed (R446). -/
def windowFlds : List Fld := [.FBX_MON_LOW, .FBX_MON_HIGH, .FBX_MON_GLITCH, .FBX_MON_QUAL]

/-- The device is in POWERING, from SLUMBER or not, and nothing that stopped it before is left. -/
def State.powerMoved (s : State) (wake : Bool) : State :=
  ({ s with pw := { s.pw with
    wakeLatched := false, fromSlumber := wake, slumbering := false, chipReset := false, shutdownTo := .off } } :
      State).goto .powering

/-- The state in which entry to POWERING raises the first Hall step: the registers of R552 are at their values, the
windows of the Hall's monitors are set, and the halt's cause is gone. -/
def State.powerEntered (s : State) : State :=
  (((s.powerRegs (s.pw.dev == .slumber)).fixedMons.powerMoved (s.pw.dev == .slumber)).setReg .HALL_STATE_HALT_CAUSE 0
    0).charger

section
variable (s : State)

theorem enterPowering_eq : s.enterPowering = s.powerEntered.raiseStep true 1 := rfl

/-- A field that the entry to POWERING keeps reads as before (R552). -/
theorem reg_powerRegs_kept (wake : Bool) {f : Fld} (kept : f.kept = true) (i : Nat) :
    (s.powerRegs wake).reg f i = s.reg f i := by
  unfold State.powerRegs State.reg
  dsimp only
  rw [look_filter_key s.regs fun k => (keyFld k).kept || (wake && wingRwKey k), if_pos (by simp [kept])]

theorem OnlyRegs.fixedMons : OnlyRegs s s.fixedMons :=
  (OnlyRegs.refl s).foldl (fun _ h => (((h.setReg _ _ _).setReg _ _ _).setReg _ _ _).setReg _ _ _) _

theorem reg_fixedMons_other {f : Fld} (other : f ∉ windowFlds) (i : Nat) : s.fixedMons.reg f i = s.reg f i :=
  reg_foldl _ _ _ _ (fun s m => by
    have apart : ∀ g ∈ windowFlds, ¬ (f = g ∧ i = m) := fun g listed e => other (e.1 ▸ listed)
    dsimp only
    rw [reg_setReg_other _ _ _ _ _ _ (apart _ (by decide)), reg_setReg_other _ _ _ _ _ _ (apart _ (by decide)),
      reg_setReg_other _ _ _ _ _ _ (apart _ (by decide)), reg_setReg_other _ _ _ _ _ _ (apart _ (by decide))]) s

variable {s} in
theorem regsOk_fixedMons (ok : RegsOk s.regs) : RegsOk s.fixedMons.regs :=
  ok_foldl _ _ (fun _ _ h =>
    regsOk_setReg _ _ _ (regsOk_setReg _ _ _ (regsOk_setReg _ _ _ (regsOk_setReg _ _ _ h)))) s ok

@[simp] theorem State.powerMoved_regs (wake : Bool) : (s.powerMoved wake).regs = s.regs := rfl

/-- Before its first step, the entry to POWERING has moved the device's state, and registers. -/
theorem powerEntered_frame : s.powerEntered =
    { s.powerMoved (s.pw.dev == .slumber) with regs := s.powerEntered.regs } := by
  have windows := OnlyRegs.fixedMons (s.powerRegs (s.pw.dev == .slumber))
  unfold OnlyRegs at windows
  unfold State.powerEntered State.charger State.setFlag
  rw [windows]
  rfl

/-- Before its first step, the entry to POWERING has kept a field of R552 that it does not set itself. -/
theorem reg_powerEntered_kept {f : Fld} (kept : f.kept = true) (window : f ∉ windowFlds)
    (halt : f ≠ .HALL_STATE_HALT_CAUSE) (charge : f ≠ .PRC_RES_STATUS_CHG_EN) (i : Nat) :
    s.powerEntered.reg f i = s.reg f i := by
  unfold State.powerEntered State.charger
  rw [reg_setFlag_other _ (fun e => charge e.1), reg_setReg_other _ _ _ _ _ _ (fun e => halt e.1),
    reg_congr (State.powerMoved_regs _ _), reg_fixedMons_other _ window, reg_powerRegs_kept s _ kept]

/-- A field that R552 keeps, and that the entry to POWERING does not set itself, reads as before (R552). -/
theorem reg_enterPowering_kept {f : Fld} (kept : f.kept = true)
    (other : f ∉ windowFlds ++ stepFlds ++ [.HALL_STATE_HALT_CAUSE, .PRC_RES_STATUS_CHG_EN]) (i : Nat) :
    s.enterPowering.reg f i = s.reg f i := by
  simp only [List.mem_append, List.mem_cons, not_or] at other
  obtain ⟨⟨window, step⟩, halt, charge, -⟩ := other
  exact (reg_raiseStep_other _ _ _ step i).trans (reg_powerEntered_kept s kept window halt charge i)

variable {s} (ok : RegsOk s.regs)
include ok

theorem regsOk_powerEntered : RegsOk s.powerEntered.regs := by
  unfold State.powerEntered State.charger State.setFlag
  refine regsOk_setReg _ _ _ (regsOk_setReg _ _ _ ?_)
  rw [State.powerMoved_regs]
  exact regsOk_fixedMons (regsOk_filter ok _)

theorem haltCause_powerEntered : s.powerEntered.reg .HALL_STATE_HALT_CAUSE 0 = 0 := by
  unfold State.powerEntered State.charger
  rw [reg_setFlag_other _ (by decide), reg_setReg_same]
  · rfl
  · rw [State.powerMoved_regs]
    exact (regsOk_fixedMons (regsOk_filter ok _)).1

end

/-- What entry to POWERING leaves: the first Hall step raised, and what R552 keeps as it was (R447, R449, R552). -/
theorem enterPowering_leaves {s : State} (ok : RegsOk s.regs) :
    s.enterPowering.pw.dev = .powering ∧ s.enterPowering.pw.previous = s.pw.dev ∧
    s.enterPowering.pw.enables = s.pw.enables ||| 1#48 ∧ s.enterPowering.pw.wakeLatched = false ∧
    s.enterPowering.reg .FBX_SEQ_STEP 0 = 1 ∧ s.enterPowering.flag .FBX_SEQ_HALL 0 = true ∧
    s.enterPowering.reg .FBX_SEQ_PHASE 0 = 1 ∧ s.enterPowering.reg .HALL_STATE_HALT_CAUSE 0 = 0 ∧
    s.enterPowering.reg .FBX_SEQ_RETRIES_LEFT 0 = s.reg .FBX_SEQ_RETRIES_LEFT 0 ∧
    s.enterPowering.reg .PRC_IN_STATUS_VIN 0 = s.reg .PRC_IN_STATUS_VIN 0 ∧
    s.enterPowering.beat = s.beat ∧
    s.enterPowering = { s with regs := s.enterPowering.regs, pw := s.enterPowering.pw } := by
  have entered := powerEntered_frame s
  have raised := raiseStep_frame s.powerEntered true 1
  rw [← enterPowering_eq] at raised
  have enteredPw : s.powerEntered.pw = (s.powerMoved (s.pw.dev == .slumber)).pw := by rw [entered]
  have raisedPw := congrArg State.pw raised
  dsimp only at raisedPw
  rw [enteredPw] at raisedPw
  obtain ⟨step, die, phase⟩ := seq_raiseStep (regsOk_powerEntered ok) true 1
  refine ⟨by rw [raisedPw]; rfl, by rw [raisedPw]; rfl, by rw [raisedPw]; rfl, by rw [raisedPw]; rfl, step, die, phase,
    (reg_raiseStep_other _ _ _ (by decide) 0).trans (haltCause_powerEntered ok),
    reg_enterPowering_kept s (by decide) (by decide) 0, reg_enterPowering_kept s (by decide) (by decide) 0,
    reg_enterPowering_kept s (by decide) (by decide) 0, ?_⟩
  have moved := congrArg (fun u : State => { u with regs := s.enterPowering.regs, pw := s.enterPowering.pw }) entered
  exact (by rw [raised] : s.enterPowering =
    { s.powerEntered with regs := s.enterPowering.regs, pw := s.enterPowering.pw }).trans moved

/-! ### Steps, timeouts, reversal and retry (R447 to R450) -/

section
variable {s : State}

/-- Once a Hall step but the last is good for its delay, the next one is raised (R447). -/
theorem exec_stepDelayExpiry_hall (up : s.poweringUp = true) (delaying : s.pw.delaying = true)
    (die : s.flag .FBX_SEQ_HALL 0 = true) (notLast : s.reg .FBX_SEQ_STEP 0 < 4) :
    exec .stepDelayExpiry s = .next (s.raiseStep true (s.reg .FBX_SEQ_STEP 0 + 1)) := by
  show execStepDelayExpiry s = _
  unfold execStepDelayExpiry
  rw [if_neg (by simp [up, delaying])]
  dsimp only
  rw [if_pos die, if_pos notLast]

/-- A step whose monitors are late is a sequence fault, counted and kept for BOOT, unless an off request waits (R449,
R450). -/
theorem exec_stepTimeout_fault (dev : s.pw.dev = .powering ∨ s.pw.dev = .boot) (late : s.stepWaits = true)
    (stays : s.flag .FBX_SEQ_OFF_LATCHED 0 = false) : exec .stepTimeout s =
      .next ((({ s with pw := { s.pw with timeouts := s.pw.timeouts ++ [s.lateMonitor] } } : State).satReg
        .FBX_RAILCNT_SEQ_TIMEOUTS s.lateMonitor 1).sequenceFault s.lateMonitor) := by
  have waits : ¬ (!(s.pw.dev == .powering || s.pw.dev == .boot) || !s.stepWaits) = true := by
    rcases dev with e | e <;> simp [late, e]
  have on : ∀ u : State, (u.satReg .FBX_RAILCNT_SEQ_TIMEOUTS s.lateMonitor 1).flag .FBX_SEQ_OFF_LATCHED 0 =
      u.flag .FBX_SEQ_OFF_LATCHED 0 := fun u => flag_setReg_other u (by simp) _
  show execStepTimeout s = _
  unfold execStepTimeout
  rw [if_neg waits]
  dsimp only
  rw [on, if_neg]
  exact Bool.eq_false_iff.1 stays

/-- In a power-down or a reversal the next lower step drops (R448, R449). -/
theorem exec_powerDownStepDelay_lower (down : s.reg .FBX_SEQ_PHASE 0 = 2 ∨ s.reg .FBX_SEQ_PHASE 0 = 3)
    (delaying : s.pw.delaying = true) (notFirst : 1 < s.reg .FBX_SEQ_STEP 0) : exec .powerDownStepDelay s =
      .next ((s.setReg .FBX_SEQ_STEP 0 (s.reg .FBX_SEQ_STEP 0 - 1)).dropStep (s.flag .FBX_SEQ_HALL 0)
        (s.reg .FBX_SEQ_STEP 0 - 1)) :=
  (if_pos (by simpa [delaying] using down) : exec .powerDownStepDelay s = .next s.stepDown).trans
    (congrArg _ (if_pos notFirst))

/-- With a retry left, the end of the backoff takes one and enters POWERING (R449). -/
theorem exec_seqFaultRetry (dev : s.pw.dev = .seqFault) (reversed : s.reg .FBX_SEQ_PHASE 0 = 0)
    (left : s.reg .FBX_SEQ_RETRIES_LEFT 0 ≠ 0) : exec .seqFaultRetry s =
      .next (s.setReg .FBX_SEQ_RETRIES_LEFT 0 (s.reg .FBX_SEQ_RETRIES_LEFT 0 - 1)).enterPowering :=
  if_pos (by simp [dev, reversed, left])

/-- The group in front has switched: FBX_PD says so, and SWITCHING while others wait (R457). -/
theorem exec_groupSwitchDone {g : Fin 46} {on : Bool} {rest : List (Nat × Bool)}
    (front : s.pw.switching = (g.val, on) :: rest) (ok : RegsOk s.regs) :
    ∃ t, exec (.groupSwitchDone g) s = .next t ∧ t.pw.switching = rest ∧
      (t.flag .FBX_PD_SWITCHING 0 = !rest.isEmpty) ∧
      t = { s with regs := t.regs, pw := { s.pw with switching := rest } } ∧
      SameRegs [(.FBX_PD_ON, 0), (.FBX_PD_SWITCHING, 0)] s t := by
  let u : State := { s with pw := { s.pw with switching := rest } }
  let v := (s.groupDomains g).foldl
    (fun v d => if on then v ||| 2 ^ d else if v.testBit d then v - 2 ^ d else v) (s.reg .FBX_PD_ON 0)
  have done : exec (.groupSwitchDone g) s =
      .next ((u.setReg .FBX_PD_ON 0 v).setFlag .FBX_PD_SWITCHING 0 !rest.isEmpty) := by
    show execGroupSwitchDone g s = _
    unfold execGroupSwitchDone
    rw [front]
    exact if_neg (by simp)
  exact ⟨_, done, rfl, flag_setFlag (regsOk_setReg _ _ _ ok) _ _ _ rfl, rfl,
    ((SameRegs.refl _ s).set _ _ _ (by simp)).flag _ _ _ (by simp)⟩

end

/-- Settles O2: what entry to POWERING leaves, and each command of the sequencer and of the domain groups. -/
theorem sequencerCommands : Obligations.SequencerCommands := by
  refine ⟨fun s ok => enterPowering_leaves ok, fun s up delaying die notLast ok => ?_,
    fun s dev late stays => exec_stepTimeout_fault dev late stays,
    fun s down delaying notFirst => exec_powerDownStepDelay_lower down delaying notFirst,
    fun s dev reversed left => exec_seqFaultRetry dev reversed left,
    fun s g on rest front ok => exec_groupSwitchDone front ok⟩
  have raised := raiseStep_frame s true (s.reg .FBX_SEQ_STEP 0 + 1)
  refine ⟨_, exec_stepDelayExpiry_hall up delaying die notLast, ?_, by rw [raised]; rfl, by rw [raised], by rw [raised]⟩
  exact (seq_raiseStep ok true _).1.trans (Nat.mod_eq_of_lt (by show _ < 64; omega))

/-! ### Rail monitors (R443, R444, R447, R453, R571) -/

section
variable {s : State} {m : Mon}

/-- The length of an excursion, kept to 256 conversions for the glitch filter (R444). -/
theorem outside_convert (sorted : SortedKeys s.pw.outside) (reading : Nat) :
    lookD (s.convert m reading).pw.outside m 0 =
      if reading < s.reg .FBX_MON_LOW m || s.reg .FBX_MON_HIGH m < reading then
        min (lookD s.pw.outside m 0 + 1) 256
      else 0 := by
  unfold State.convert
  dsimp only
  cases reading < s.reg .FBX_MON_LOW m || s.reg .FBX_MON_HIGH m < reading with
  | true => simp [lookD_put_same]
  | false => simp [lookD, look_del_same sorted]

/-- An enabled monitor's conversion gives its reading and whether it lies outside the window (R443, R444). -/
theorem exec_monitorConversion {v : BitVec 12} (powered : s.pw.dev ≠ .noVstby) (enabled : s.monEnabled m = true)
    (ok : RegsOk s.regs) (sorted : SortedKeys s.pw.outside) :
    ∃ t, exec (.monitorConversion m v) s = .next t ∧ t.reg .FBX_MON_READING m = v.toNat ∧
      let out := v.toNat < s.reg .FBX_MON_LOW m || s.reg .FBX_MON_HIGH m < v.toNat
      t.flag .FBX_MON_OUTSIDE m = out ∧
      lookD t.pw.outside m 0 = (if out then min (lookD s.pw.outside m 0 + 1) 256 else 0) ∧
      t = { s with regs := t.regs, pw := { s.pw with outside := t.pw.outside } } ∧
      SameRegs [(.FBX_MON_READING, m.val), (.FBX_MON_OUTSIDE, m.val)] s t := by
  refine ⟨s.convert m v.toNat, if_neg (by simp [powered, enabled]), ?_, ?_, outside_convert sorted _, rfl, ?_⟩
  · exact (reg_setFlag_other (s.setReg .FBX_MON_READING m v.toNat) (by simp) _).trans
      ((reg_setReg_same _ _ _ _ ok.1).trans (Nat.mod_eq_of_lt v.isLt))
  · exact flag_setFlag (regsOk_setReg .FBX_MON_READING m v.toNat ok) _ _ _ rfl
  · exact ((SameRegs.refl _ s).set .FBX_MON_READING m v.toNat (by simp)).flag .FBX_MON_OUTSIDE m _ (by simp)

/-- A monitor that qualifies outside a power-up runs, and moves no sequence (R444). -/
theorem exec_monitorQualified_idle (starting : s.reg .FBX_MON_STATE m = 1) (inside : s.flag .FBX_MON_OUTSIDE m = false)
    (idle : s.poweringUp = false) : exec (.monitorQualified m) s =
      .next { s.setReg .FBX_MON_STATE m 2 with pw := { s.pw with outside := del s.pw.outside m } } := by
  have phase : (s.setReg .FBX_MON_STATE m 2).reg .FBX_SEQ_PHASE 0 = s.reg .FBX_SEQ_PHASE 0 :=
    reg_setReg_other _ _ _ _ _ _ (by simp)
  let u : State := { s.setReg .FBX_MON_STATE m 2 with pw := { s.pw with outside := del s.pw.outside m } }
  have still : u.poweringUp = false := by
    rw [← idle]
    exact congrArg (fun p => p == 1 && (s.pw.dev == .powering || s.pw.dev == .boot)) phase
  show execMonitorQualified m s = _
  unfold execMonitorQualified
  rw [if_neg (by simp [starting, inside])]
  refine if_neg fun moves => ?_
  obtain ⟨upGood, -⟩ := Bool.and_eq_true_iff.1 moves
  obtain ⟨up, -⟩ := Bool.and_eq_true_iff.1 upGood
  exact absurd (up.symm.trans still) (by decide)

/-- A running monitor's excursion longer than its glitch filter is a rail fault, low or high, outside DRAINING (R444,
R453). -/
theorem exec_railFault (running : s.reg .FBX_MON_STATE m = 2)
    (long : s.reg .FBX_MON_GLITCH m < lookD s.pw.outside m 0) (dev : s.pw.dev ≠ .draining) :
    exec (.railFault m) s =
      .next (s.railFault m (if s.reg .FBX_MON_READING m < s.reg .FBX_MON_LOW m then 2 else 3)) := by
  show execRailFault m s = _
  unfold execRailFault
  dsimp only
  rw [if_neg (by simp [running, long]), if_neg (by simp [dev])]

/-- The loss of the local reference from POWERING to DRAINING is a rail fault of no monitor, of kind 4 (R459, R571). -/
theorem exec_lrefLoss (dev : s.pw.dev ∈ [DevState.powering, .boot, .recovery, .serving, .draining]) :
    exec .lrefLoss s = .next (s.railFault 32 4) := by
  show execLrefLoss s = _
  unfold execLrefLoss
  generalize s.pw.dev = d at dev
  cases d with
  | powering | boot | recovery | serving | draining => rfl
  | off | standby | slumber | halted | thermalLatch | seqFault | noVstby => simp at dev

end

/-- Settles O3: the kind of a lost local reference is R459's 4, where R571 says 0. -/
theorem railMonitors : Obligations.RailMonitors :=
  ⟨fun _ _ _ powered enabled ok sorted => exec_monitorConversion powered enabled ok sorted,
    fun _ _ starting inside idle => exec_monitorQualified_idle starting inside idle,
    fun _ _ running long dev => exec_railFault running long dev, fun _ dev => exec_lrefLoss dev⟩

/-! ### Temperature sensors (R468 to R470) -/

/-- A reading is valid from -55 °C to 150 °C (R468). -/
def sensorOk (t : Int) : Bool := decide (-220 ≤ t) && decide (t ≤ 600)

/-- The registers of a sensor that has converted: its temperature, whether that is valid, whether the sensor converts at
the fast rate, and its raw count (R468, R469). -/
def State.sensorRead (s : State) (i count : Nat) : State :=
  let t := sensorTemp i count
  let u := (s.setReg .CHM_TS_TEMP i (unsignedOf 16 t)).setFlag .CHM_TS_VALID i (sensorOk t)
  let low := min (signed16 (u.reg .CHM_LEVELS_THROTTLE 0)) (signed16 (u.reg .CHM_LEVELS_SHUTDOWN 0))
  (u.setFlag .CHM_TS_FAST i (low - 32 ≤ t)).setReg .CHM_TS_COUNT i count

/-- What follows a conversion before the levels are compared: it is counted at the fast rate, an invalid reading is an
event, and CHM_STATUS names the hottest sensor (R468 to R470). -/
def State.sensorReported (s : State) (i : Nat) (ok : Bool) : State :=
  let s := if s.flag .CHM_TS_FAST i then s.count 165 1 else s
  let s := s.level (srcSensor i) !ok
  match s.hottest with
  | some (j, v) => (s.setReg .CHM_STATUS_HOTTEST 0 j).setReg .CHM_STATUS_TEMP 0 (unsignedOf 16 v)
  | none => s

section
variable {s : State}

/-- A sensor's registers read as its conversion (R468, R469). -/
theorem reg_sensorRead (ok : RegsOk s.regs) (i : Nat) (count : BitVec 16) :
    (s.sensorRead i count.toNat).reg .CHM_TS_COUNT i = count.toNat ∧
    (s.sensorRead i count.toNat).reg .CHM_TS_TEMP i = unsignedOf 16 (sensorTemp i count.toNat) ∧
    (s.sensorRead i count.toNat).flag .CHM_TS_VALID i = sensorOk (sensorTemp i count.toNat) := by
  have tempOk := regsOk_setReg .CHM_TS_TEMP i (unsignedOf 16 (sensorTemp i count.toNat)) ok
  have validOk := regsOk_setReg .CHM_TS_VALID i (if sensorOk (sensorTemp i count.toNat) then 1 else 0) tempOk
  unfold State.sensorRead
  refine ⟨?_, ?_, ?_⟩
  · exact (reg_setReg_same _ _ _ _ (regsOk_setReg _ _ _ validOk).1).trans (Nat.mod_eq_of_lt count.isLt)
  · exact (reg_setReg_other _ _ _ _ _ _ (by simp)).trans ((reg_setFlag_other _ (by simp) _).trans
      ((reg_setFlag_other _ (by simp) _).trans ((reg_setReg_same _ _ _ _ ok.1).trans
        (Nat.mod_eq_of_lt (BitVec.isLt _)))))
  · exact (flag_setReg_other _ (by simp) _).trans ((flag_setFlag_other _ (by simp) _).trans
      (flag_setFlag tempOk _ _ _ rfl))

/-- The report of a conversion changes none of the sensors' registers. -/
theorem reg_sensorReported (i : Nat) (ok : Bool) {f : Fld}
    (other : f ∉ [.PMC_OVF, .FLT_SRC_STATUS, .CHM_STATUS_HOTTEST, .CHM_STATUS_TEMP]) (j : Nat) :
    (s.sensorReported i ok).reg f j = s.reg f j := by
  simp only [List.mem_cons, not_or] at other
  obtain ⟨overflow, status, hottest, temp, -⟩ := other
  have counted : (if s.flag .CHM_TS_FAST i then s.count 165 1 else s).reg f j = s.reg f j := by
    split
    · exact reg_count_other _ _ _ _ _ overflow
    · rfl
  have levelled := (reg_level_other _ (srcSensor i) (!ok) f j status).trans counted
  unfold State.sensorReported
  dsimp only
  split
  · exact (reg_setReg_other _ _ _ _ _ _ fun e => temp e.1).trans
      ((reg_setReg_other _ _ _ _ _ _ fun e => hottest e.1).trans levelled)
  · exact levelled

/-- The report of a conversion moves neither the device nor its rooms. -/
theorem sensorReported_frame (i : Nat) (ok : Bool) :
    (s.sensorReported i ok).pw = s.pw ∧ (s.sensorReported i ok).rooms = s.rooms := by
  unfold State.sensorReported
  dsimp only
  split <;> split <;> simp

/-- A sensor of the Hall converts while the Porch has power, and the levels are compared after it (R468 to
R470). -/
theorem exec_sensorConversion_hall {i : Sensor} (powered : s.pw.dev ≠ .noVstby) (hall : i.val < 8) (count : BitVec 16) :
    exec (.sensorConversion i count) s = .next ((s.sensorRead i count.toNat).sensorReported i
      (sensorOk (sensorTemp i count.toNat))).thermalLevels :=
  if_neg (by simp [powered, hall])

/-- STAGE_STEP moves the throttle stage up while THROTTLE is set, and down after it clears (R471). -/
theorem exec_stageStep (hallOn : s.pw.dev.hallOn = true) : exec .stageStep s =
    .next (s.setStage (if s.flag .CHM_STATUS_THROTTLE 0 then min s.maxStage (s.reg .CHM_STATUS_STAGE 0 + 1)
      else min s.maxStage (s.reg .CHM_STATUS_STAGE 0 - 1))) :=
  if_pos hallOn

end

/-- Settles O6: a conversion sets its sensor's registers, and nothing it does before the levels changes them. -/
theorem thermalCommands : Obligations.ThermalCommands := by
  refine ⟨fun s i count powered hall ok => ?_, fun s hallOn set => ?_, fun s hallOn clear => ?_,
    fun _ => if_pos rfl, fun _ _ throttled => if_neg throttled⟩
  · obtain ⟨readCount, readTemp, readValid⟩ := reg_sensorRead ok i.val count
    obtain ⟨pw, rooms⟩ := sensorReported_frame (s := s.sensorRead i count.toNat) i (sensorOk (sensorTemp i count.toNat))
    refine ⟨_, exec_sensorConversion_hall powered hall count, ?_, ?_, ?_, pw, rooms⟩
    · exact (reg_sensorReported i _ (by decide) i).trans readCount
    · exact (reg_sensorReported i _ (by decide) i).trans readTemp
    · exact (congrArg (· != 0) (reg_sensorReported i _ (by decide) i)).trans readValid
  · rw [exec_stageStep hallOn, if_pos set]
  · rw [exec_stageStep hallOn, if_neg (Bool.eq_false_iff.1 clear)]

end Sys2Proof.Machine
end

section
/-! PROOF. Landing: heartbeats, misses, sessions, responses, retries and the rounds of a migration (O46). -/

namespace Sys2Proof.Machine

/-! ### Heartbeats (R417, R418) -/

section
variable {s : State} (hallOn : s.pw.dev.hallOn = true) (planned : s.plan.isSome = true)
include hallOn planned

/-- The Landing agent runs: the Hall has power and a plan is loaded. -/
theorem landing_runs : ¬ (!s.pw.dev.hallOn || s.plan.isNone) = true := by
  simp [hallOn, Option.isSome_iff_ne_none.1 planned]

/-- The manager sends its heartbeat to every member at each multiple of 64 beats (R417). -/
theorem exec_heartbeatSend_manager (manager : s.role = 0) (due : s.beat % 64 = 0) : exec .heartbeatSend s =
    .next (s.fracNow.2.memberList.foldl
      (fun (u : State) m => u.sendBeat m [pword s.fracNow.2.beat, pword s.fracNow.1, pword s.fracNow.2.term,
        pword s.fracNow.2.index, pword s.fracNow.2.pl.standby]) s.fracNow.2) := by
  show execHeartbeatSend s = _
  unfold execHeartbeatSend
  rw [if_neg (landing_runs hallOn planned), if_pos manager, if_neg (by simp [due])]

/-- Any other member reports its health to the manager and the standby half-way between them (R417). -/
theorem exec_heartbeatSend_member (member : s.role ≠ 0) (due : s.beat % 64 = 32) : exec .heartbeatSend s =
    .next (([s.pl.manager, s.pl.standby].filter fun m => m < 4096 && m != s.index).foldl
      (fun (u : State) m => u.sendBeat m u.healthReport) s) := by
  show execHeartbeatSend s = _
  unfold execHeartbeatSend
  rw [if_neg (landing_runs hallOn planned), if_neg member, if_neg (by simp [due])]

/-! ### Heartbeats that do not come (R413, R418, R419, R421) -/

/-- A peer's miss is counted, and one of the manager or the standby is an event (R418; log entry 46). -/
def State.missNoted (s : State) (p : Nat) : State :=
  let t := ({ s with pl := { s.pl with missed := put s.pl.missed p (s.missedOf p + 1) } } : State).satReg
    .LND_ERR_MISSED 0 1
  if p = s.pl.manager then t.emit srcManagerMissed else if p = s.pl.standby then t.emit srcStandbyMissed else t

/-- A miss counts 72 beats after the last heartbeat, and every 64 beats from then on (R418; log entry 46). -/
theorem miss_counts {p last : Nat} (due : last + 72 + 64 * s.missedOf p ≤ s.beat) :
    ¬ (!s.pw.dev.hallOn || s.plan.isNone || decide (s.beat < last + 72 + 64 * s.missedOf p)) = true := by
  simp [hallOn, Option.isSome_iff_ne_none.1 planned, due]

section
variable {p last : Nat} (heard : look s.pl.lastHeard p = some last) (due : last + 72 + 64 * s.missedOf p ≤ s.beat)
include heard due

/-- A miss that is not the third in a row is noted (R418; log entry 46). -/
theorem exec_heartbeatMissed_noted (notThird : s.missedOf p ≠ 2) :
    exec (.heartbeatMissed p) s = .next (s.missNoted p) := by
  show execHeartbeatMissed p s = _
  unfold execHeartbeatMissed
  rw [heard]
  dsimp only
  rw [if_neg (miss_counts hallOn planned due), if_pos (by simp [notThird])]
  rfl

/-- At the third miss in a row the peer is lost, and the standby takes over from a lost manager where it holds a
complete mirror (R418, R419, R421; log entry 46). -/
theorem exec_heartbeatMissed_third (third : s.missedOf p = 2) : let v := (s.missNoted p).peerLost p
    exec (.heartbeatMissed p) s =
      if p = v.pl.manager ∧ v.role = 1 ∧ v.pl.mirrored = true then .next v.takeOver else .next v := by
  intro v
  have acts : exec (.heartbeatMissed p) s =
      if (decide (p = v.pl.manager) && decide (v.role = 1) && v.pl.mirrored) = true then .next v.takeOver
      else .next v := by
    show execHeartbeatMissed p s = _
    unfold execHeartbeatMissed
    rw [heard]
    dsimp only
    rw [if_neg (miss_counts hallOn planned due), if_neg (by simp [third])]
    rfl
  rw [acts]
  simp only [Bool.and_eq_true, decide_eq_true_eq, and_assoc]

end

/-! ### Sessions (R413, R425) -/

/-- A session that fails any of its checks is an event (R413). -/
theorem exec_spdmSessionSetup_fails (p : Nat) {authenticated rootOk hashesEqual : Bool}
    (fails : (authenticated && rootOk && hashesEqual) = false) :
    exec (.spdmSessionSetup p authenticated rootOk hashesEqual) s = .next (s.emit srcSpdmFailure) := by
  show execSpdmSessionSetup p authenticated rootOk hashesEqual s = _
  unfold execSpdmSessionSetup
  rw [if_neg (landing_runs hallOn planned), if_neg (Bool.eq_false_iff.1 fails)]

/-- A member keeps the session it sets up (R413). -/
theorem exec_spdmSessionSetup_member (p : Nat) (member : s.role ≠ 0) : exec (.spdmSessionSetup p true true true) s =
    .next (({ s with pl := { s.pl with
      sessions := (s.pl.sessions.filter fun x => x != p) ++ [p]
      failedVdm := s.pl.failedVdm.filter fun x => x != p } } : State).count 192 1) := by
  have role : ∀ u : State, (u.count 192 1).role = u.role := fun u => reg_count_other u _ _ _ _ (by decide)
  show execSpdmSessionSetup p true true true s = _
  unfold execSpdmSessionSetup
  rw [if_neg (landing_runs hallOn planned), if_pos (show (true && true && true) = true from rfl)]
  dsimp only
  rw [role, if_pos]
  exact bne_iff_ne.2 member

end

/-! ### Responses and retries (R412, R415, R416, R420, R421) -/

section
variable {s : State} {h : Hdr}

/-- A TERM response ends its request, and a higher term is recorded with its manager (R420, R421). -/
theorem exec_termResponse (reaches : s.landingReaches h = true) (higher : Word) (manager : Nat) :
    let t := s.count 321 1
    let u : State := { t with pl := { t.pl with
      outstanding := t.pl.outstanding.filter fun o => !(o.peer == h.src && o.seq == h.seq) } }
    exec (.termResponse h higher manager) s = if higher.toNat ≤ u.term then .next u else
      .next ({ u.learnTerm higher.toNat with
        pl := { (u.learnTerm higher.toNat).pl with manager := manager } } : State).putPoolRecord :=
  if_neg (by simp [reaches])

/-- A request without a response is sent again, up to three times (R412, R415). -/
theorem exec_landingRetry {peer : Nat} {seq : BitVec 32} {o : Outstanding} {rest : List Outstanding}
    (hallOn : s.pw.dev.hallOn = true) (oldest : s.pl.outstanding = o :: rest) (to_ : o.peer = peer)
    (numbered : o.seq = seq) (left : o.resends < 3) :
    exec (.landingRetry peer seq) s = .next (((({ s with pl := { s.pl with
      outstanding := s.pl.outstanding.map fun (x : Outstanding) =>
        if x.peer == peer && x.seq == seq then { o with resends := o.resends + 1 } else x } } : State).satReg
          .LND_ERR_RETRIES 0 1).count 322 1).landingPut { o with resends := o.resends + 1 }) := by
  have first : takeFirst (fun (x : Outstanding) => x.peer == peer && x.seq == seq) s.pl.outstanding =
      some (o, rest) := by
    rw [oldest]
    exact takeFirst_front (by simp [to_, numbered])
  show execLandingRetry peer seq s = _
  unfold execLandingRetry
  rw [first]
  dsimp only
  rw [if_neg (by simp [hallOn]), if_pos left]

/-- The result of an amendment ends its chunks, is taken to the directory, and answers who asked for it (R416). -/
theorem exec_amdResult {u : State} {o : Outstanding} (reply : s.landingReply h 0x03 = (u, some o)) (cause : Byte)
    (amdSeq : Word) :
    let v := ({ u with pl := { u.pl with
      outstanding := u.pl.outstanding.filter fun x => !(x.peer == o.peer && x.type == 0x03 && !x.last) } } :
        State).amendmentDone o.peer o.rooms (cause == 0)
    exec (.amdResult h cause amdSeq) s = .next (match o.asker with
      | some f => v.mailAnswer f 0xC042 .success [cause.setWidth 64, amdSeq]
      | none => v).evacuateNext := by
  intro v
  show execAmdResult h cause amdSeq s = _
  unfold execAmdResult
  split
  · next unanswered => cases reply.symm.trans unanswered
  · next found =>
    cases reply.symm.trans found
    rfl

end

/-! ### The rounds of a migration at its source (R429 to R433) -/

section
variable {s : State} {m : Migration} (migrates : s.pl.mig = some m) (source : m.source = true)
  (serving : s.pw.dev = .serving)
include migrates source serving

section
variable (ended : s.internalOver = true) (sound : m.failed = false) {rate written : Nat}
include ended sound

/-- The end of the freeze's round is CUTOVER (R431). -/
theorem exec_migrationRoundEnd_cutOver (frozen : m.step = 3) :
    exec (.migrationRoundEnd rate written) s = .next (s.cutOver m) := by
  show execMigrationRoundEnd rate written s = _
  unfold execMigrationRoundEnd
  rw [migrates]
  dsimp only
  rw [if_neg (by simp [source, serving, ended, frozen]), if_neg (by simp [sound]), if_pos frozen]

/-- A round of the copy is compared with what a freeze could send: the freeze follows, or another round, or after
MAX_ROUNDS the migration fails (R429, R432; log entry 49). -/
theorem exec_migrationRoundEnd_copies (copies : m.step = 2) : exec (.migrationRoundEnd rate written) s =
    if written ≤ rate * max 1 (min 9 (s.reg .LND_CTRL_FREEZE_MS 0)) then
      .next ((((s.modRoom m.room fun r => { r with state := .frozen }).setMig (some { m with step := 3 })).postOut m.room
        m.peer 2).settle)
    else if max 1 (s.reg .LND_CTRL_MAX_ROUNDS 0) ≤ m.rounds then .next (s.sourceFails m)
    else .next (s.postOut m.room m.peer 0) := by
  show execMigrationRoundEnd rate written s = _
  unfold execMigrationRoundEnd
  rw [migrates]
  dsimp only
  rw [if_neg (by simp [source, serving, ended, copies]), if_neg (by simp [sound]), if_neg (by simp [copies])]

end

/-- A freeze whose round is late ends: the room serves again and a further round runs (R432). -/
theorem exec_freezeTimeout (late : s.internalOver = false) (frozen : m.step = 3) :
    let t : State := { s with rg := { s.rg with
      fetched := s.rg.fetched.filter fun c => c.ring != internalRing
      chans := s.rg.chans.filter fun (y : Nat × Channel) => y.2.ring != internalRing } }
    exec .freezeTimeout s = .next ((((t.modRoom m.room fun r => { r with state := .serving }).setMig
      (some { m with step := 2 })).postOut m.room m.peer 0).settle) := by
  intro t
  show execFreezeTimeout s = _
  unfold execFreezeTimeout
  rw [migrates]
  exact if_neg (by simp [source, serving, late, frozen])

end

/-- Settles O46: misses after the first come every 64 beats, and a takeover needs a complete mirror (log entry 46). -/
theorem landingEvents : Obligations.LandingEvents :=
  ⟨fun _ p hallOn planned =>
      ⟨exec_heartbeatSend_manager hallOn planned, exec_heartbeatSend_member hallOn planned,
        fun _ heard due => ⟨exec_heartbeatMissed_noted hallOn planned heard due,
          exec_heartbeatMissed_third hallOn planned heard due⟩,
        fun _ _ _ fails => exec_spdmSessionSetup_fails hallOn planned p fails,
        exec_spdmSessionSetup_member hallOn planned p⟩,
    fun _ _ higher manager reaches =>
      have answered := exec_termResponse reaches higher manager
      ⟨fun known => answered.trans (if_pos known), fun above => answered.trans (if_neg (Nat.not_le.2 above))⟩,
    fun _ _ _ _ _ hallOn oldest to_ numbered left => exec_landingRetry hallOn oldest to_ numbered left,
    fun _ _ _ cause amdSeq _ reply => exec_amdResult reply cause amdSeq,
    fun _ _ _ _ migrates source serving =>
      ⟨fun ended sound =>
        have copies := exec_migrationRoundEnd_copies migrates source serving ended sound
        ⟨exec_migrationRoundEnd_cutOver migrates source serving ended sound,
          fun step fits => (copies step).trans (if_pos fits),
          fun step tooMuch =>
            ⟨fun spent => (copies step).trans ((if_neg (Nat.not_le.2 tooMuch)).trans (if_pos spent)),
              fun left => (copies step).trans ((if_neg (Nat.not_le.2 tooMuch)).trans (if_neg (Nat.not_le.2 left)))⟩⟩,
        exec_freezeTimeout migrates source serving⟩⟩

end Sys2Proof.Machine
end
